-- ==== Sys2Proof/Word.lean ====
section
/-! DEFINITION. The word types of the GV8420 and the small sets of names that its commands and its state share:
the three ports, the three zones, the ids of sources, lanes and sense channels, and the two containers that hold
one thing for each zone or for each port. -/

namespace Sys2Proof

/-- A control port word: 16 bits (chapter 9). -/
abbrev Word := BitVec 16

/-- A packet audio word or a station data word: 32 bits under the word check code (12.1). -/
abbrev CodeWord := BitVec 32

/-- One byte: a character, a kind code, a byte of the tuner link. -/
abbrev Byte := BitVec 8

/-- A sample is a signed 24-bit integer, and all arithmetic on samples is exact integer arithmetic (4.1), so a
sample is held as the integer it stands for. -/
abbrev Sample := Int

/-- Source ids 0 to 7: PA0, PA1, SA0, SA1, SA2, SA3, TUN, MED (1.1). -/
abbrev SourceId := Fin 8

/-- Lane numbers 0 to 10 (6.1). -/
abbrev LaneId := Fin 11

/-- Sense converter channels 0 to 13 (6.5). -/
abbrev SenseChannel := Fin 14

/-- The position codes of SET_SPEAKER: 0 to 6 are FL, FR, C, SL, SR, BL and BR (R99). -/
abbrev Position := Fin 7

/-- The source id of the tuner, TUN. -/
def tunerId : SourceId := 6

/-- The three control ports, coded 0, 1 and 2 (9.1). -/
inductive Port where
  | a
  | b
  | c
deriving DecidableEq, Repr

/-- The three zones, ids 0, 1 and 2 (3.1). -/
inductive ZoneId where
  | main
  | z2
  | z3
deriving DecidableEq, Repr

/-- The number that codes a port (9.1, R195). -/
def Port.code : Port → Nat
  | .a => 0
  | .b => 1
  | .c => 2

/-- The id of a zone (3.1). -/
def ZoneId.code : ZoneId → Nat
  | .main => 0
  | .z2 => 1
  | .z3 => 2

/-- The zone that a number names, if it names one (3.1). -/
def ZoneId.ofNat? : Nat → Option ZoneId
  | 0 => some .main
  | 1 => some .z2
  | 2 => some .z3
  | _ => none

/-- One thing for each zone. -/
structure PerZone (α : Type) where
  main : α
  z2 : α
  z3 : α
deriving DecidableEq, Repr

/-- The thing a `PerZone` holds for a zone. -/
def PerZone.get {α : Type} (t : PerZone α) : ZoneId → α
  | .main => t.main
  | .z2 => t.z2
  | .z3 => t.z3

/-- A `PerZone` with the thing of one zone replaced. -/
def PerZone.set {α : Type} (t : PerZone α) : ZoneId → α → PerZone α
  | .main, x => { t with main := x }
  | .z2, x => { t with z2 := x }
  | .z3, x => { t with z3 := x }

/-- One thing for each port. -/
structure PerPort (α : Type) where
  a : α
  b : α
  c : α
deriving DecidableEq, Repr

/-- The thing a `PerPort` holds for a port. -/
def PerPort.get {α : Type} (t : PerPort α) : Port → α
  | .a => t.a
  | .b => t.b
  | .c => t.c

/-- A `PerPort` with the thing of one port replaced. -/
def PerPort.set {α : Type} (t : PerPort α) : Port → α → PerPort α
  | .a, x => { t with a := x }
  | .b, x => { t with b := x }
  | .c, x => { t with c := x }

end Sys2Proof
end

