-- ==== Sys2Proof/Syntax.lean ====
section
/-! DEFINITION. The commands of the GV8420: one constructor for each row of spec/opcode_table.json, with the
operands the spec gives the row. A request row carries the port that sent its frame and the frame's parameter
words as they were received (R175); an event row carries the thing the event is about. -/

namespace Sys2Proof

/-- The part's steps (95_what_each_step_holds.md): the requests of the catalogue in 9.5, the select-line events of
the control ports, the arrivals at the inputs, the clock's events, the expiries of the blocks' own counts, the
protection events and the tuner-link events. -/
inductive Instr where
  /- Resets and the control ports. -/
  | powerOnReset
  /-- The reset pin takes a level: `false` is its release, which the table's row names and which the bare name stands for;
  `true` its assertion, from which the part is kept in reset (R187) and which the table lists under no row of its own. -/
  | resetPin (asserted : Bool := false)
  | ignoringRelease (port : Port)
  /-- The release that ends a fetch frame: the low byte of its word 0 and how many whole words were clocked, word 0
  included. -/
  | fetchFrame (port : Port) (low : Byte) (words : Nat)
  /-- The release that ends a request frame which fails R170: its kind code, its declared parameter count and the
  parameter words received. -/
  | badRequest (port : Port) (kind declared : Byte) (params : List Word)
  | identify (port : Port)
  | getResetCause (port : Port)
  | softReset (port : Port)
  | enterStandby (port : Port)
  | wake (port : Port)
  | setWakeSense (port : Port) (set : Word)
  | subscribe (port : Port) (set : Word)
  | readNotices (port : Port)
  /- Requests to Source Intake and the Sample Clock Unit. -/
  | getSource (port : Port) (source : Word)
  | setPrefill (port : Port) (source target : Word)
  | setGroups (port : Port) (source groupA groupB : Word)
  | clearSourceCounters (port : Port) (source : Word)
  | getClock (port : Port)
  | setClockMode (port : Port) (mode : Word)
  /- Requests to the Zone Router. -/
  /-- ZONE_POWER with an on/off code other than 0: 1 is on, and every other code is refused (R45). -/
  | zonePowerOn (port : Port) (zone code : Word)
  /-- ZONE_POWER with the on/off code 0. -/
  | zonePowerOff (port : Port) (zone : Word)
  | selectSource (port : Port) (zone source : Word)
  | setVolume (port : Port) (zone index : Word)
  | stepVolume (port : Port) (zone step : Word)
  | setMute (port : Port) (zone code : Word)
  | setMaxVolume (port : Port) (zone index : Word)
  | setLipsync (port : Port) (zone ms : Word)
  | getZone (port : Port) (zone : Word)
  /- Requests to the Surround Decoder and the Speaker Renderer. -/
  | setDecodeMode (port : Port) (mode autoMatrix : Word)
  | getDecode (port : Port)
  | setSpeaker (port : Port) (position present size distance trim : Word)
  | setSub (port : Port) (present distance trim : Word)
  | setCrossover (port : Port) (setting : Word)
  | getLayout (port : Port)
  | getDelay (port : Port)
  /- Requests to the Lane Supervisor. -/
  | assignLane (port : Port) (lane target : Word)
  | getLane (port : Port) (lane : Word)
  | clearLaneFault (port : Port) (lane counters : Word)
  | getThermal (port : Port)
  /- Requests to the Radio Unit and the Station Data Decoder. -/
  | setBandPlan (port : Port) (fmStep amStep : Word)
  | tune (port : Port) (zone band freqHigh freqLow : Word)
  | seek (port : Port) (zone direction : Word)
  | scan (port : Port) (zone band : Word)
  | cancelRadio (port : Port) (zone : Word)
  /-- STORE_PRESET with a mode code other than 1: 0 is explicit, and every other code is refused (R143). -/
  | storePresetExplicit (port : Port) (index mode band freqHigh freqLow : Word)
  /-- STORE_PRESET with mode 1; its band and frequency words are not used (R143). -/
  | storePresetCurrent (port : Port) (index band freqHigh freqLow : Word)
  | recallPreset (port : Port) (zone index : Word)
  | clearPreset (port : Port) (index : Word)
  | getPreset (port : Port) (index : Word)
  | getStationList (port : Port) (first : Word)
  | getRadio (port : Port)
  | setRadioOptions (port : Port) (follow forcedMono fmLevel fmNoise amLevel turnaround : Word)
  | getStationData (port : Port)
  /- Arrivals at Source Intake. -/
  /-- A packet on packet audio input 0 or 1: its five words, or the one to four words received before the input's
  framing marked a new header (R5). -/
  | packetArrival (input : Fin 2) (words : List CodeWord)
  /-- A frame on serial input 0 to 5, that is source id 2 to 7: its two samples, its validity flag, its status bit
  and its block-start flag (R9). -/
  | serialFrameArrival (input : Fin 6) (left right : BitVec 24) (valid status blockStart : Bool)
  /- Output timing and the events found at a block start or an interval end. -/
  | outputSamplePeriod
  | outputBlockStart
  | pendingIntakeChange (source : SourceId)
  | sourceAbsent (source : SourceId)
  | slipLimitRestart (source : SourceId)
  | fadeOutEnd (zone : ZoneId)
  | fadeInEnd (zone : ZoneId)
  | zoneNoSignal (zone : ZoneId)
  | faultLayoutAdoption
  | measurementIntervalEnd
  | holdoverExpiry
  /- Lanes and protection. -/
  | relayClosed (lane : LaneId)
  | releaseRampEnd (lane : LaneId)
  | relayOpened (lane : LaneId)
  /-- The lane's fault input takes the level `level`: `true` is an assertion, `false` its release (which the table
  lists under no row of its own). -/
  | faultInputAsserted (lane : LaneId) (level : Bool)
  | retryEnd (lane : LaneId)
  | tripHistoryExpiry (lane : LaneId)
  | senseConversion (channel : SenseChannel) (code : BitVec 12)
  | temperatureUpdate
  | fanDutyAdoption
  | fanTachPulse
  | fanWindowEnd
  /- Standby Control. -/
  | activeEntry
  | powerOnDelayEnd
  | standbyEntry
  /- The tuner link and the radio's counts. -/
  | linkMessageSend
  | setFreqReply
  /-- A GET_QUALITY reply: its three payload bytes. -/
  | getQualityReply (level noise flags : Byte)
  /-- A GET_DATA reply: its 0 to 6 station data words. -/
  | getDataReply (words : List CodeWord)
  | setBlendReply
  /-- A STATUS reply: its two payload bytes, which enter no record (R194). -/
  | statusReply (status : Word)
  | linkAttemptFailed
  | settleEnd
  | followSettleEnd
  | followWaitEnd
  | dataPollDue
  | qualityPollDue
  | linkProbe
  | followTrigger
  /- Select-line events. -/
  | selectLineAsserted (port : Port)
  | selectReleasedBeforeWord0 (port : Port)
deriving DecidableEq, Repr

end Sys2Proof
end

