-- ==== Sys2Proof/Decode.lean ====
section
/-! DEFINITION. From words to commands. No row of spec/opcode_table.json gives bits, so `decodeTableWord` spells no
command. What the spec does give bits is the request frame (R169, R170, 12.2): `catalogue` is the table of 9.5,
`frameCheck` the four checks of R170, `decodeFrame` reads a frame of whole words as the command its release is,
and `Instr.frame` writes the frame of a request. -/

namespace Sys2Proof

/-- The command that a word spells by the table's bits: none, since no row of the table gives bits. -/
def decodeTableWord (_nbits _w : Nat) : Option Instr := none

/-- The kind codes of the request catalogue with the number of parameter words each takes (9.5). -/
def catalogue : List (Nat × Nat) :=
  [(0x01, 0), (0x02, 0), (0x03, 0), (0x04, 0), (0x05, 0), (0x06, 1), (0x07, 1), (0x08, 0),
   (0x10, 1), (0x11, 2), (0x12, 3), (0x13, 1), (0x18, 0), (0x19, 1)] ++
  [(0x20, 2), (0x21, 2), (0x22, 2), (0x23, 2), (0x24, 2), (0x25, 2), (0x26, 2), (0x27, 1),
   (0x30, 2), (0x31, 0), (0x38, 5), (0x39, 3), (0x3A, 1), (0x3B, 0), (0x3C, 0)] ++
  [(0x40, 2), (0x41, 1), (0x42, 2), (0x43, 0), (0x50, 2), (0x51, 4), (0x52, 2), (0x53, 2), (0x54, 1),
   (0x55, 5), (0x56, 2), (0x57, 1), (0x58, 1), (0x59, 1), (0x5A, 0), (0x5B, 6), (0x60, 0)]

/-- The number of parameter words the catalogue gives a kind code, if the code is in it. -/
def paramCount (kind : Nat) : Option Nat := catalogue.lookup kind

/-- The reasons of a BAD_REQUEST, coded 0 to 3 (9.4). -/
inductive BadReason where
  | unknownKind
  | count
  | short
  | long
deriving DecidableEq, Repr

/-- The code of a BAD_REQUEST reason (9.4). -/
def BadReason.code : BadReason → Nat
  | .unknownKind => 0
  | .count => 1
  | .short => 2
  | .long => 3

/-- R170: the checks of a request frame in their order; the first that fails gives the reason. -/
def frameCheck (kind declared received : Nat) : Option BadReason :=
  match paramCount kind with
  | none => some .unknownKind
  | some n =>
    if 32 < declared ∨ declared ≠ n then some .count
    else if received < declared then some .short
    else if declared < received then some .long
    else none

/-- The requests of no parameter word (9.5). -/
def decodeRequest0 (p : Port) (kind : Nat) : Option Instr :=
  match kind with
  | 0x01 => some (.identify p)
  | 0x02 => some (.getResetCause p)
  | 0x03 => some (.softReset p)
  | 0x04 => some (.enterStandby p)
  | 0x05 => some (.wake p)
  | 0x08 => some (.readNotices p)
  | 0x18 => some (.getClock p)
  | 0x31 => some (.getDecode p)
  | 0x3B => some (.getLayout p)
  | 0x3C => some (.getDelay p)
  | 0x43 => some (.getThermal p)
  | 0x5A => some (.getRadio p)
  | 0x60 => some (.getStationData p)
  | _ => none

/-- The requests of one parameter word (9.5). -/
def decodeRequest1 (p : Port) (kind : Nat) (x : Word) : Option Instr :=
  match kind with
  | 0x06 => some (.setWakeSense p x)
  | 0x07 => some (.subscribe p x)
  | 0x10 => some (.getSource p x)
  | 0x13 => some (.clearSourceCounters p x)
  | 0x19 => some (.setClockMode p x)
  | 0x27 => some (.getZone p x)
  | 0x3A => some (.setCrossover p x)
  | 0x41 => some (.getLane p x)
  | 0x54 => some (.cancelRadio p x)
  | 0x57 => some (.clearPreset p x)
  | 0x58 => some (.getPreset p x)
  | 0x59 => some (.getStationList p x)
  | _ => none

/-- The requests of two parameter words (9.5). -/
def decodeRequest2 (p : Port) (kind : Nat) (x y : Word) : Option Instr :=
  match kind with
  | 0x11 => some (.setPrefill p x y)
  | 0x20 => if y = 0 then some (.zonePowerOff p x) else some (.zonePowerOn p x y)
  | 0x21 => some (.selectSource p x y)
  | 0x22 => some (.setVolume p x y)
  | 0x23 => some (.stepVolume p x y)
  | 0x24 => some (.setMute p x y)
  | 0x25 => some (.setMaxVolume p x y)
  | 0x26 => some (.setLipsync p x y)
  | 0x30 => some (.setDecodeMode p x y)
  | 0x40 => some (.assignLane p x y)
  | 0x42 => some (.clearLaneFault p x y)
  | 0x50 => some (.setBandPlan p x y)
  | 0x52 => some (.seek p x y)
  | 0x53 => some (.scan p x y)
  | 0x56 => some (.recallPreset p x y)
  | _ => none

/-- The requests of three parameter words (9.5). -/
def decodeRequest3 (p : Port) (kind : Nat) (x y z : Word) : Option Instr :=
  match kind with
  | 0x12 => some (.setGroups p x y z)
  | 0x39 => some (.setSub p x y z)
  | _ => none

/-- The requests of four parameter words (9.5). -/
def decodeRequest4 (p : Port) (kind : Nat) (x y z u : Word) : Option Instr :=
  match kind with
  | 0x51 => some (.tune p x y z u)
  | _ => none

/-- The requests of five parameter words (9.5). -/
def decodeRequest5 (p : Port) (kind : Nat) (x y z u v : Word) : Option Instr :=
  match kind with
  | 0x38 => some (.setSpeaker p x y z u v)
  | 0x55 => if y = 1 then some (.storePresetCurrent p x z u v) else some (.storePresetExplicit p x y z u v)
  | _ => none

/-- The requests of six parameter words (9.5). -/
def decodeRequest6 (p : Port) (kind : Nat) (x y z u v w : Word) : Option Instr :=
  match kind with
  | 0x5B => some (.setRadioOptions p x y z u v w)
  | _ => none

/-- The request that a kind code and exactly the catalogue's number of parameter words spell (9.5). -/
def decodeRequest (p : Port) (kind : Nat) : List Word → Option Instr
  | [] => decodeRequest0 p kind
  | [x] => decodeRequest1 p kind x
  | [x, y] => decodeRequest2 p kind x y
  | [x, y, z] => decodeRequest3 p kind x y z
  | [x, y, z, u] => decodeRequest4 p kind x y z u
  | [x, y, z, u, v] => decodeRequest5 p kind x y z u v
  | [x, y, z, u, v, w] => decodeRequest6 p kind x y z u v w
  | _ => none

/-- The command that the release of a select period is, from the whole words shifted in (R169, R170, R173): none
before word 0 is whole; a fetch frame for kind code 0x00; a request that passes R170; or a bad request. -/
def decodeFrame (p : Port) : List Word → Instr
  | [] => .selectReleasedBeforeWord0 p
  | w :: params =>
    let kind := w.toNat / 256
    let declared := w.toNat % 256
    if kind = 0 then .fetchFrame p (BitVec.ofNat 8 declared) (1 + params.length)
    else
      match frameCheck kind declared params.length, decodeRequest p kind params with
      | none, some i => i
      | _, _ => .badRequest p (BitVec.ofNat 8 kind) (BitVec.ofNat 8 declared) params

/-- Word 0 of a request frame: the kind code in the high byte and the parameter count in the low byte (12.2). -/
def requestWord0 (kind count : Nat) : Word := BitVec.ofNat 16 (kind * 256 + count)

/-- The frame of a request: the port, the kind code and the parameter words (9.5). Commands that are not requests
have none. -/
def Instr.frame : Instr → Option (Port × Nat × List Word)
  | .identify p => some (p, 0x01, [])
  | .getResetCause p => some (p, 0x02, [])
  | .softReset p => some (p, 0x03, [])
  | .enterStandby p => some (p, 0x04, [])
  | .wake p => some (p, 0x05, [])
  | .setWakeSense p x => some (p, 0x06, [x])
  | .subscribe p x => some (p, 0x07, [x])
  | .readNotices p => some (p, 0x08, [])
  | .getSource p x => some (p, 0x10, [x])
  | .setPrefill p x y => some (p, 0x11, [x, y])
  | .setGroups p x y z => some (p, 0x12, [x, y, z])
  | .clearSourceCounters p x => some (p, 0x13, [x])
  | .getClock p => some (p, 0x18, [])
  | .setClockMode p x => some (p, 0x19, [x])
  | .zonePowerOn p x y => some (p, 0x20, [x, y])
  | .zonePowerOff p x => some (p, 0x20, [x, 0])
  | .selectSource p x y => some (p, 0x21, [x, y])
  | .setVolume p x y => some (p, 0x22, [x, y])
  | .stepVolume p x y => some (p, 0x23, [x, y])
  | .setMute p x y => some (p, 0x24, [x, y])
  | .setMaxVolume p x y => some (p, 0x25, [x, y])
  | .setLipsync p x y => some (p, 0x26, [x, y])
  | .getZone p x => some (p, 0x27, [x])
  | .setDecodeMode p x y => some (p, 0x30, [x, y])
  | .getDecode p => some (p, 0x31, [])
  | .setSpeaker p x y z u v => some (p, 0x38, [x, y, z, u, v])
  | .setSub p x y z => some (p, 0x39, [x, y, z])
  | .setCrossover p x => some (p, 0x3A, [x])
  | .getLayout p => some (p, 0x3B, [])
  | .getDelay p => some (p, 0x3C, [])
  | .assignLane p x y => some (p, 0x40, [x, y])
  | .getLane p x => some (p, 0x41, [x])
  | .clearLaneFault p x y => some (p, 0x42, [x, y])
  | .getThermal p => some (p, 0x43, [])
  | .setBandPlan p x y => some (p, 0x50, [x, y])
  | .tune p x y z u => some (p, 0x51, [x, y, z, u])
  | .seek p x y => some (p, 0x52, [x, y])
  | .scan p x y => some (p, 0x53, [x, y])
  | .cancelRadio p x => some (p, 0x54, [x])
  | .storePresetExplicit p x y z u v => some (p, 0x55, [x, y, z, u, v])
  | .storePresetCurrent p x z u v => some (p, 0x55, [x, 1, z, u, v])
  | .recallPreset p x y => some (p, 0x56, [x, y])
  | .clearPreset p x => some (p, 0x57, [x])
  | .getPreset p x => some (p, 0x58, [x])
  | .getStationList p x => some (p, 0x59, [x])
  | .getRadio p => some (p, 0x5A, [])
  | .setRadioOptions p x y z u v w => some (p, 0x5B, [x, y, z, u, v, w])
  | .getStationData p => some (p, 0x60, [])
  | .powerOnReset | .resetPin _ | .ignoringRelease _ | .fetchFrame _ _ _ | .badRequest _ _ _ _ => none
  | .packetArrival _ _ | .serialFrameArrival _ _ _ _ _ _ | .outputSamplePeriod | .outputBlockStart => none
  | .pendingIntakeChange _ | .sourceAbsent _ | .slipLimitRestart _ | .fadeOutEnd _ | .fadeInEnd _ => none
  | .zoneNoSignal _ | .faultLayoutAdoption | .measurementIntervalEnd | .holdoverExpiry => none
  | .relayClosed _ | .releaseRampEnd _ | .relayOpened _ | .faultInputAsserted _ _ | .retryEnd _ => none
  | .tripHistoryExpiry _ | .senseConversion _ _ | .temperatureUpdate | .fanDutyAdoption | .fanTachPulse => none
  | .fanWindowEnd | .activeEntry | .powerOnDelayEnd | .standbyEntry | .linkMessageSend | .setFreqReply => none
  | .getQualityReply _ _ _ | .getDataReply _ | .setBlendReply | .statusReply _ | .linkAttemptFailed => none
  | .settleEnd | .followSettleEnd | .followWaitEnd | .dataPollDue | .qualityPollDue | .linkProbe => none
  | .followTrigger | .selectLineAsserted _ | .selectReleasedBeforeWord0 _ => none

/-- The whole words of the frame that a request is sent in (R169). -/
def Instr.frameWords (i : Instr) : Option (List Word) :=
  i.frame.map fun f => requestWord0 f.2.1 f.2.2.length :: f.2.2

end Sys2Proof
end

