-- ==== Sys2Proof/Config.lean ====
section
/-! DEFINITION. What the GV8420 fixes once and for all, and the free values: the constants without a body, which
stand for what the spec leaves open. -/

namespace Sys2Proof.Config

/-- FREE VALUE (notes/assumptions/2.md): the number of data words of a reply whose layout the spec does not give.
The argument counts the replies so formed, so that each has its own value. -/
opaque replyWords : Nat → Nat

/-- FREE VALUE (notes/assumptions/2.md): a data word of a reply whose layout the spec does not give, by the reply's
count and the word's place in it. -/
opaque replyWord : Nat → Nat → BitVec 16

/-- FREE VALUE (notes/assumptions/3.md): the sample that a RUNNING source with an empty buffer hands the zones in a
channel when it has read no frame yet, which R11 does not say. -/
opaque unreadSample : Nat → BitVec 24

/-- The nominal period word: 512 crystal periods (2.1). -/
def nominalPeriod : Nat := 33554432

/-- The least period word (2.1). -/
def minPeriod : Nat := 33520878

/-- The greatest period word (2.1). -/
def maxPeriod : Nat := 33587986

/-- The delay memory: 196,608 cells (5.5). -/
def delayCells : Nat := 196608

/-- The most frames an intake buffer holds (R4). -/
def bufferFrames : Nat := 64

/-- The most notices a queue holds (R182). -/
def queueNotices : Nat := 16

/-- The most entries of the station list (R142). -/
def stationEntries : Nat := 48

/-- The largest value of the 16-bit counters, at which they stop (00_scope.md, Counters). -/
def counterMax : Nat := 65535

/-- The back-off set by a follow check that ends (R164 to R166), in output blocks. -/
def followBackOff : Nat := 10000

end Sys2Proof.Config
end

