-- ==== Sys2Proof/Machine/State.lean ====
section
/-! DEFINITION. Everything the GV8420 holds, block by block, as plain data, and the value of all of it right after a
reset. What the spec names as a field but fixes as a function of other fields (a fill level, a channel's kind, the
allocator's claims and holdings, an attention line, a relay drive, the forms of Zones 2 and 3) is stored once and
computed where it is read (Sys2Proof/Machine/Flags.lean); INVENTORY.md names each. -/

namespace Sys2Proof.Machine

/-! ### Source Intake (chapter 1) -/

/-- One sample period's samples of one source. A channel that the source does not carry holds zero. -/
structure Frame where
  fl : Sample
  fr : Sample
  c : Sample
  lfe : Sample
  sl : Sample
  sr : Sample
  bl : Sample
  br : Sample
deriving DecidableEq, Repr

/-- The frame of zero samples. -/
def Frame.zero : Frame := ⟨0, 0, 0, 0, 0, 0, 0, 0⟩

/-- Why a source is UNUSABLE (1.2). -/
inductive UnusableReason where
  | nonAudio
  | rate
deriving DecidableEq, Repr

/-- The state of a source, with the unusable reason that UNUSABLE carries (1.3). -/
inductive SourceState where
  | absent
  | prefill
  | running
  | unusable (reason : UnusableReason)
deriving DecidableEq, Repr

/-- A channel set: bits 0 to 7 stand for FL, FR, C, LFE, SL, SR, BL and BR, as in R195. -/
abbrev Channels := BitVec 8

/-- The four samples of one packet's part of a frame, slots 0 to 3 (12.3). -/
structure Part where
  s0 : Sample
  s1 : Sample
  s2 : Sample
  s3 : Sample
deriving DecidableEq, Repr

/-- A frame under assembly (R7). -/
structure PendingFrame where
  seq : Nat
  partA : Option Part
  partB : Option Part
deriving DecidableEq, Repr

/-- The word lengths a status block may name (12.4). -/
inductive WordLength where
  | w16
  | w20
  | w24
deriving DecidableEq, Repr

/-- An adopted status record (1.2). The name is 15 bytes, byte 3 of the block in bits 7 to 0. -/
structure StatusRecord where
  nonAudio : Bool
  rate : Byte
  length : WordLength
  name : BitVec 120
deriving DecidableEq, Repr

/-- A status block: status bit j is bit j, so byte i is bits 8i + 7 to 8i (R17). -/
abbrev StatusBlock := BitVec 160

/-- The status assembly: WAITING, or COLLECTING with `held` bits, 1 to 159, placed in `bits` (R17). -/
inductive StatusAssembly where
  | waiting
  | collecting (held : Nat) (bits : StatusBlock)
deriving DecidableEq, Repr

/-- A pending intake change (R23, R25). -/
inductive IntakeChange where
  | restart
  | newGroups (groupA groupB : Nat)
deriving DecidableEq, Repr

/-- The ten counters of a source (1.2). -/
structure SourceCounters where
  overruns : Nat
  underruns : Nat
  slips : Nat
  slipRestarts : Nat
  wordsCorrected : Nat
  wordsRejected : Nat
  gaps : Nat
  gapFilled : Nat
  blocksFailed : Nat
  invalidFrames : Nat
deriving DecidableEq, Repr

/-- The ten counters at 0. -/
def SourceCounters.zero : SourceCounters := ⟨0, 0, 0, 0, 0, 0, 0, 0, 0, 0⟩

/-- A source record (1.2). The fill level is the length of `buffer`, whose head is the oldest frame. The radio mute
of TUN stands in the radio record, whose unit alone writes it. `repeatHead` is set by a block start that corrects by
repeating, for the first sample period of the block (R12). -/
structure Source where
  state : SourceState
  groupA : Nat
  groupB : Nat
  maskA : BitVec 4
  maskB : BitVec 4
  channels : Channels
  prefill : Nat
  buffer : List Frame
  corrections : Nat
  absence : Nat
  arrival : Bool
  entryInterval : Bool
  arrivals : Nat
  lastArrivals : Nat
  badRun : Nat
  goodRun : Nat
  lastSeq : Option Nat
  pendingFrame : Option PendingFrame
  lastWritten : Option Frame
  lastRead : Option Frame
  repeatHead : Bool
  assembly : StatusAssembly
  prevBlock : Option StatusBlock
  adopted : Option StatusRecord
  change : Option IntakeChange
  counters : SourceCounters
deriving DecidableEq, Repr

/-! ### Sample Clock Unit (chapter 2) -/

/-- The clock mode (2.1). -/
inductive ClockMode where
  | auto
  | forcedFree
deriving DecidableEq, Repr

/-- The clock state (2.1). -/
inductive ClockState where
  | free
  | acquiring
  | locked
  | holdover
deriving DecidableEq, Repr

/-- The last adjustment of the period word (2.1). -/
structure Adjustment where
  arrivals : Nat
  fillError : Int
  clamped : Bool
deriving DecidableEq, Repr

/-- The clock record (2.1). -/
structure Clock where
  running : Bool
  mode : ClockMode
  state : ClockState
  period : Nat
  reference : Option SourceId
  phase : Nat
  blockPos : Nat
  intervalPos : Nat
  partialInterval : Bool
  good : Nat
  holdover : Nat
  lastAdjustment : Option Adjustment
deriving DecidableEq, Repr

/-! ### Zone Router (chapter 3) -/

/-- The purpose of a fade-out (3.1). -/
inductive Purpose where
  | switch
  | powerOff
  | reconfigure
deriving DecidableEq, Repr

/-- The state of a zone, with the purpose that FADING_OUT carries (3.1). -/
inductive ZoneState where
  | off
  | fadingOut (purpose : Purpose)
  | waiting
  | fadingIn
  | playing
deriving DecidableEq, Repr

/-- The set of pending reconfiguration items (3.1). -/
structure Items where
  lipsync : Bool
  decode : Bool
  layout : Bool
deriving DecidableEq, Repr

/-- No pending item. -/
def Items.none : Items := ⟨false, false, false⟩

/-- A zone record (3.1) with the zone's lip-sync delay line, oldest frame first. In Zones 2 and 3 a frame of the
line is the pair in its `fl` and `fr`. -/
structure Zone where
  power : Bool
  selected : SourceId
  current : Option SourceId
  state : ZoneState
  volume : Nat
  maxVolume : Nat
  gain : Int
  mute : Bool
  fast : Bool
  lipRequested : Nat
  lipGranted : Nat
  lipEffect : Nat
  pending : Items
  noSignal : Nat
  noSignalReported : Bool
  line : List Frame
deriving DecidableEq, Repr

/-! ### Surround Decoder (chapter 4) -/

/-- The decode modes that a controller requests (4.2). -/
inductive RequestedMode where
  | auto
  | direct
  | matrix
  | fold2
deriving DecidableEq, Repr

/-- The decode modes that build the main zone's positions (4.2). -/
inductive ActiveMode where
  | direct
  | matrix
  | fold2
deriving DecidableEq, Repr

/-- Why the active mode is what it is (4.2). -/
inductive DecodeReason where
  | asRequested
  | auto
  | matrixNeedsStereo
  | fold2NeedsMultichannel
deriving DecidableEq, Repr

/-- A mode with its reason: the active pair and the derived pair (4.2). -/
structure DecodePair where
  mode : ActiveMode
  reason : DecodeReason
deriving DecidableEq, Repr

/-- The steering coefficients governing an output block (R79). -/
structure Steering where
  gC : Int
  gS : Int
  kF : Int
  wL : Int
  wR : Int
deriving DecidableEq, Repr

/-- The four magnitude sums of an output block (R77). -/
structure BlockSums where
  sumL : Int
  sumR : Int
  sumC : Int
  sumS : Int
deriving DecidableEq, Repr

/-- The coefficients of a zero steering state (R67). -/
def Steering.zero : Steering := ⟨8192, 8192, 0, 32768, 32768⟩

/-- The four sums at 0. -/
def BlockSums.zero : BlockSums := ⟨0, 0, 0, 0⟩

/-- The decoder record (4.2). The forms of Zones 2 and 3 follow their current sources and are computed. `newMode` says
that a change of the active mode has been adopted since the last sample period, so that the next block start is the one
of the adoption (R71, R78). -/
structure Decoder where
  requested : RequestedMode
  autoMatrix : Bool
  active : DecodePair
  derived : DecodePair
  itemPending : Bool
  source : Option SourceId
  dLr : Int
  dCs : Int
  sums : BlockSums
  lastRaw : Option (Int × Int)
  steering : Steering
  backfillL : Bool
  backfillR : Bool
  newMode : Bool
deriving DecidableEq, Repr

/-! ### Speaker Renderer (chapter 5) -/

/-- A set of main positions: bit k stands for position code k (R195). -/
abbrev PositionSet := BitVec 7

/-- A position entry of the layout table (5.1); `small` is the size SMALL. -/
structure PositionEntry where
  present : Bool
  small : Bool
  distance : Nat
  trim : Int
deriving DecidableEq, Repr

/-- The SUB entry of the layout table (5.1). -/
structure SubEntry where
  present : Bool
  distance : Nat
  trim : Int
deriving DecidableEq, Repr

/-- A layout record (5.1). The effective crossover is held as its setting code; the delay of an output that is not
effectively present is held as 0. -/
structure Layout where
  present : PositionSet
  sub : Bool
  bass : PositionSet
  crossover : Option Nat
  delays : Vector Nat 7
  subDelay : Nat
  valid : Bool
deriving DecidableEq, Repr

/-- One thing for each line output: SUB, Z2-L, Z2-R, Z3-L, Z3-R. -/
structure PerLine (α : Type) where
  sub : α
  z2l : α
  z2r : α
  z3l : α
  z3r : α
deriving DecidableEq, Repr

/-- What governs one lane for the output block in progress: the target it serves and its effective index (R93,
R95). -/
structure LaneDrive where
  target : Fin 12
  index : Int
deriving DecidableEq, Repr

/-- The renderer record (5.1). `governing` is the layout that governs the output block in progress, which differs
from the one in force after an adoption made at once (R87); `faultAdoption` says that a fault-caused adoption awaits
the next block start (R86); `laneDrives` and `lineIndex` are what R93 fixes for the block; `laneOut` and `lineOut`
are the samples last delivered on the outputs. -/
structure Renderer where
  entries : Vector PositionEntry 7
  sub : SubEntry
  trimZ2 : Int
  trimZ3 : Int
  crossover : Nat
  inForce : Layout
  derived : Layout
  itemPending : Bool
  faultAdoption : Bool
  governing : Layout
  filters : Vector Sample 7
  lines : Vector (List Sample) 7
  subLine : List Sample
  clips : PerLine Nat
  laneDrives : Vector LaneDrive 11
  lineIndex : PerLine Int
  laneOut : Vector Sample 11
  lineOut : PerLine Sample
deriving DecidableEq, Repr

/-! ### Lane Supervisor (chapter 6) -/

/-- The relay state of a lane (6.1). -/
inductive Relay where
  | open
  | closing
  | closed
  | opening
deriving DecidableEq, Repr

/-- The fault state of a lane (6.1). -/
inductive FaultState where
  | ok
  | retry
  | latchedOc
  | latchedDc
deriving DecidableEq, Repr

/-- A lane record (6.1). `ramp` is the release ramp: 0 is present with its step unset, 1 to 8 its step, and 9 from
the ninth block start until RELEASE_RAMP_END is taken. The trip
history and the DC window are oldest first. `faultInput` is the level of the lane's fault input. -/
structure Lane where
  assignment : Fin 12
  pending : Option (Fin 12)
  relay : Relay
  ramp : Option Nat
  timer : Nat
  fault : FaultState
  retryTimer : Nat
  trips : List Nat
  dcWindow : List Int
  dcSum : Int
  clips : Nat
  tripCount : Nat
  faultInput : Bool
deriving DecidableEq, Repr

/-- The thermal record (6.5). -/
structure Thermal where
  t1 : Option Int
  t2 : Option Int
  working : Option Int
  ceilingTarget : Nat
  ceiling : Nat
  trip : Bool
  updateCount : Nat
deriving DecidableEq, Repr

/-- The fan record (6.5). -/
structure Fan where
  requested : Nat
  duty : Nat
  pwm : Nat
  rising : Bool
  windowPos : Nat
  pulses : Nat
  lastPulses : Nat
  dutyHeld : Bool
  stallRun : Nat
  stall : Bool
deriving DecidableEq, Repr

/-- The supply record (6.5): `low` is the state LOW. -/
structure Supply where
  low : Bool
  goodRun : Nat
deriving DecidableEq, Repr

/-- The sense table and the protection records (6.5). `nextChannel` is the channel the rotation in progress converts
next (R118). -/
structure Protection where
  sense : Vector (Option (BitVec 12)) 14
  nextChannel : Option SenseChannel
  thermal : Thermal
  fan : Fan
  supply : Supply
deriving DecidableEq, Repr

/-! ### Radio Unit (chapter 7) -/

/-- The radio bands, coded 0 and 1 (7.1). -/
inductive Band where
  | fm
  | am
deriving DecidableEq, Repr

/-- A band and a frequency in kHz. -/
structure Freq where
  band : Band
  khz : Nat
deriving DecidableEq, Repr

/-- The band plan (7.1). -/
structure BandPlan where
  fmStep : Nat
  amStep : Nat
deriving DecidableEq, Repr

/-- A quality report (7.2). -/
structure Quality where
  level : Nat
  noise : Nat
  pilot : Bool
  freq : Freq
deriving DecidableEq, Repr

/-- The radio state (7.3). -/
inductive RadioState where
  | off
  | idle
  | tuning
  | seeking
  | scanning
  | followCheck
deriving DecidableEq, Repr

/-- The phase of an operation (7.2, R163). -/
inductive Phase where
  | status
  | blend
  | set
  | settle
  | measure
  | data
  | wait
deriving DecidableEq, Repr

/-- The kind of an operation with the fields that kind uses (7.2, R163). -/
inductive OpKind where
  | request (zone : ZoneId)
  | ret
  | start
  | recovery
  | seek (zone : ZoneId) (up : Bool) (start : Freq) (step tested : Nat)
  | scan (zone : ZoneId) (band : Band) (step : Nat)
  | follow (level : Nat) (candidates : List Nat) (position code polls : Nat)
deriving DecidableEq, Repr

/-- An operation in flight: its kind, its phase and its settle count (7.2), which counts the wait in WAIT and is 0 in every
phase but those two (notes/assumptions/79.md). -/
structure Operation where
  kind : OpKind
  phase : Phase
  count : Nat
deriving DecidableEq, Repr

/-- A message on the tuner link with its payload (7.9). -/
inductive LinkMessage where
  | setFreq (freq : Freq)
  | getQuality
  | getData
  | setBlend (forcedMono : Bool)
  | status
deriving DecidableEq, Repr

/-- What an exchange is for: a step that still belongs to the operation in flight, a step whose operation has ended
or moved on, a poll, a SET_BLEND sent because blend pending was set, or a STATUS probe (R150). -/
inductive ExchangeUse where
  | step
  | stale
  | poll
  | blend
  | probe
deriving DecidableEq, Repr

/-- The exchange in flight (7.2): its message, its attempt 1 or 2, what it is for, and the turnaround of the present
attempt (R147). -/
structure Exchange where
  message : LinkMessage
  attempt : Nat
  use : ExchangeUse
  turnaround : Nat
deriving DecidableEq, Repr

/-- The radio options (7.2). -/
structure RadioOptions where
  follow : Bool
  forcedMono : Bool
  fmLevel : Nat
  fmNoise : Nat
  amLevel : Nat
  turnaround : Nat
deriving DecidableEq, Repr

/-- An occupied preset (7.7). -/
structure Preset where
  freq : Freq
  name : Option (List Byte)
  code : Option (BitVec 16)
deriving DecidableEq, Repr

/-- A station list entry (R142). -/
structure StationEntry where
  freq : Freq
  level : Nat
  code : Option (BitVec 16)
  name : Option (List Byte)
deriving DecidableEq, Repr

/-- The radio record (7.2), with the radio mute that the unit writes for TUN (R132), the polls that have fallen due
and wait to be sent (R150), and the bytes last driven on the link (R147). -/
structure Radio where
  plan : BandPlan
  held : Freq
  frontEnd : Option Freq
  report : Option Quality
  state : RadioState
  op : Option Operation
  holder : Option ZoneId
  options : RadioOptions
  online : Bool
  exchange : Option Exchange
  blendPending : Bool
  dataCount : Nat
  qualityCount : Nat
  dataWaiting : Bool
  qualityWaiting : Bool
  probeCount : Nat
  failed : Nat
  offlines : Nat
  presets : Vector (Option Preset) 40
  stations : List StationEntry
  mute : Bool
  sent : List Byte
deriving DecidableEq, Repr

/-! ### Station Data Decoder (chapter 8) -/

/-- A name segment under assembly (8.1). -/
structure NameSegment where
  confirmed : Option (BitVec 16)
  candidate : Option (BitVec 16)
deriving DecidableEq, Repr

/-- The station clock (8.1). -/
structure StationClock where
  minutes : Nat
  weekday : Nat
deriving DecidableEq, Repr

/-- The station data record (8.1). -/
structure Station where
  freq : Option Freq
  code : Option (BitVec 16)
  candidate : Option (BitVec 16)
  segments : Vector NameSegment 6
  name : Option (List Byte)
  generation : Option Bool
  textSegments : Vector (Option (BitVec 16)) 24
  text : Option (List Byte)
  alternatives : List Nat
  clock : Option StationClock
  category : Option Nat
  weakRun : Option Nat
  backOff : Nat
  corrected : Nat
  rejected : Nat
  ignored : Nat
deriving DecidableEq, Repr

/-! ### Standby Control (chapter 11) -/

/-- The part power state, coded 0 to 3 (9.4). -/
inductive PowerState where
  | standby
  | waking
  | active
  | enteringStandby
deriving DecidableEq, Repr

/-- The power-on delay (11.1). -/
inductive PowerOnDelay where
  | notEnded
  | running (count : Nat)
  | ended
deriving DecidableEq, Repr

/-- What last reset the part (11.1). -/
inductive ResetCause where
  | powerOn
  | pin
  | request
deriving DecidableEq, Repr

/-- The standby record (11.1), with the port of the ENTER_STANDBY in progress, which STANDBY_ENTERED carries
(R190), and whether the reset pin is held asserted, which keeps the part in reset (R187). -/
structure Standby where
  power : PowerState
  wakingCount : Nat
  delay : PowerOnDelay
  wakeSense : BitVec 8
  reported : BitVec 8
  cause : ResetCause
  port : Option Port
  enteringPort : Option Port
  inReset : Bool
deriving DecidableEq, Repr

/-! ### Notices (chapter 10) -/

/-- The notice kinds (10.1). -/
inductive NoticeKind where
  | systemReady
  | standbyEntered
  | wakeCandidate
  | sourceState
  | sourceStatus
  | clockState
  | zoneState
  | zoneSource
  | zoneVolume
  | zoneMute
  | zoneNoSignal
  | lipsyncGranted
  | decodeActive
  | layoutEffective
  | layoutInvalid
  | laneState
  | laneFault
  | thermal
  | fanStall
  | supply
  | radioTuned
  | seekDone
  | scanDone
  | radioHolder
  | tunerLink
  | stationCode
  | stationName
  | stationText
  | stationClock
  | afSwitch
deriving DecidableEq, Repr

/-- A notice: its kind, its object and its 32-bit value (10.1). -/
structure Notice where
  kind : NoticeKind
  object : Nat
  value : BitVec 32
deriving DecidableEq, Repr

/-! ### Replies (chapters 1 to 9: the content of each reply) -/

/-- The reply statuses that a reply in the slot can have (9.4). -/
inductive Status where
  | ok
  | accepted
  | clamped
  | badRequest
  | badValue
  | refusedState
  | standby
  | tunerHeld
  | targetTaken
  | empty
  | noTuner
deriving DecidableEq, Repr

/-- The content of a GET_SOURCE reply (R22). -/
structure SourceView where
  packet : Bool
  state : SourceState
  channels : Channels
  groups : Option (Nat × Nat)
  masks : Option (BitVec 4 × BitVec 4)
  prefill : Nat
  fill : Nat
  corrections : Nat
  lastArrivals : Nat
  adopted : Option StatusRecord
  changePending : Bool
  radioMute : Option Bool
  counters : SourceCounters
deriving DecidableEq, Repr

/-- The content of a GET_CLOCK reply (R38). -/
structure ClockView where
  running : Bool
  mode : ClockMode
  state : ClockState
  reference : Option SourceId
  period : Nat
  difference : Int
  good : Nat
  holdover : Nat
  partialInterval : Bool
  lastAdjustment : Option Adjustment
deriving DecidableEq, Repr

/-- The content of a GET_ZONE reply (R62). -/
structure ZoneView where
  power : Bool
  state : ZoneState
  selected : SourceId
  current : Option SourceId
  volume : Nat
  maxVolume : Nat
  gain : Int
  mute : Bool
  lipRequested : Nat
  lipGranted : Nat
  lipEffect : Nat
  pending : Items
  noSignal : Nat
  noSignalReported : Bool
deriving DecidableEq, Repr

/-- How a zone reduces its source to two channels (R76). -/
inductive Form where
  | none
  | pass
  | fold
deriving DecidableEq, Repr

/-- What SET_DECODE_MODE replies (R81), and the first part of what GET_DECODE replies (R82). -/
structure DecodeView where
  requested : RequestedMode
  autoMatrix : Bool
  active : DecodePair
  derived : DecodePair
  itemPending : Bool
deriving DecidableEq, Repr

/-- The rest of what GET_DECODE replies (R82). -/
structure DecoderView where
  source : Option SourceId
  dLr : Int
  dCs : Int
  lastRaw : Option (Int × Int)
  steering : Steering
  backfillL : Bool
  backfillR : Bool
  formZ2 : Form
  formZ3 : Form
deriving DecidableEq, Repr

/-- The figures listed in R100: whether a LAYOUT item is pending, the valid flags of the derived layout and of the
layout in force, the distance claim, and the grants of the three zones in milliseconds. -/
structure LayoutFigures where
  itemPending : Bool
  derivedValid : Bool
  inForceValid : Bool
  distanceClaim : Nat
  grants : PerZone Nat
deriving DecidableEq, Repr

/-- The content of a GET_LAYOUT reply (R103). -/
structure LayoutView where
  entries : Vector PositionEntry 7
  sub : SubEntry
  trimZ2 : Int
  trimZ3 : Int
  crossover : Nat
  inForce : Layout
  derived : Layout
  itemPending : Bool
  clips : PerLine Nat
deriving DecidableEq, Repr

/-- What GET_DELAY replies for the claim of one zone (R104). -/
structure ZoneDelayView where
  claim : Nat
  grant : Nat
  requestedMs : Nat
  grantedMs : Nat
  effectMs : Nat
  holding : Nat
deriving DecidableEq, Repr

/-- The content of a GET_DELAY reply (R104). -/
structure DelayView where
  distClaim : Nat
  distGrant : Nat
  distHolding : Nat
  zones : PerZone ZoneDelayView
  totalGrants : Nat
  freeCells : Nat
  totalHoldings : Nat
deriving DecidableEq, Repr

/-- For each closing condition of R110, in its order, whether it holds. -/
structure ClosingConditions where
  assigned : Bool
  zoneOn : Bool
  positionPresent : Bool
  faultOk : Bool
  noThermalTrip : Bool
  supplyGood : Bool
  delayEnded : Bool
deriving DecidableEq, Repr

/-- The content of a GET_LANE reply (R126). -/
structure LaneView where
  assignment : Fin 12
  pending : Option (Fin 12)
  relay : Relay
  timer : Nat
  ramp : Option Nat
  fault : FaultState
  retryTimer : Nat
  trips : List Nat
  dcReadings : Nat
  dcSum : Int
  dcCode : Option (BitVec 12)
  clips : Nat
  tripCount : Nat
  conditions : ClosingConditions
deriving DecidableEq, Repr

/-- The content of a GET_THERMAL reply (R127). -/
structure ThermalView where
  code11 : Option (BitVec 12)
  code12 : Option (BitVec 12)
  code13 : Option (BitVec 12)
  t1 : Option Int
  t2 : Option Int
  working : Option Int
  ceilingTarget : Nat
  ceiling : Nat
  trip : Bool
  requested : Nat
  duty : Nat
  lastPulses : Nat
  stallRun : Nat
  stall : Bool
  supplyLow : Bool
  supplyGoodRun : Nat
deriving DecidableEq, Repr

/-- The content of a GET_RADIO reply (R152). `scanCount` is the count of R141 for a scan in flight. -/
structure RadioView where
  plan : BandPlan
  held : Freq
  frontEnd : Option Freq
  report : Option Quality
  state : RadioState
  op : Option Operation
  scanCount : Option Nat
  holder : Option ZoneId
  options : RadioOptions
  online : Bool
  exchangeInFlight : Bool
  blendPending : Bool
  failed : Nat
  offlines : Nat
  occupiedPresets : Nat
  stationCount : Nat
deriving DecidableEq, Repr

/-- The content of a GET_STATION_DATA reply (R167). -/
structure StationView where
  freq : Option Freq
  code : Option (BitVec 16)
  candidate : Option (BitVec 16)
  confirmed : Vector Bool 6
  name : Option (List Byte)
  generation : Option Bool
  textReceived : Nat
  text : Option (List Byte)
  alternatives : List Nat
  clock : Option StationClock
  category : Option Nat
  follow : Bool
  weakRun : Option Nat
  backOff : Nat
  followCheck : Option (Nat × Nat × Phase)
  corrected : Nat
  rejected : Nat
  ignored : Nat
deriving DecidableEq, Repr

/-- What the data words of a reply carry, as the rule that forms the reply states it. Chapters 9 and 12 lay out the
words of a BAD_REQUEST, of the refusals, of IDENTIFY, of a volume index and of a READ_NOTICES reply; for every other
reply the spec gives the content and no layout, so the content is held as such. -/
inductive ReplyData where
  | none
  | badRequest (kind : Nat) (reason : Nat)
  | wordRefused (word : Nat)
  | powerRefused (power : PowerState)
  | holder (holder : Option ZoneId)
  | identity (partCode revision : Nat) (port : Port) (power : PowerState) (fixedCounts : Vector Nat 7)
      (memoryHigh memoryLow run refused discarded : Nat)
  | resetCause (cause : ResetCause) (port : Option Port) (power : PowerState)
  | power (power : PowerState)
  | sourceSet (set : BitVec 8)
  | classSet (set : BitVec 8)
  | notices (count : Nat) (lost : Bool) (left : Nat) (returned : List Notice)
  | source (view : SourceView)
  | prefill (target : Nat)
  | clockMode (mode : ClockMode) (running : Bool) (state : ClockState) (reference : Option SourceId)
  | clock (view : ClockView)
  | zonePower (power : Bool) (state : ZoneState) (current : Option SourceId)
  | zoneSelect (selected : SourceId) (current : Option SourceId) (state : ZoneState)
  | volume (index : Nat)
  | maxVolume (maximum index : Nat)
  | mute (flag : Bool)
  | lipsync (requested granted : Nat) (grants : PerZone Nat)
  | zone (view : ZoneView)
  | decodeMode (view : DecodeView)
  | decode (mode : DecodeView) (view : DecoderView)
  | speaker (entry : PositionEntry) (figures : LayoutFigures)
  | zoneTrim (trim : Int) (figures : LayoutFigures)
  | sub (entry : SubEntry) (flSmall frSmall : Bool) (figures : LayoutFigures)
  | crossover (setting coefficient : Nat) (figures : LayoutFigures)
  | layout (view : LayoutView)
  | delay (view : DelayView)
  | laneAssigned (assignment : Fin 12) (pending : Option (Fin 12)) (relay : Relay)
  | lane (view : LaneView)
  | laneFault (fault : FaultState) (relay : Relay) (clips tripCount : Nat)
  | thermal (view : ThermalView)
  | bandPlan (plan : BandPlan) (presetsEmptied entriesRemoved : Nat) (held : Freq)
  | tuned (held : Freq) (state : RadioState)
  | seek (start : Freq) (up : Bool)
  | scan (band : Band) (removed : Nat)
  | radioState (state : RadioState)
  | preset (content : Option Preset)
  | stationList (count : Nat) (entries : List StationEntry)
  | radio (view : RadioView)
  | radioOptions (options : RadioOptions)
  | stationData (view : StationView)
deriving DecidableEq, Repr

/-- A reply as it stands in a port's reply slot (9.1): its status, its UNREAD_DISCARDED flag, its content and its
data words, which R173 shifts out. -/
structure Reply where
  status : Status
  unreadDiscarded : Bool
  data : ReplyData
  words : List Word
deriving DecidableEq, Repr

/-! ### Control Ports and Notice Queues (chapters 9 and 10) -/

/-- The receive condition of a port (9.1). -/
inductive Receive where
  | idle
  | receiving
  | ignoring
deriving DecidableEq, Repr

/-- A port record (9.1) with the port's notice queue, oldest first, and its LOST flag (10.2). A subscription set
holds bit k for the class whose code is k. -/
structure PortRecord where
  receive : Receive
  wordsReceived : Nat
  frame : List Word
  slot : Option Reply
  outFrame : Option Reply
  outSent : Nat
  noticesAtAssertion : Bool
  subscriptions : BitVec 8
  run : Nat
  refused : Nat
  discarded : Nat
  queue : List Notice
  lost : Bool
deriving DecidableEq, Repr

/-! ### Events found and not yet taken -/

/-- An event that a sample period, a block start, an interval end or the fan drive has produced and that is taken as
a step of its own (the table's event rows). -/
inductive Due where
  | blockStart
  | sourceAbsent (source : SourceId)
  | slipRestart (source : SourceId)
  | faultLayout
  | fadeOutEnd (zone : ZoneId)
  | fadeInEnd (zone : ZoneId)
  | noSignal (zone : ZoneId)
  | intervalEnd
  | holdoverExpiry
  | relayClosed (lane : LaneId)
  | rampEnd (lane : LaneId)
  | relayOpened (lane : LaneId)
  | retryEnd (lane : LaneId)
  | tripExpiry (lane : LaneId)
  | temperature
  | fanDuty
  | fanWindow
  | active
  | powerOnDelayEnd
  | settleEnd
  | followSettleEnd
  | followWaitEnd
  | dataPoll
  | qualityPoll
  | linkProbe
  | followTrigger
deriving DecidableEq, Repr

/-! ### The whole -/

/-- The blocks behind Source Intake. `outbox` holds the notices posted in the step in progress, in the order they
were posted, until the step delivers them; `due` holds the events produced and not yet taken, in the order they were
found. -/
structure Hub where
  clock : Clock
  zones : PerZone Zone
  decoder : Decoder
  renderer : Renderer
  lanes : Vector Lane 11
  protection : Protection
  radio : Radio
  station : Station
  standby : Standby
  due : List Due
  outbox : List Notice
deriving DecidableEq, Repr

/-- The machine: Source Intake's eight records, the other blocks, the three ports with their notice queues, the
model's count of the replies whose length is a free value, and the queue of waiting commands, first in, first out. -/
structure State where
  sources : Vector Source 8
  hub : Hub
  ports : PerPort PortRecord
  freeIndex : Nat
  pending : List Instr
deriving DecidableEq, Repr

/-- Why a run stops with a fault: nothing in this part does. The spec gives every command an effect in every state,
so no meaning raises a fault and the type has no constructor (safe). -/
inductive Fault where
deriving DecidableEq, Repr

/-- Why a command is refused. -/
inductive Refusal where
  /-- Raised by exec's arm of a row whose meaning is not written yet; no arm does so now. Safe: the run stops. -/
  | notModelled (mnemonic : String)
deriving DecidableEq, Repr

/-! ### Reset (R1, R27, R39, R67, R83, R106, R117, R131, R154, R168, R181, R187) -/

/-- R1: a source record after reset; `serial` sources hold the channel set FL and FR. -/
def Source.reset (serial : Bool) : Source where
  state := .absent
  groupA := 1
  groupB := 2
  maskA := 0
  maskB := 0
  channels := if serial then 3 else 0
  prefill := 32
  buffer := []
  corrections := 0
  absence := 0
  arrival := false
  entryInterval := false
  arrivals := 0
  lastArrivals := 0
  badRun := 0
  goodRun := 0
  lastSeq := none
  pendingFrame := none
  lastWritten := none
  lastRead := none
  repeatHead := false
  assembly := .waiting
  prevBlock := none
  adopted := none
  change := none
  counters := .zero

/-- R27: the clock record after reset. -/
def Clock.reset : Clock where
  running := false
  mode := .auto
  state := .free
  period := Config.nominalPeriod
  reference := none
  phase := 0
  blockPos := 0
  intervalPos := 0
  partialInterval := false
  good := 0
  holdover := 0
  lastAdjustment := none

/-- R39: a zone record after reset. -/
def Zone.reset (maxVolume : Nat) : Zone where
  power := false
  selected := 2
  current := none
  state := .off
  volume := 120
  maxVolume := maxVolume
  gain := -1
  mute := false
  fast := false
  lipRequested := 0
  lipGranted := 0
  lipEffect := 0
  pending := .none
  noSignal := 0
  noSignalReported := false
  line := []

/-- R67: the decoder record after reset. -/
def Decoder.reset : Decoder where
  requested := .auto
  autoMatrix := false
  active := ⟨.direct, .auto⟩
  derived := ⟨.direct, .auto⟩
  itemPending := false
  source := none
  dLr := 0
  dCs := 0
  sums := .zero
  lastRaw := none
  steering := .zero
  backfillL := false
  backfillR := false
  newMode := false

/-- R83: the layout record that the reset values of the layout table and of the lane table give. -/
def Layout.reset : Layout where
  present := 0b0011111
  sub := true
  bass := 0b0011100
  crossover := some 1
  delays := Vector.replicate 7 0
  subDelay := 0
  valid := true

/-- R83: a position entry after reset. -/
def PositionEntry.reset (present small : Bool) : PositionEntry := ⟨present, small, 300, 0⟩

/-- R83: the renderer record after reset. What governs the output block (the targets, the effective indices) and the
samples on the outputs have no value of the spec's at reset, where no block is in progress: each lane's target is its
reset assignment, every index is −1 and every sample 0 (notes/assumptions/4.md, DESIGN CHOICE). -/
def Renderer.reset : Renderer where
  entries := #v[.reset true false, .reset true false, .reset true true, .reset true true, .reset true true,
    .reset false true, .reset false true]
  sub := ⟨true, 300, 0⟩
  trimZ2 := 0
  trimZ3 := 0
  crossover := 1
  inForce := .reset
  derived := .reset
  itemPending := false
  faultAdoption := false
  governing := .reset
  filters := Vector.replicate 7 0
  lines := Vector.replicate 7 []
  subLine := []
  clips := ⟨0, 0, 0, 0, 0⟩
  laneDrives := #v[⟨1, -1⟩, ⟨2, -1⟩, ⟨3, -1⟩, ⟨4, -1⟩, ⟨5, -1⟩, ⟨6, -1⟩, ⟨7, -1⟩, ⟨8, -1⟩, ⟨9, -1⟩, ⟨0, -1⟩, ⟨0, -1⟩]
  lineIndex := ⟨-1, -1, -1, -1, -1⟩
  laneOut := Vector.replicate 11 0
  lineOut := ⟨0, 0, 0, 0, 0⟩

/-- R106: a lane record after reset. -/
def Lane.reset (assignment : Fin 12) : Lane where
  assignment := assignment
  pending := none
  relay := .open
  ramp := none
  timer := 0
  fault := .ok
  retryTimer := 0
  trips := []
  dcWindow := []
  dcSum := 0
  clips := 0
  tripCount := 0
  faultInput := false

/-- R106: the lane table after reset. -/
def lanesReset : Vector Lane 11 :=
  #v[.reset 1, .reset 2, .reset 3, .reset 4, .reset 5, .reset 6, .reset 7, .reset 8, .reset 9, .reset 0, .reset 0]

/-- R117: the protection records after reset. -/
def Protection.reset : Protection where
  sense := Vector.replicate 14 none
  nextChannel := none
  thermal := ⟨none, none, none, 184, 184, false, 0⟩
  fan := ⟨0, 0, 0, true, 0, 0, 0, true, 0, false⟩
  supply := ⟨false, 0⟩

/-- R131: the radio record after reset. -/
def Radio.reset : Radio where
  plan := ⟨100, 9⟩
  held := ⟨.fm, 87500⟩
  frontEnd := none
  report := none
  state := .off
  op := none
  holder := none
  options := ⟨true, false, 30, 40, 40, 2⟩
  online := true
  exchange := none
  blendPending := false
  dataCount := 0
  qualityCount := 0
  dataWaiting := false
  qualityWaiting := false
  probeCount := 0
  failed := 0
  offlines := 0
  presets := Vector.replicate 40 none
  stations := []
  mute := false
  sent := []

/-- R154: the station data record after reset. -/
def Station.reset : Station where
  freq := none
  code := none
  candidate := none
  segments := Vector.replicate 6 ⟨none, none⟩
  name := none
  generation := none
  textSegments := Vector.replicate 24 none
  text := none
  alternatives := []
  clock := none
  category := none
  weakRun := none
  backOff := 0
  corrected := 0
  rejected := 0
  ignored := 0

/-- R187: the standby record after a reset of the given cause and requesting port, the reset pin being released
(notes/assumptions/58.md). -/
def Standby.reset (cause : ResetCause) (port : Option Port) : Standby where
  power := .standby
  wakingCount := 0
  delay := .notEnded
  wakeSense := 0
  reported := 0
  cause := cause
  port := port
  enteringPort := none
  inReset := false

/-- R168, R181: a port record with its notice queue after reset. -/
def PortRecord.reset : PortRecord where
  receive := .idle
  wordsReceived := 0
  frame := []
  slot := none
  outFrame := none
  outSent := 0
  noticesAtAssertion := false
  subscriptions := 1
  run := 0
  refused := 0
  discarded := 0
  queue := []
  lost := false

/-- The blocks behind Source Intake after a reset of the given cause and requesting port. -/
def Hub.reset (cause : ResetCause) (port : Option Port) : Hub where
  clock := .reset
  zones := ⟨.reset 184, .reset 160, .reset 160⟩
  decoder := .reset
  renderer := .reset
  lanes := lanesReset
  protection := .reset
  radio := .reset
  station := .reset
  standby := .reset cause port
  due := []
  outbox := []

/-- The eight source records after reset (R1). -/
def sourcesReset : Vector Source 8 :=
  #v[.reset false, .reset false, .reset true, .reset true, .reset true, .reset true, .reset true, .reset true]

/-- The machine right after a power-on reset, every field at the value its rule states. The STANDBY_ENTERED that
R187 posts once the reset is done is the POWER_ON_RESET command's own (notes/assumptions/5.md). -/
def State.reset : State where
  sources := sourcesReset
  hub := .reset .powerOn none
  ports := ⟨.reset, .reset, .reset⟩
  freeIndex := 0
  pending := []

end Sys2Proof.Machine
end

