-- ==== Sys2Proof/Machine/Arith.lean ====
section
/-! DEFINITION. The part's arithmetic (4.1): saturation, the rounded product, the application of a gain, the table of
gains; and the word check code (12.1). Integer division `/` by a positive number rounds towards minus infinity;
`Int.tdiv` truncates towards zero. -/

namespace Sys2Proof.Machine

/-- To saturate a value is to replace it with the nearer end of the sample range if it lies outside the range
(00_scope.md, Samples and frames). -/
def saturate (x : Int) : Sample := max (-8388608) (min 8388607 x)

/-- R64: the rounded product of a sample and a coefficient. -/
def roundedProduct (x c : Int) : Int := (x * c + 16384) / 32768

/-- R65: a gain applied to a sample. -/
def applyGain (x g : Int) : Int := (x * g + 32768) / 65536

/-- R66: the gains of the volume indices 0 to 184. -/
def gainTable : List Nat :=
  [7, 7, 7, 8, 8, 9, 9, 10, 10, 11, 12, 12, 13, 14, 15, 16, 16, 17, 18, 20] ++
  [21, 22, 23, 25, 26, 28, 29, 31, 33, 35, 37, 39, 41, 44, 46, 49, 52, 55, 58, 62] ++
  [66, 69, 74, 78, 83, 87, 93, 98, 104, 110, 117, 123, 131, 139, 147, 155, 165, 174, 185, 196] ++
  [207, 220, 233, 246, 261, 276, 293, 310, 328, 348, 369, 390, 414, 438, 464, 491, 521, 551, 584, 619] ++
  [655, 694, 735, 779, 825, 874, 926, 981, 1039, 1100, 1165, 1234, 1308, 1385, 1467, 1554, 1646, 1744, 1847, 1957] ++
  [2072, 2195, 2325, 2463, 2609, 2764, 2927, 3101, 3285, 3479, 3685, 3904, 4135, 4380, 4640, 4915, 5206, 5514, 5841, 6187] ++
  [6554, 6942, 7353, 7789, 8250, 8739, 9257, 9806, 10387, 11002, 11654, 12345, 13076, 13851, 14672, 15541, 16462, 17437, 18471, 19565] ++
  [20724, 21952, 23253, 24631, 26090, 27636, 29274, 31008, 32846, 34792, 36854, 39037, 41350, 43801, 46396, 49145, 52057, 55142, 58409, 61870] ++
  [65536, 69419, 73533, 77890, 82505, 87394, 92572, 98057, 103868, 110022, 116541, 123447, 130762, 138510, 146717, 155410, 164619, 174373, 184706, 195650] ++
  [207243, 219523, 232531, 246309, 260904]

/-- R66: the gain that belongs to a volume index; the index −1 (any negative number) is silence. -/
def gainOf (index : Int) : Int := if index < 0 then 0 else (gainTable.getD index.toNat 0 : Nat)

/-- A counter advanced by one; every counter stops at its largest value (00_scope.md, Counters). -/
def bump (n : Nat) : Nat := min (n + 1) Config.counterMax

/-- A counter advanced by a number. -/
def bumpBy (n k : Nat) : Nat := min (n + k) Config.counterMax

/-- 12.1: the code s(i) of data bit i, the numbers 1 to 31 that are not powers of two in ascending order. -/
def bitCodes : List Nat :=
  [3, 5, 6, 7, 9, 10, 11, 12, 13, 14, 15, 17, 18] ++ [19, 20, 21, 22, 23, 24, 25, 26, 27, 28, 29, 30, 31]

/-- R192: the check bits of 26 data bits: the XOR of the codes of the data bits that are set. -/
def checkBits (data : BitVec 26) : Nat :=
  ((List.range 26).map fun i => if data.getLsbD i then bitCodes.getD i 0 else 0).foldl (· ^^^ ·) 0

/-- The XOR of all bits of a number's low 32 bits. -/
def parity32 (w : CodeWord) : Bool := ((List.range 32).map w.getLsbD).foldl xor false

/-- R192: a checked word from its 26 data bits. -/
def encodeWord (data : BitVec 26) : CodeWord :=
  let low := BitVec.ofNat 32 (data.toNat + checkBits data * 2 ^ 26)
  if parity32 low then low ||| BitVec.ofNat 32 (2 ^ 31) else low

/-- The outcome of checking a received word (R193). -/
inductive WordCheck where
  | clean (data : BitVec 26)
  | corrected (data : BitVec 26)
  | uncorrectable
deriving DecidableEq, Repr

/-- R193: a received word checked by the word check code. -/
def checkWord (w : CodeWord) : WordCheck :=
  let data : BitVec 26 := w.setWidth 26
  let syndrome := checkBits data ^^^ ((w.toNat / 2 ^ 26) % 32)
  match parity32 w, decide (syndrome = 0) with
  | false, true => .clean data
  | false, false => .uncorrectable
  | true, _ =>
    match bitCodes.findIdx? (· == syndrome) with
    | some i => .corrected (data ^^^ BitVec.ofNat 26 (2 ^ i))
    | none => .corrected data

end Sys2Proof.Machine
end

