-- ==== Sys2Proof/Machine/Flags.lean ====
section
/-! DEFINITION. What the spec names as a field or a line and fixes as a function of others: kinds, fill levels,
classes and forms, the allocator's figures, closing conditions, the lines the part drives. Each is computed here, in
one place, from what State stores. -/

namespace Sys2Proof.Machine

/-! ### Sources -/

/-- 1.1: PA0 and PA1 are PACKET sources, the others SERIAL. -/
def isPacket (i : SourceId) : Bool := decide (i.val < 2)

/-- The fill level: the number of frames held in the intake buffer. -/
def Source.fill (x : Source) : Nat := x.buffer.length

/-- Whether a source record's state is RUNNING. -/
def Source.isRunning (x : Source) : Bool := decide (x.state = .running)

/-- The channel set as the union of the held active masks of the two groups: group A's slots are FL, FR, C and LFE,
group B's SL, SR, BL and BR (1.1, R6). -/
def unionOf (maskA maskB : BitVec 4) : Channels := maskB ++ maskA

/-- R68: a channel set that contains any of C, LFE, SL, SR, BL or BR is multichannel. -/
def multichannel (set : Channels) : Bool := decide (set &&& 0xFC ≠ 0)

/-- Whether a status record is absent or audio at 48 kHz, rate code 0x02 (R4, R16, 12.4). -/
def playable : Option StatusRecord → Bool
  | none => true
  | some r => !r.nonAudio && decide (r.rate = 2)

/-- The state a source takes by its adopted record where it may play or not (R4, R19). -/
def recordState : Option StatusRecord → SourceState
  | none => .prefill
  | some r => if r.nonAudio then .unusable .nonAudio else if r.rate = 2 then .prefill else .unusable .rate

/-! ### Zones -/

/-- The zone record of a zone. -/
def Hub.zone (h : Hub) (z : ZoneId) : Zone := h.zones.get z

/-- R40: the channels of a zone's lip-sync line, eight for MAIN and two for Z2 and Z3. -/
def zoneChannels : ZoneId → Nat
  | .main => 8
  | .z2 => 2
  | .z3 => 2

/-- R43: a gain ramp's target, −1 while muted and the volume index otherwise. -/
def Zone.target (x : Zone) : Int := if x.mute then -1 else x.volume

/-- R76: the form in which a zone reduces its source to two channels. -/
def formOf (src : Vector Source 8) (x : Zone) : Form :=
  match x.current with
  | none => .none
  | some i => if multichannel src[i].channels then .fold else .pass

/-- Whether every zone is OFF (R190). -/
def Hub.allZonesOff (h : Hub) : Bool :=
  decide (h.zones.main.state = .off) && decide (h.zones.z2.state = .off) && decide (h.zones.z3.state = .off)

/-! ### The delay allocator (5.5) -/

/-- R85: the sum of the delays of a layout record, in cells. -/
def Layout.cells (l : Layout) : Nat := l.delays.toList.sum + l.subDelay

/-- The distance claim: the sum of the delays of the derived effective layout. -/
def Hub.distanceClaim (h : Hub) : Nat := h.renderer.derived.cells

/-- The distance holding: the sum of the delays of the layout in force. -/
def Hub.distanceHolding (h : Hub) : Nat := h.renderer.inForce.cells

/-- R96: DIST is granted the larger of its claim and its holding. -/
def Hub.distanceGrant (h : Hub) : Nat := max h.distanceClaim h.distanceHolding

/-- The cells that one millisecond of a zone's delay takes. -/
def msCells (z : ZoneId) : Nat := zoneChannels z * 48

/-- 5.5: a zone's claim in cells, 0 while its power setting is OFF. -/
def Hub.zoneClaim (h : Hub) (z : ZoneId) : Nat :=
  if (h.zone z).power then msCells z * (h.zone z).lipRequested else 0

/-- A zone's grant in cells. -/
def Hub.zoneGrant (h : Hub) (z : ZoneId) : Nat := msCells z * (h.zone z).lipGranted

/-- A zone's holding: its channels × 48 × its lip-sync in effect. -/
def Hub.zoneHolding (h : Hub) (z : ZoneId) : Nat := msCells z * (h.zone z).lipEffect

/-- The total of the grants (R104). -/
def Hub.totalGrants (h : Hub) : Nat :=
  h.distanceGrant + h.zoneGrant .main + h.zoneGrant .z2 + h.zoneGrant .z3

/-- The total of the holdings (R104). -/
def Hub.totalHoldings (h : Hub) : Nat :=
  h.distanceHolding + h.zoneHolding .main + h.zoneHolding .z2 + h.zoneHolding .z3

/-- R96: the milliseconds granted to a zone out of the free cells. -/
def grantMs (x : Zone) (z : ZoneId) (free : Nat) : Nat :=
  if x.power then min x.lipRequested (free / msCells z) else 0

/-- R96: the grants of the three zones in milliseconds, recomputed in the order DIST, MAIN, Z2, Z3. -/
def Hub.newGrants (h : Hub) : PerZone Nat :=
  let free0 := Config.delayCells - h.distanceGrant
  let main := grantMs h.zones.main .main free0
  let free1 := free0 - msCells .main * main
  let z2 := grantMs h.zones.z2 .z2 free1
  let free2 := free1 - msCells .z2 * z2
  ⟨main, z2, grantMs h.zones.z3 .z3 free2⟩

/-! ### Lanes -/

/-- The target codes of the MAIN positions are the position codes plus one (6.1). -/
def positionOf (t : Fin 12) : Option Position :=
  if h : 1 ≤ t.val ∧ t.val ≤ 7 then some ⟨t.val - 1, by omega⟩ else none

/-- The zone of a target (6.1). -/
def targetZone (t : Fin 12) : Option ZoneId :=
  if t.val = 0 then none else if t.val ≤ 7 then some .main else if t.val ≤ 9 then some .z2 else some .z3

/-- How many lanes a target can hold; code 0 holds any number (6.1). -/
def targetCapacity (t : Fin 12) : Nat := if t.val = 0 then 11 else if t.val ≤ 2 then 2 else 1

/-- R107: the occupancy of a target for a request that names lane `l`. -/
def occupancy (lanes : Vector Lane 11) (l : LaneId) (t : Fin 12) : Nat :=
  ((List.finRange 11).map fun k =>
    if k = l then 0
    else (if lanes[k].assignment = t then 1 else 0) + (if lanes[k].pending = some t then 1 else 0)).sum

/-- R110: the closing conditions of a lane. With assignment code 0, which has no zone, the condition on the zone's power
is shown as not holding (notes/assumptions/46.md). -/
def Hub.closing (h : Hub) (l : LaneId) : ClosingConditions where
  assigned := decide (h.lanes[l].assignment ≠ 0)
  zoneOn :=
    match targetZone h.lanes[l].assignment with
    | none => false
    | some z => (h.zone z).power
  positionPresent :=
    match positionOf h.lanes[l].assignment with
    | none => true
    | some p => h.renderer.entries[p].present
  faultOk := decide (h.lanes[l].fault = .ok)
  noThermalTrip := !h.protection.thermal.trip
  supplyGood := !h.protection.supply.low
  delayEnded := decide (h.standby.delay = .ended)

/-- Whether every closing condition holds. -/
def ClosingConditions.all (c : ClosingConditions) : Bool :=
  c.assigned && c.zoneOn && c.positionPresent && c.faultOk && c.noThermalTrip && c.supplyGood && c.delayEnded

/-- Whether every relay is OPEN (R190). -/
def Hub.allRelaysOpen (h : Hub) : Bool := h.lanes.toList.all fun x => decide (x.relay = .open)

/-- R110: the relay drive is energised while the relay state is CLOSING or CLOSED. -/
def Lane.relayDrive (x : Lane) : Bool := decide (x.relay = .closing) || decide (x.relay = .closed)

/-- R123: the fan output is driven while the PWM counter is below the duty in force. -/
def Fan.driven (f : Fan) : Bool := decide (f.pwm < f.duty)

/-! ### Ports -/

/-- R183: a port's attention line is asserted while its queue holds one or more entries. -/
def PortRecord.attention (p : PortRecord) : Bool := !p.queue.isEmpty

/-- The code of a reply status (9.4). -/
def Status.code : Status → Nat
  | .ok => 0x01
  | .accepted => 0x02
  | .clamped => 0x03
  | .badRequest => 0x10
  | .badValue => 0x11
  | .refusedState => 0x12
  | .standby => 0x13
  | .tunerHeld => 0x14
  | .targetTaken => 0x15
  | .empty => 0x16
  | .noTuner => 0x17

/-- The code of a power state (9.4). -/
def PowerState.code : PowerState → Nat
  | .standby => 0
  | .waking => 1
  | .active => 2
  | .enteringStandby => 3

/-- R173, 12.2: word 0 of what a port shifts out: the status, UNREAD_DISCARDED, NOTICES_PENDING and the number of
data words; with an empty slot at assertion the status NONE and a count of 0. -/
def PortRecord.outWord0 (p : PortRecord) : Word :=
  let pending := if p.noticesAtAssertion then 64 else 0
  match p.outFrame with
  | none => BitVec.ofNat 16 pending
  | some r =>
    BitVec.ofNat 16 (r.status.code * 256 + (if r.unreadDiscarded then 128 else 0) + pending + r.words.length % 64)

/-- R173: the words a port shifts out in a select period, by their number: word 0, the data words of the out frame, and
zero after the last of them. -/
def PortRecord.outWord (p : PortRecord) : Nat → Word
  | 0 => p.outWord0
  | k + 1 =>
    match p.outFrame with
    | none => 0
    | some r => r.words.getD k 0

end Sys2Proof.Machine
end

