-- ==== Sys2Proof/Machine/Notices.lean ====
section
/-! DEFINITION. Notices: the kinds with their codes and classes (10.1), the layout of each value (R195), posting, and
the delivery of a step's notices to the ports' queues (R180, R182). -/

namespace Sys2Proof.Machine

/-- The kind code of a notice kind (10.1). -/
def NoticeKind.code : NoticeKind → Nat
  | .systemReady => 0x01
  | .standbyEntered => 0x02
  | .wakeCandidate => 0x03
  | .sourceState => 0x10
  | .sourceStatus => 0x11
  | .clockState => 0x18
  | .zoneState => 0x20
  | .zoneSource => 0x21
  | .zoneVolume => 0x22
  | .zoneMute => 0x23
  | .zoneNoSignal => 0x24
  | .lipsyncGranted => 0x25
  | .decodeActive => 0x30
  | .layoutEffective => 0x31
  | .layoutInvalid => 0x32
  | .laneState => 0x40
  | .laneFault => 0x41
  | .thermal => 0x42
  | .fanStall => 0x43
  | .supply => 0x44
  | .radioTuned => 0x50
  | .seekDone => 0x51
  | .scanDone => 0x52
  | .radioHolder => 0x53
  | .tunerLink => 0x54
  | .stationCode => 0x60
  | .stationName => 0x61
  | .stationText => 0x62
  | .stationClock => 0x63
  | .afSwitch => 0x64

/-- The class code of a notice kind: SYSTEM, SOURCE, CLOCK, ZONE, AUDIO, AMP, RADIO and STATION are 0 to 7 (10.1). -/
def NoticeKind.classCode : NoticeKind → Nat
  | .systemReady | .standbyEntered | .wakeCandidate => 0
  | .sourceState | .sourceStatus => 1
  | .clockState => 2
  | .zoneState | .zoneSource | .zoneVolume | .zoneMute | .zoneNoSignal | .lipsyncGranted => 3
  | .decodeActive | .layoutEffective | .layoutInvalid => 4
  | .laneState | .laneFault | .thermal | .fanStall | .supply => 5
  | .radioTuned | .seekDone | .scanDone | .radioHolder | .tunerLink => 6
  | .stationCode | .stationName | .stationText | .stationClock | .afSwitch => 7

/-! ### Values (R195) -/

/-- A 32-bit value from its fields, each with the number of its lowest bit. -/
def packFields (fields : List (Nat × Nat)) : BitVec 32 :=
  BitVec.ofNat 32 ((fields.map fun f => f.1 * 2 ^ f.2).sum)

/-- A source id field holds 15 where it names no source. -/
def sourceField : Option SourceId → Nat
  | none => 15
  | some i => i.val

/-- A frequency field is 15 bits: the band, then the frequency, FM in units of 10 kHz and AM in kHz; all ones where
the frequency is absent. -/
def freqField : Option Freq → Nat
  | none => 32767
  | some ⟨.fm, khz⟩ => khz / 10
  | some ⟨.am, khz⟩ => 16384 + khz

/-- Port codes, 3 for none (11.1). -/
def portField : Option Port → Nat
  | none => 3
  | some p => p.code

/-- Zone codes, 3 for no holder (9.4). -/
def holderField : Option ZoneId → Nat
  | none => 3
  | some z => z.code

/-- Reset causes: 0 POWER_ON, 1 PIN, 2 REQUEST (11.1). -/
def ResetCause.code : ResetCause → Nat
  | .powerOn => 0
  | .pin => 1
  | .request => 2

/-- Word-length codes: 1 is 16, 2 is 20, 3 is 24 (12.4). -/
def WordLength.code : WordLength → Nat
  | .w16 => 1
  | .w20 => 2
  | .w24 => 3

/-- The state and the unusable reason of a source as SOURCE_STATE codes them. -/
def SourceState.codes : SourceState → Nat × Nat
  | .absent => (0, 0)
  | .prefill => (1, 0)
  | .running => (2, 0)
  | .unusable .nonAudio => (3, 1)
  | .unusable .rate => (3, 2)

/-- The state and the fade-out purpose of a zone as ZONE_STATE codes them. -/
def ZoneState.codes : ZoneState → Nat × Nat
  | .off => (0, 0)
  | .fadingOut .switch => (1, 1)
  | .fadingOut .powerOff => (1, 2)
  | .fadingOut .reconfigure => (1, 3)
  | .waiting => (2, 0)
  | .fadingIn => (3, 0)
  | .playing => (4, 0)

/-- Clock states as CLOCK_STATE codes them. -/
def ClockState.code : ClockState → Nat
  | .free => 0
  | .acquiring => 1
  | .locked => 2
  | .holdover => 3

/-- Requested modes as R81 codes them. -/
def RequestedMode.code : RequestedMode → Nat
  | .auto => 0
  | .direct => 1
  | .matrix => 2
  | .fold2 => 3

/-- Active modes as R81 codes them. -/
def ActiveMode.code : ActiveMode → Nat
  | .direct => 1
  | .matrix => 2
  | .fold2 => 3

/-- Decode reasons as DECODE_ACTIVE codes them. -/
def DecodeReason.code : DecodeReason → Nat
  | .asRequested => 0
  | .auto => 1
  | .matrixNeedsStereo => 2
  | .fold2NeedsMultichannel => 3

/-- Relay states as LANE_STATE codes them. -/
def Relay.code : Relay → Nat
  | .open => 0
  | .closing => 1
  | .closed => 2
  | .opening => 3

/-- Fault states as LANE_STATE codes them. -/
def FaultState.code : FaultState → Nat
  | .ok => 0
  | .retry => 1
  | .latchedOc => 2
  | .latchedDc => 3

/-- The outcomes of a search as SEEK_DONE and SCAN_DONE code them. -/
inductive SearchOutcome where
  | found
  | notFound
  | cancelled
  | noTuner
  | complete
deriving DecidableEq, Repr

/-- The code of a search outcome. -/
def SearchOutcome.code : SearchOutcome → Nat
  | .found => 0
  | .notFound => 1
  | .cancelled => 2
  | .noTuner => 3
  | .complete => 4

/-- The SOURCE_STATE notice of a source (R3). -/
def sourceStateNotice (i : SourceId) (x : Source) : Notice :=
  ⟨.sourceState, i.val, packFields [(x.state.codes.1, 0), (x.state.codes.2, 2), (x.channels.toNat, 8)]⟩

/-- The SOURCE_STATUS notice of an adopted record (R18). -/
def sourceStatusNotice (i : SourceId) (r : StatusRecord) : Notice :=
  ⟨.sourceStatus, i.val, packFields [(r.rate.toNat, 0), (r.length.code, 8), (r.nonAudio.toNat, 10)]⟩

/-- The WAKE_CANDIDATE notice of a confirmed block (R191). -/
def wakeCandidateNotice (i : SourceId) (r : StatusRecord) : Notice :=
  ⟨.wakeCandidate, i.val, packFields [(r.rate.toNat, 0), (r.length.code, 8)]⟩

/-- The CLOCK_STATE notice of the clock record (R36). -/
def clockStateNotice (c : Clock) : Notice :=
  ⟨.clockState, 0, packFields [(c.running.toNat, 0), ((decide (c.mode = .forcedFree)).toNat, 1), (c.state.code, 2),
    (sourceField c.reference, 4)]⟩

/-- The ZONE_STATE notice of a zone (R41). -/
def zoneStateNotice (z : ZoneId) (x : Zone) : Notice :=
  ⟨.zoneState, z.code, packFields [(x.state.codes.1, 0), (x.state.codes.2, 3), (x.power.toNat, 5), (x.selected.val, 8),
    (sourceField x.current, 12)]⟩

/-- The ZONE_SOURCE notice of a zone (R41). -/
def zoneSourceNotice (z : ZoneId) (current : Option SourceId) : Notice :=
  ⟨.zoneSource, z.code, packFields [(sourceField current, 0)]⟩

/-- The ZONE_NO_SIGNAL notice of a zone (R57). -/
def zoneNoSignalNotice (z : ZoneId) (current : Option SourceId) : Notice :=
  ⟨.zoneNoSignal, z.code, packFields [(sourceField current, 0)]⟩

/-- The ZONE_VOLUME notice of a zone (R58). -/
def zoneVolumeNotice (z : ZoneId) (x : Zone) : Notice :=
  ⟨.zoneVolume, z.code, packFields [(x.volume, 0), (x.maxVolume, 8)]⟩

/-- The ZONE_MUTE notice of a zone (R61). -/
def zoneMuteNotice (z : ZoneId) (flag : Bool) : Notice := ⟨.zoneMute, z.code, packFields [(flag.toNat, 0)]⟩

/-- The LIPSYNC_GRANTED notice of a zone (R52). -/
def lipsyncNotice (z : ZoneId) (x : Zone) : Notice :=
  ⟨.lipsyncGranted, z.code, packFields [(x.lipRequested, 0), (x.lipGranted, 16)]⟩

/-- The DECODE_ACTIVE notice of the decoder record (R71). -/
def decodeActiveNotice (d : Decoder) : Notice :=
  ⟨.decodeActive, 0, packFields [(d.requested.code, 0), (d.autoMatrix.toNat, 2), (d.active.mode.code, 4),
    (d.active.reason.code, 8), (d.itemPending.toNat, 12)]⟩

/-- The LAYOUT_EFFECTIVE notice of the renderer record: the layout in force and whether an item is pending (R86). -/
def layoutEffectiveNotice (r : Renderer) : Notice :=
  ⟨.layoutEffective, 0, packFields [(r.inForce.present.toNat, 0), (r.inForce.sub.toNat, 7), (r.inForce.bass.toNat, 8),
    (r.inForce.valid.toNat, 15), (r.itemPending.toNat, 16), (r.inForce.crossover.getD 7, 17)]⟩

/-- The LAYOUT_INVALID notice of a layout (R87). -/
def layoutInvalidNotice (l : Layout) : Notice := ⟨.layoutInvalid, 0, packFields [(l.present.toNat, 0)]⟩

/-- The LANE_STATE notice of a lane (R108). -/
def laneStateNotice (l : LaneId) (x : Lane) : Notice :=
  ⟨.laneState, l.val, packFields [(x.assignment.val, 0), ((x.pending.map Fin.val).getD 15, 4), (x.relay.code, 8),
    (x.fault.code, 10)]⟩

/-- The LANE_FAULT notice of a lane (R113). -/
def laneFaultNotice (l : LaneId) (x : Lane) : Notice :=
  ⟨.laneFault, l.val, packFields [(x.fault.code, 0), (x.trips.length, 2), (x.tripCount, 16)]⟩

/-- The THERMAL notice (R120): the working temperature plus 40, or 255 where it is absent. -/
def thermalNotice (p : Protection) : Notice :=
  ⟨.thermal, 0, packFields [((p.thermal.working.map fun t => (t + 40).toNat).getD 255, 0), (p.thermal.ceilingTarget, 8),
    (p.thermal.ceiling, 16), (p.thermal.trip.toNat, 24), (p.fan.stall.toNat, 25)]⟩

/-- The FAN_STALL notice (R124). -/
def fanStallNotice (f : Fan) : Notice := ⟨.fanStall, 0, packFields [(f.stall.toNat, 0), (f.lastPulses, 16)]⟩

/-- The SUPPLY notice (R125). -/
def supplyNotice (s : Supply) (code : BitVec 12) : Notice :=
  ⟨.supply, 0, packFields [(s.low.toNat, 0), (code.toNat, 16)]⟩

/-- The RADIO_TUNED notice: the held frequency and the report just taken (R136). -/
def radioTunedNotice (held : Freq) (q : Quality) : Notice :=
  ⟨.radioTuned, 0, packFields [(freqField (some held), 0), (q.level, 15), (q.noise, 22), (q.pilot.toNat, 29)]⟩

/-- The SEEK_DONE notice (R138). -/
def seekDoneNotice (z : ZoneId) (o : SearchOutcome) (f : Freq) : Notice :=
  ⟨.seekDone, z.code, packFields [(freqField (some f), 0), (o.code, 16)]⟩

/-- The SCAN_DONE notice (R141). -/
def scanDoneNotice (z : ZoneId) (o : SearchOutcome) (count : Nat) : Notice :=
  ⟨.scanDone, z.code, packFields [(count, 0), (o.code, 16)]⟩

/-- The RADIO_HOLDER notice (R133). -/
def radioHolderNotice (holder : Option ZoneId) : Notice := ⟨.radioHolder, 0, packFields [(holderField holder, 0)]⟩

/-- The TUNER_LINK notice: the offline entries, or 32,767 where there are more (R148). -/
def tunerLinkNotice (r : Radio) : Notice :=
  ⟨.tunerLink, 0, packFields [(r.failed, 0), (min r.offlines 32767, 16), ((!r.online).toNat, 31)]⟩

/-- The STATION_CODE notice (R157). -/
def stationCodeNotice (code : BitVec 16) (freq : Option Freq) : Notice :=
  ⟨.stationCode, 0, packFields [(code.toNat, 0), (freqField freq, 16)]⟩

/-- The STATION_NAME notice (R158). -/
def stationNameNotice (freq : Option Freq) : Notice := ⟨.stationName, 0, packFields [(freqField freq, 0)]⟩

/-- The STATION_TEXT notice (R159). -/
def stationTextNotice (length : Nat) (generation : Bool) : Notice :=
  ⟨.stationText, 0, packFields [(length, 0), (generation.toNat, 8)]⟩

/-- The STATION_CLOCK notice (R161). -/
def stationClockNotice (c : StationClock) : Notice :=
  ⟨.stationClock, 0, packFields [(c.minutes, 0), (c.weekday, 11)]⟩

/-- The AF_SWITCH notice (R164). -/
def afSwitchNotice (original new : Freq) : Notice :=
  ⟨.afSwitch, 0, packFields [(freqField (some original), 0), (freqField (some new), 16)]⟩

/-- The SYSTEM_READY notice (R189). -/
def systemReadyNotice (s : Standby) : Notice :=
  ⟨.systemReady, 0, packFields [(s.cause.code, 0), (portField s.port, 2)]⟩

/-- The STANDBY_ENTERED notice of a reset (R187). -/
def resetEnteredNotice (s : Standby) : Notice :=
  ⟨.standbyEntered, 0, packFields [(s.cause.code, 0), (portField s.port, 2)]⟩

/-- The STANDBY_ENTERED notice of an ENTER_STANDBY: STANDBY_REQUEST with its port (R190). -/
def standbyEnteredNotice (port : Option Port) : Notice :=
  ⟨.standbyEntered, 0, packFields [(3, 0), (portField port, 2)]⟩

/-! ### Posting and delivery -/

/-- A block posts a notice: it joins the notices of the step in progress. -/
def post (n : Notice) (h : Hub) : Hub := { h with outbox := h.outbox ++ [n] }

/-- A notice posted where a condition holds. -/
def postIf (c : Bool) (n : Notice) (h : Hub) : Hub := if c then post n h else h

/-- Whether two notices have the same kind and object. -/
def Notice.sameThing (m n : Notice) : Bool := decide (m.kind = n.kind) && decide (m.object = n.object)

/-- R182: a notice delivered to a port's queue replaces the entry of its kind and object where it stands, joins the
tail, or is dropped from a full queue, which sets LOST. -/
def PortRecord.take (n : Notice) (p : PortRecord) : PortRecord :=
  if p.queue.any n.sameThing then { p with queue := p.queue.map fun m => if n.sameThing m then n else m }
  else if p.queue.length < Config.queueNotices then { p with queue := p.queue ++ [n] }
  else { p with lost := true }

/-- R180: a notice delivered to a port if its subscription set holds the notice's class. -/
def PortRecord.deliver (n : Notice) (p : PortRecord) : PortRecord :=
  if p.subscriptions.getLsbD n.kind.classCode then p.take n else p

/-- R180: a list of notices delivered to a port in the order they were posted, unless they are withheld from it. -/
def deliverAll (ns : List Notice) (withheld : Bool) (p : PortRecord) : PortRecord :=
  if withheld then p else ns.foldl (fun q n => q.deliver n) p

/-- R180: the notices of the step delivered to every port but the one whose request made the step. -/
def deliverOutbox (requester : Option Port) (s : State) : State :=
  { s with
    ports :=
      ⟨deliverAll s.hub.outbox (decide (requester = some .a)) s.ports.a,
        deliverAll s.hub.outbox (decide (requester = some .b)) s.ports.b,
        deliverAll s.hub.outbox (decide (requester = some .c)) s.ports.c⟩
    hub := { s.hub with outbox := [] } }

end Sys2Proof.Machine
end

