-- ==== Sys2Proof/Machine/Operands.lean ====
section
/-! DEFINITION. How parameter words are read (R175), the answers a request's rule forms (R174), and the grid of the
radio bands (7.1, R130). -/

namespace Sys2Proof.Machine

/-! ### Answers -/

/-- What a request's rule answers: the status and the content of its reply. -/
structure Answer where
  status : Status
  data : ReplyData
deriving DecidableEq, Repr

/-- BAD_VALUE with the number of the parameter word refused (9.4). -/
def badValue (word : Nat) : Answer := ⟨.badValue, .wordRefused word⟩

/-- REFUSED_STATE, which carries no data word (9.4). -/
def refusedState : Answer := ⟨.refusedState, .none⟩

/-- STANDBY with the power state (9.4). -/
def refusedStandby (h : Hub) : Answer := ⟨.standby, .powerRefused h.standby.power⟩

/-- OK or CLAMPED, according to whether a value was brought into range. -/
def okOrClamped (clamped : Bool) (data : ReplyData) : Answer := ⟨if clamped then .clamped else .ok, data⟩

/-- ACCEPTED, or CLAMPED where a value was brought into range (R174). -/
def acceptedOrClamped (clamped : Bool) (data : ReplyData) : Answer :=
  ⟨if clamped then .clamped else .accepted, data⟩

/-! ### Identifiers and codes -/

/-- The zone that a parameter word names. -/
def zoneOf (w : Word) : Option ZoneId := ZoneId.ofNat? w.toNat

/-- The source that a parameter word names. -/
def sourceOf (w : Word) : Option SourceId := if h : w.toNat < 8 then some ⟨w.toNat, h⟩ else none

/-- The lane that a parameter word names. -/
def laneOf (w : Word) : Option LaneId := if h : w.toNat < 11 then some ⟨w.toNat, h⟩ else none

/-- The lane target that a parameter word names. -/
def targetOf (w : Word) : Option (Fin 12) := if h : w.toNat < 12 then some ⟨w.toNat, h⟩ else none

/-- The preset that a parameter word names. -/
def presetOf (w : Word) : Option (Fin 40) := if h : w.toNat < 40 then some ⟨w.toNat, h⟩ else none

/-- An on/off code: 0 is off or clear, 1 is on or set. -/
def flagOf (w : Word) : Option Bool := if w = 0 then some false else if w = 1 then some true else none

/-- A band code: 0 is FM, 1 is AM. -/
def bandOf (w : Word) : Option Band := if w = 0 then some .fm else if w = 1 then some .am else none

/-- A clock mode code: 0 is AUTO, 1 is FORCED_FREE. -/
def clockModeOf (w : Word) : Option ClockMode :=
  if w = 0 then some .auto else if w = 1 then some .forcedFree else none

/-- A decode mode code (R81). -/
def decodeModeOf (w : Word) : Option RequestedMode :=
  match w.toNat with
  | 0 => some .auto
  | 1 => some .direct
  | 2 => some .matrix
  | 3 => some .fold2
  | _ => none

/-- An FM step code (R146). -/
def fmStepOf (w : Word) : Option Nat :=
  match w.toNat with
  | 0 => some 50
  | 1 => some 100
  | 2 => some 200
  | _ => none

/-- An AM step code (R146). -/
def amStepOf (w : Word) : Option Nat :=
  match w.toNat with
  | 0 => some 9
  | 1 => some 10
  | _ => none

/-! ### Quantities -/

/-- A quantity brought to the nearest value of a range. -/
def clampNat (low high x : Nat) : Nat := max low (min high x)

/-- A signed quantity brought to the nearest value of a range. -/
def clampInt (low high x : Int) : Int := max low (min high x)

/-- R23: the nearest of 8, 16 and 32, a value midway going to the larger. -/
def prefillOf (w : Word) : Nat := if w.toNat < 12 then 8 else if w.toNat < 24 then 16 else 32

/-- R175: a frequency takes two words, high then low. -/
def khzOf (high low : Word) : Nat := high.toNat * 65536 + low.toNat

/-- 5.1: the coefficient of a crossover setting. -/
def crossoverCoefficient (setting : Nat) : Nat := [256, 341, 426, 511, 637].getD setting 0

/-! ### The band plan (7.1) -/

/-- The step of a band. -/
def BandPlan.step (p : BandPlan) : Band → Nat
  | .fm => p.fmStep
  | .am => p.amStep

/-- The lower limit of a band. -/
def BandPlan.lower (p : BandPlan) : Band → Nat
  | .fm => 87500
  | .am => if p.amStep = 9 then 522 else 520

/-- The upper limit of a band. -/
def BandPlan.upper (p : BandPlan) : Band → Nat
  | .fm => 108000
  | .am => if p.amStep = 9 then 1620 else 1710

/-- The highest grid point of a band. -/
def BandPlan.top (p : BandPlan) (b : Band) : Nat :=
  p.lower b + (p.upper b - p.lower b) / p.step b * p.step b

/-- The number of grid points of a band. -/
def BandPlan.points (p : BandPlan) (b : Band) : Nat := (p.upper b - p.lower b) / p.step b + 1

/-- R130, snapping: the frequency clamped to the band's limits and moved to the nearest grid point, an exact half
up; a grid point above the upper limit gives way to the highest grid point. -/
def BandPlan.snap (p : BandPlan) (b : Band) (khz : Nat) : Nat :=
  let x := clampNat (p.lower b) (p.upper b) khz
  let q := (2 * (x - p.lower b) + p.step b) / (2 * p.step b)
  let r := p.lower b + p.step b * q
  if p.upper b < r then p.top b else r

/-- R130, clamping: the frequency clamped to the band's limits, an FM frequency then rounded to the nearest multiple
of 10 kHz, an exact half up. -/
def BandPlan.clamp (p : BandPlan) (b : Band) (khz : Nat) : Nat :=
  let x := clampNat (p.lower b) (p.upper b) khz
  match b with
  | .fm => (x + 5) / 10 * 10
  | .am => x

/-- R137, R138: the next grid point beyond a frequency in the direction of a seek, wrapping at the ends. -/
def BandPlan.next (p : BandPlan) (b : Band) (up : Bool) (khz : Nat) : Nat :=
  let low := p.lower b
  let step := p.step b
  if up then
    let r := low + ((khz - low) / step + 1) * step
    if khz < low then low else if p.top b < r then low else r
  else if khz ≤ low then p.top b
  else low + (khz - low - 1) / step * step

end Sys2Proof.Machine
end

