-- ==== Sys2Proof/Machine/Ops.lean ====
section
/-! DEFINITION. The named operations every block uses: reading and writing one record of State, the select period of
a control port (R168 to R173), running a request (R171, R172), running an event, and the list of events found and
not yet taken. -/

namespace Sys2Proof.Machine

/-! ### Records -/

/-- The hub with the record of one zone replaced. -/
def Hub.setZone (z : ZoneId) (x : Zone) (h : Hub) : Hub := { h with zones := h.zones.set z x }

/-- The hub with the record of one lane replaced. -/
def Hub.setLane (l : LaneId) (x : Lane) (h : Hub) : Hub := { h with lanes := h.lanes.set l x }

/-- The state with the record of one port replaced. -/
def State.setPort (p : Port) (x : PortRecord) (s : State) : State := { s with ports := s.ports.set p x }

/-- The state with its hub changed. -/
def State.onHub (f : Hub → Hub) (s : State) : State := { s with hub := f s.hub }

/-! ### Events found and not yet taken -/

/-- An event is found: it joins the events not yet taken, once. -/
def Hub.addDue (d : Due) (h : Hub) : Hub := if d ∈ h.due then h else { h with due := h.due ++ [d] }

/-- An event is found where a condition holds. -/
def Hub.addDueIf (c : Bool) (d : Due) (h : Hub) : Hub := if c then h.addDue d else h

/-- An event is taken, or can no longer be. -/
def Hub.dropDue (d : Due) (h : Hub) : Hub := { h with due := h.due.filter fun e => decide (e ≠ d) }

/-- An event taken as a step of its own: where it has been found and not yet taken it leaves the list and has its
effect; otherwise nothing happens (notes/assumptions/6.md). -/
def Hub.takeEvent (d : Due) (f : Hub → Hub) (h : Hub) : Hub := if d ∈ h.due then f (h.dropDue d) else h

/-! ### The select period (9.2) -/

/-- R169: the assertion of a port's select line while the port is IDLE. -/
def PortRecord.assertSelect (p : PortRecord) : PortRecord :=
  { p with
    receive := .receiving
    wordsReceived := 0
    outSent := 0
    frame := []
    outFrame := p.slot
    noticesAtAssertion := p.attention }

/-- R168, R187: whether a port keeps nothing of what is shifted in: it ignores its select period, or the part is kept in
reset by its reset pin. -/
def State.keepsNothing (p : Port) (s : State) : Bool :=
  s.hub.standby.inReset || decide ((s.ports.get p).receive = .ignoring)

/-- R168: the release of a port's select line that has no other effect. -/
def State.releaseSelect (p : Port) (s : State) : State := s.setPort p { s.ports.get p with receive := .idle }

/-- R169: a whole frame shifted into a port that is RECEIVING; a port still IDLE takes the assertion first
(notes/assumptions/7.md). Word 0 and up to 32 parameter words are kept, and every word is counted. -/
def PortRecord.shiftIn (word0 : Word) (params : List Word) (words : Nat) (p : PortRecord) : PortRecord :=
  let q := if p.receive = .receiving then p else p.assertSelect
  { q with
    wordsReceived := min words Config.counterMax
    outSent := min words Config.counterMax
    frame := word0 :: params.take 32 }

/-- 12.2: the three data words of a notice in a READ_NOTICES reply. -/
def Notice.words (n : Notice) : List Word :=
  [BitVec.ofNat 16 (n.kind.code * 256 + n.object), (n.value >>> 16).setWidth 16, n.value.setWidth 16]

/-- The data words of a reply, where chapters 9 and 12 lay them out: no word, the two of a BAD_REQUEST, the one of a
refusal (9.4), those of READ_NOTICES (12.2), the one word of a volume index (9.6), and those of IDENTIFY, one for each
item in the order of R179's list, the delay memory size in two (notes/assumptions/47.md). -/
def ReplyData.statedWords : ReplyData → Option (List Word)
  | .none => some []
  | .badRequest kind reason => some [BitVec.ofNat 16 kind, BitVec.ofNat 16 reason]
  | .wordRefused word => some [BitVec.ofNat 16 word]
  | .powerRefused state => some [BitVec.ofNat 16 state.code]
  | .holder who => some [BitVec.ofNat 16 (holderField who)]
  | .volume index => some [BitVec.ofNat 16 index]
  | .identity partCode revision port state fixedCounts memoryHigh memoryLow run refused discarded =>
    some
      (([partCode, revision, port.code, state.code] ++ fixedCounts.toList ++
        [memoryHigh, memoryLow, run, refused, discarded]).map (BitVec.ofNat 16))
  | .notices count lost left returned =>
    some
      (BitVec.ofNat 16 (count + (if lost then 32768 else 0)) :: BitVec.ofNat 16 left ::
        returned.flatMap Notice.words)
  | _ => Option.none

/-- R167: the least number of data words of a reply whose layout the spec does not give: two characters a word for the
committed text of GET_STATION_DATA, 24 for its 48 (notes/assumptions/69.md). -/
def ReplyData.leastWords : ReplyData → Nat
  | .stationData view => ((view.text.getD []).length + 1) / 2
  | _ => 0

/-- The data words of a reply whose layout the spec does not give: free values, at least `least` and at most 63 of them
(notes/assumptions/2.md). -/
def freeWords (least index : Nat) : List Word :=
  (List.range (min 63 (max least (Config.replyWords index)))).map (Config.replyWord index)

/-- The data words of a reply: as laid out, or else free values (R173, notes/assumptions/2.md). -/
def replyWords (index : Nat) (data : ReplyData) : List Word := data.statedWords.getD (freeWords data.leastWords index)

/-- R172: a reply placed in a port's slot, discarding an unread one. -/
def PortRecord.place (index : Nat) (a : Answer) (p : PortRecord) : PortRecord :=
  { p with
    slot := some ⟨a.status, p.slot.isSome, a.data, replyWords index a.data⟩
    discarded := if p.slot.isSome then bump p.discarded else p.discarded }

/-- R172, R169: the reply is placed in the slot of the port that sent the frame, and the port returns to IDLE. -/
def finishFrame (p : Port) (a : Answer) (s : State) : State :=
  { s.setPort p { (s.ports.get p).place s.freeIndex a with receive := .idle } with freeIndex := s.freeIndex + 1 }

/-- R171: a request frame that passes R170, run at the release of the select line: requests run advances, the rule
runs whole, its notices are withheld from the requesting port, and its reply is placed. A port that keeps nothing runs
nothing, and the release returns it to IDLE (R168, R187). -/
def request (p : Port) (kind : Nat) (params : List Word) (rule : State → State × Answer) (s : State) :
    Host.Outcome State Fault Refusal :=
  if s.keepsNothing p then .next (s.releaseSelect p)
  else
    let q := (s.ports.get p).shiftIn (requestWord0 kind params.length) params (1 + params.length)
    let r := rule (s.setPort p { q with run := bump q.run })
    .next (finishFrame p r.2 (deliverOutbox (some p) r.1))

/-- A rule that acts on the blocks behind Source Intake and reads the source records. -/
def onHub (rule : Vector Source 8 → Hub → Hub × Answer) (s : State) : State × Answer :=
  let r := rule s.sources s.hub
  ({ s with hub := r.1 }, r.2)

/-- A rule that changes nothing and answers OK with what it reads. -/
def readOnly (read : State → ReplyData) (s : State) : State × Answer := (s, ⟨.ok, read s⟩)

/-- An effect, and its notices delivered to every subscribing port (R180). -/
def tell (f : State → State) (s : State) : Host.Outcome State Fault Refusal := .next (deliverOutbox none (f s))

/-- An event: its effect, told to every port. A part that its reset pin keeps in reset takes none: no arrival, sample
period, block start, count, conversion, pulse or link outcome acts on it (R187, notes/assumptions/58.md). -/
def event (f : State → State) (s : State) : Host.Outcome State Fault Refusal :=
  if s.hub.standby.inReset then .next s else tell f s

end Sys2Proof.Machine
end

