-- ==== Sys2Proof/Machine/Reference.lean ====
section
/-! DEFINITION. The Sample Clock Unit's record: the derivation of the reference and the changes of clock state
(R29 to R32), the adjustment of the period word and its judgement (R33 to R35). -/

namespace Sys2Proof.Machine

/-- R31: entering FREE. -/
def Clock.enterFree (c : Clock) : Clock :=
  { c with state := .free, period := Config.nominalPeriod, good := 0, holdover := 0, partialInterval := false }

/-- R31: entering ACQUIRING with the period word kept. -/
def Clock.enterAcquiring (c : Clock) : Clock :=
  { c with state := .acquiring, good := 0, holdover := 0, partialInterval := true }

/-- R31: entering HOLDOVER, the period word frozen. -/
def Clock.enterHoldover (c : Clock) : Clock := { c with state := .holdover, holdover := 0 }

/-- R31: entering ACQUIRING, from the nominal period word where the unit is in FREE, or where the eighth interval end
in HOLDOVER has been taken and has put it there (R35). -/
def Clock.acquire (c : Clock) : Clock :=
  if c.state = .free ∨ (c.state = .holdover ∧ 8 ≤ c.holdover) then
    { c with period := Config.nominalPeriod }.enterAcquiring
  else c.enterAcquiring

/-- R31: a change of reference, `running` saying whether the new reference is in RUNNING. -/
def Clock.changeReference (c : Clock) (reference : Option SourceId) (running : Bool) : Clock :=
  let d :=
    match reference, running, c.state with
    | none, _, .free => c
    | none, _, _ => c.enterFree
    | some _, true, _ => c.acquire
    | some _, false, .free => c
    | some _, false, .holdover => c
    | some _, false, _ => c.enterHoldover
  { d with reference := reference }

/-- R30: the reference that the main zone and the mode give while the unit runs. -/
def Hub.desiredReference (h : Hub) : Option SourceId :=
  match h.clock.mode, h.zones.main.state with
  | .forcedFree, _ => none
  | .auto, .off => none
  | .auto, .fadingOut .powerOff => none
  | .auto, _ => h.zones.main.current

/-- Whether a source, if there is one, is in RUNNING. -/
def runningRef (src : Vector Source 8) : Option SourceId → Bool
  | none => false
  | some i => src[i].isRunning

/-- R36: the clock record replaced, one CLOCK_STATE posted where the running condition, the mode, the clock state or
the reference changes. -/
def Hub.setClock (c : Clock) (h : Hub) : Hub :=
  postIf
    (decide (c.running ≠ h.clock.running ∨ c.mode ≠ h.clock.mode ∨ c.state ≠ h.clock.state ∨
      c.reference ≠ h.clock.reference))
    (clockStateNotice c) { h with clock := c }

/-- R30: the mode written and the reference derived again, the change taken under R31 in one event. -/
def Hub.deriveReferenceWith (src : Vector Source 8) (mode : ClockMode) (h : Hub) : Hub :=
  let c := { h.clock with mode := mode }
  let r := Hub.desiredReference { h with clock := c }
  if !h.clock.running || decide (r = h.clock.reference) then h.setClock c
  else h.setClock (c.changeReference r (runningRef src r))

/-- R30: the reference derived again. -/
def Hub.deriveReference (src : Vector Source 8) (h : Hub) : Hub := h.deriveReferenceWith src h.clock.mode

/-- R32: source `i` enters RUNNING. -/
def Hub.referenceEnters (i : SourceId) (h : Hub) : Hub :=
  if h.clock.reference = some i ∧ (h.clock.state = .free ∨ h.clock.state = .holdover) then h.setClock h.clock.acquire
  else h

/-- R32: source `i` leaves RUNNING. -/
def Hub.referenceLeaves (i : SourceId) (h : Hub) : Hub :=
  if h.clock.reference = some i ∧ (h.clock.state = .acquiring ∨ h.clock.state = .locked) then
    h.setClock h.clock.enterHoldover
  else h

/-- R29: the unit starts. -/
def Hub.startClock (src : Vector Source 8) (h : Hub) : Hub :=
  (h.setClock { Clock.reset with running := true, mode := h.clock.mode }).deriveReference src

/-- R29: the unit stops; the sample period, block and interval in progress are abandoned. The last adjustment, the phase
accumulator and the two positions stand as they are until the next start (notes/assumptions/71.md). Where one ENTER_STANDBY
turns a WAITING main zone off and reaches STANDBY at once, the CLOCK_STATE of the stop is the request's second: that of the
reference which became none stands before it (R36, notes/assumptions/78.md, DESIGN CHOICE). -/
def Hub.stopClock (h : Hub) : Hub :=
  h.setClock { h.clock.enterFree with running := false, reference := none }

/-- R33: the period word moved by the rate term and the fill term, before it is brought within its limits. -/
def adjustedPeriod (period : Nat) (arrivals : Nat) (fillError : Int) : Int :=
  (period : Int) - ((arrivals : Int) - 768) * 2048 - fillError * 256

/-- R34: an interval is good when the arrivals lie within one of 768 and the fill error within two of 0. -/
def goodInterval (arrivals : Nat) (fillError : Int) : Bool :=
  decide (767 ≤ arrivals ∧ arrivals ≤ 769 ∧ -2 ≤ fillError ∧ fillError ≤ 2)

/-- R33: an adjustment of the period word. -/
def Clock.adjust (c : Clock) (arrivals : Nat) (fillError : Int) : Clock :=
  let p := adjustedPeriod c.period arrivals fillError
  let low : Int := Config.minPeriod
  let high : Int := Config.maxPeriod
  { c with
    period := (clampInt low high p).toNat
    lastAdjustment := some ⟨arrivals, fillError, decide (p < low ∨ high < p)⟩ }

/-- R34: the judgement of an interval by an adjustment. -/
def Clock.judge (c : Clock) (good : Bool) : Clock :=
  match c.state, good with
  | .acquiring, true =>
    if 8 ≤ c.good + 1 then { c with state := .locked, good := 8 } else { c with good := c.good + 1 }
  | .acquiring, false => { c with good := 0 }
  | .locked, false => { c with state := .acquiring, good := 0, partialInterval := false }
  | _, _ => c

/-- R33 to R35: the end of a measurement interval at the Sample Clock Unit, the sources having judged it. -/
def Hub.clockInterval (src : Vector Source 8) (h : Hub) : Hub :=
  let c := h.clock
  match c.state, c.reference with
  | .acquiring, some i | .locked, some i =>
    if c.partialInterval then { h with clock := { c with partialInterval := false } }
    else
      let e := (src[i].fill : Int) - (src[i].prefill : Int)
      h.setClock ((c.adjust src[i].lastArrivals e).judge (goodInterval src[i].lastArrivals e))
  | .holdover, _ =>
    Hub.addDueIf (decide (8 ≤ c.holdover + 1)) .holdoverExpiry
      { h with clock := { c with holdover := min 8 (c.holdover + 1) } }
  | _, _ => h

/-- R35: the eighth interval end in HOLDOVER puts the unit in FREE; the reference is kept. -/
def Hub.expireHoldover (h : Hub) : Hub :=
  if h.clock.state = .holdover ∧ 8 ≤ h.clock.holdover then h.setClock h.clock.enterFree else h

end Sys2Proof.Machine
end

