-- ==== Sys2Proof/Machine/Delay.lean ====
section
/-! DEFINITION. Zone states as they are entered (R41), the lip-sync lines, the raising of a reconfiguration item
(R50), and the delay allocator (R96 to R98). -/

namespace Sys2Proof.Machine

/-! ### Entering a zone state (R41) -/

/-- R40: a lip-sync line of the length in effect, holding zeros. -/
def Zone.clearLine (x : Zone) : Zone := { x with line := List.replicate (48 * x.lipEffect) Frame.zero }

/-- R57: leaving WAITING sets the no-signal count to 0 and clears no-signal reported, and so does a new wait. -/
def Zone.newWait (x : Zone) : Zone := { x with noSignal := 0, noSignalReported := false }

/-- A zone entering FADING_OUT, from its present gain index. -/
def Zone.fadeOut (purpose : Purpose) (x : Zone) : Zone := { x.newWait with state := .fadingOut purpose }

/-- R41: a zone entering WAITING, which starts a new wait. -/
def Zone.wait (x : Zone) : Zone := { x.newWait with state := .waiting, gain := -1 }

/-- A zone entering FADING_IN with the current gain index at −1. -/
def Zone.fadeIn (x : Zone) : Zone := { x.newWait with state := .fadingIn, gain := -1 }

/-- R41: a zone entering OFF. -/
def Zone.turnOff (x : Zone) : Zone :=
  Zone.clearLine { x.newWait with state := .off, gain := -1, current := none, lipEffect := x.lipGranted }

/-- R54: the state a zone with a current source goes to: FADING_IN where that source is RUNNING, else WAITING. -/
def Zone.fadeInOrWait (running : Bool) (x : Zone) : Zone := if running then x.fadeIn else x.wait

/-- A zone record whose state has just been entered: what was found for the state it left is dropped. -/
def Hub.enterZone (z : ZoneId) (x : Zone) (h : Hub) : Hub :=
  (((h.setZone z x).dropDue (.fadeOutEnd z)).dropDue (.fadeInEnd z)).dropDue (.noSignal z)

/-- R41: one ZONE_STATE for a zone, with its values as they stand. -/
def Hub.postZoneState (z : ZoneId) (h : Hub) : Hub := post (zoneStateNotice z (h.zone z)) h

/-! ### Items (R50) -/

/-- R50: an item that finds its zone audible, or fading out: it joins the pending set, and an audible zone enters
FADING_OUT with purpose RECONFIGURE. In OFF and WAITING nothing is done here. -/
def Hub.holdItem (join : Items → Items) (z : ZoneId) (h : Hub) : Hub :=
  let x := h.zone z
  let y := { x with pending := join x.pending }
  match x.state with
  | .off | .waiting => h
  | .playing | .fadingIn => (h.enterZone z (y.fadeOut .reconfigure)).postZoneState z
  | .fadingOut _ => h.setZone z y

/-- R50: an item raised for a zone: applied at once in OFF and WAITING, held otherwise. -/
def Hub.raiseItem (join : Items → Items) (apply : Hub → Hub) (z : ZoneId) (h : Hub) : Hub :=
  match (h.zone z).state with
  | .off | .waiting => apply h
  | _ => h.holdItem join z

/-! ### Lip-sync in effect (R53, R98) -/

/-- The lip-sync in effect takes the grant; a line whose length changes takes the new length, holding zeros. -/
def Zone.adoptGrant (x : Zone) : Zone :=
  if x.lipEffect = x.lipGranted then x else Zone.clearLine { x with lipEffect := x.lipGranted }

/-- R98: the pending LIPSYNC item of a zone whose lip-sync in effect exceeds its grant is applied at once. -/
def Hub.squeeze (z : ZoneId) (h : Hub) : Hub :=
  let x := h.zone z
  if x.lipGranted < x.lipEffect then h.setZone z { x.adoptGrant with pending := { x.pending with lipsync := false } }
  else h

/-- R98: one zone's turn in making room for `extra` cells more than are held. -/
def Hub.makeRoomFrom (skip : Option ZoneId) (extra : Nat) (z : ZoneId) (h : Hub) : Hub :=
  if Config.delayCells < h.totalHoldings + extra ∧ skip ≠ some z then h.squeeze z else h

/-- R98: cells taken from the other zones, in the order Z3, Z2, MAIN, until `extra` cells more fit. -/
def Hub.makeRoom (skip : Option ZoneId) (extra : Nat) (h : Hub) : Hub :=
  ((h.makeRoomFrom skip extra .z3).makeRoomFrom skip extra .z2).makeRoomFrom skip extra .main

/-- R53: a LIPSYNC item applied. The line takes its new length at once, also inside an output block
(notes/assumptions/40.md). -/
def Hub.applyLipsync (z : ZoneId) (h : Hub) : Hub :=
  let r := h.makeRoom (some z) (msCells z * ((h.zone z).lipGranted - (h.zone z).lipEffect))
  r.setZone z (r.zone z).adoptGrant

/-! ### The allocator (R52, R96, R97) -/

/-- R52: a grant that differs from the zone's is written and told, and its LIPSYNC item is held where the zone is
not silent. -/
def Hub.tellGrant (z : ZoneId) (ms : Nat) (h : Hub) : Hub :=
  let x := h.zone z
  if ms = x.lipGranted then h
  else
    let y := { x with lipGranted := ms }
    Hub.holdItem (fun s => { s with lipsync := true }) z (post (lipsyncNotice z y) (h.setZone z y))

/-- R50: the LIPSYNC item of a zone in OFF or WAITING, applied at once. -/
def Hub.applyGrant (z : ZoneId) (h : Hub) : Hub :=
  match (h.zone z).state with
  | .off | .waiting => h.applyLipsync z
  | _ => h

/-- R97: the grants recomputed and each changed one told, in the order MAIN, Z2, Z3; silent zones adopt theirs once
all are told (notes/assumptions/8.md). -/
def Hub.recompute (h : Hub) : Hub :=
  let g := h.newGrants
  let t := ((h.tellGrant .main g.main).tellGrant .z2 g.z2).tellGrant .z3 g.z3
  ((t.applyGrant .main).applyGrant .z2).applyGrant .z3

end Sys2Proof.Machine
end

