-- ==== Sys2Proof/Machine/Decoding.lean ====
section
/-! DEFINITION. The Surround Decoder's modes (R68 to R72) and its arithmetic on frames: the two-channel reductions
(R75, R76), the block sums and the steering (R77 to R79), and the positions each mode makes (R73, R74, R80). -/

namespace Sys2Proof.Machine

/-! ### The active mode -/

/-- R69: the mode and reason of the main zone, `multi` saying whether the decode source is multichannel. -/
def derivePair (requested : RequestedMode) (autoMatrix multi : Bool) : DecodePair :=
  match requested, multi with
  | .auto, false => if autoMatrix then ⟨.matrix, .auto⟩ else ⟨.direct, .auto⟩
  | .auto, true => ⟨.direct, .auto⟩
  | .direct, _ => ⟨.direct, .asRequested⟩
  | .matrix, false => ⟨.matrix, .asRequested⟩
  | .matrix, true => ⟨.direct, .matrixNeedsStereo⟩
  | .fold2, false => ⟨.direct, .fold2NeedsMultichannel⟩
  | .fold2, true => ⟨.fold2, .asRequested⟩

/-- The steering state, the block sums, the last raw dominances and the coefficients as a change of active mode
(R71) and the stop of the Sample Clock Unit (R67) leave them. Back-fill stays as it was last decided
(notes/assumptions/42.md). -/
def Decoder.restart (d : Decoder) : Decoder :=
  { d with dLr := 0, dCs := 0, sums := .zero, lastRaw := none, steering := .zero }

/-- Every bass filter state set to 0. -/
def Renderer.clearFilters (r : Renderer) : Renderer := { r with filters := Vector.replicate 7 0 }

/-- R71: the derived pair adopted; a change of mode is noted for the block start that it may fall at
(notes/assumptions/36.md). Adopted inside an output block, by a DECODE item applied at once as by a handover, it governs
the rest of that block (notes/assumptions/50.md). -/
def Hub.adoptDecode (h : Hub) : Hub :=
  let d := h.decoder
  let e := { d with active := d.derived }
  let g :=
    if d.derived.mode ≠ d.active.mode then
      { h with decoder := { e.restart with newMode := true }, renderer := h.renderer.clearFilters }
    else { h with decoder := e }
  postIf (decide (d.derived ≠ d.active)) (decodeActiveNotice g.decoder) g

/-- R70: the Zone Router applies the DECODE item. Item pending is cleared before the adoption, so its DECODE_ACTIVE
shows none pending (notes/assumptions/41.md). -/
def Hub.applyDecode (h : Hub) : Hub := Hub.adoptDecode { h with decoder := { h.decoder with itemPending := false } }

/-- R69: the derived pair for a decode source. -/
def Decoder.derive (src : Vector Source 8) (i : SourceId) (d : Decoder) : Decoder :=
  { d with derived := derivePair d.requested d.autoMatrix (multichannel src[i].channels) }

/-- R70: the main zone's new current source handed to the decoder; the derived pair is adopted at once. -/
def Hub.handover (src : Vector Source 8) (i : SourceId) (h : Hub) : Hub :=
  Hub.adoptDecode { h with decoder := { h.decoder with source := some i }.derive src i }

/-- R70: the derivation after a change of the requested mode, the option or the decode source's channel set, with the
notices `tell` posts once item pending is written and before the item is raised. -/
def Hub.rederive (tell : Hub → Hub) (src : Vector Source 8) (h : Hub) : Hub :=
  match h.decoder.source with
  | none => tell h
  | some i =>
    let d := h.decoder.derive src i
    if d.derived ≠ d.active ∧ d.itemPending = false then
      Hub.raiseItem (fun s => { s with decode := true }) Hub.applyDecode .main
        (tell { h with decoder := { d with itemPending := true } })
    else tell { h with decoder := d }

/-! ### Frames -/

/-- R75: the two channels that FOLD2 and FOLD make of a frame. -/
def foldPair (f : Frame) : Sample × Sample :=
  (saturate (roundedProduct f.fl 16384 + roundedProduct f.c 11585 + roundedProduct f.sl 11585 +
      roundedProduct f.bl 11585),
    saturate (roundedProduct f.fr 16384 + roundedProduct f.c 11585 + roundedProduct f.sr 11585 +
      roundedProduct f.br 11585))

/-- The frame of a pair: its left and right samples in `fl` and `fr`. -/
def Frame.pair (p : Sample × Sample) : Frame := { Frame.zero with fl := p.1, fr := p.2 }

/-- R76: the pair of a frame that a form lets into the line of Z2 or Z3. -/
def Form.reduce (form : Form) (f : Frame) : Frame :=
  match form with
  | .none => Frame.zero
  | .pass => Frame.pair (f.fl, f.fr)
  | .fold => Frame.pair (foldPair f)

/-- The magnitude of an integer. -/
def magnitude (x : Int) : Int := if x < 0 then -x else x

/-- R77: one frame added to the four block sums. -/
def BlockSums.add (s : BlockSums) (f : Frame) : BlockSums :=
  ⟨s.sumL + magnitude f.fl, s.sumR + magnitude f.fr, s.sumC + magnitude (f.fl + f.fr),
    s.sumS + magnitude (f.fl - f.fr)⟩

/-- R78: a raw dominance, 0 where its denominator is 0. -/
def rawDominance (x y : Int) : Int := if x + y = 0 then 0 else ((x - y) * 32767).tdiv (x + y)

/-- R78: a smoothed dominance moved an eighth of the way to its raw value. -/
def smooth (d raw : Int) : Int := d + (raw - d).tdiv 8

/-- R79: the coefficients of a steering state. -/
def steeringOf (dLr dCs : Int) : Steering :=
  let pc := if 0 < dCs then dCs else 0
  let ps := if dCs < 0 then -dCs else 0
  let wL := 32768 + dLr
  ⟨8192 + pc.tdiv 4, 8192 + ps.tdiv 4, pc.tdiv 2, wL, 65536 - wL⟩

/-- R78, R79: the steering update of a block start at which the active mode is MATRIX. -/
def Decoder.steer (d : Decoder) : Decoder :=
  let lr := rawDominance d.sums.sumL d.sums.sumR
  let cs := rawDominance d.sums.sumC d.sums.sumS
  let dLr := smooth d.dLr lr
  let dCs := smooth d.dCs cs
  { d with dLr := dLr, dCs := dCs, sums := .zero, lastRaw := some (lr, cs), steering := steeringOf dLr dCs }

/-- R78, R79: the decoder's part of an output block start: in MATRIX the steering is updated, unless a change of the
active mode is adopted at this block start. -/
def Decoder.blockStart (d : Decoder) : Decoder :=
  match d.active.mode with
  | .matrix => if d.newMode then { d with newMode := false } else d.steer
  | _ => { d with newMode := false }

/-- R74: whether back-fill is in force for a back position that `present` says is effectively present, the decode
source having the channel set `set`; with no decode source the set is empty (notes/assumptions/43.md). -/
def backfill (mode : ActiveMode) (set : Channels) (present : Bool) : Bool :=
  match mode with
  | .matrix => present
  | .direct => present && decide (set &&& 0xC0 = 0)
  | .fold2 => false

/-- The channel set of the decode source; taken as empty while there is none (notes/assumptions/43.md). -/
def Hub.decodeChannels (src : Vector Source 8) (h : Hub) : Channels :=
  match h.decoder.source with
  | none => 0
  | some i => src[i].channels

/-- R74, R89: the decisions that hold for the whole output block that begins: the layout that governs it and the
back-fill. -/
def Hub.decideBlock (src : Vector Source 8) (h : Hub) : Hub :=
  let set := h.decodeChannels src
  let l := h.renderer.inForce
  { h with
    decoder :=
      { h.decoder with
        backfillL := backfill h.decoder.active.mode set (l.present.getLsbD 5)
        backfillR := backfill h.decoder.active.mode set (l.present.getLsbD 6) }
    renderer := { h.renderer with governing := l } }

/-- R80: the positions that MATRIX makes of a frame, before back-fill. -/
def Steering.positions (k : Steering) (f : Frame) : Frame :=
  let m := f.fl + f.fr
  let s := f.fl - f.fr
  let sb := roundedProduct s k.gS
  { Frame.zero with
    c := saturate (roundedProduct m k.gC)
    fl := saturate (f.fl - roundedProduct m k.kF)
    fr := saturate (f.fr - roundedProduct m k.kF)
    sl := saturate (roundedProduct sb k.wL)
    sr := saturate (-(roundedProduct sb k.wR)) }

/-- R73, R75, R80: the positions and the LFE channel that the active mode makes of a frame, before back-fill. -/
def Decoder.modePositions (d : Decoder) (f : Frame) : Frame :=
  match d.active.mode with
  | .direct => f
  | .matrix => d.steering.positions f
  | .fold2 => Frame.pair (foldPair f)

/-- R74: the back positions derived from the side positions where back-fill is in force. -/
def Decoder.backfilled (d : Decoder) (f : Frame) : Frame :=
  { f with
    bl := if d.backfillL then roundedProduct f.sl 23170 else f.bl
    br := if d.backfillR then roundedProduct f.sr 23170 else f.br }

/-- R73 to R80: what the decoder hands the renderer for a frame of the main zone. -/
def Decoder.decode (d : Decoder) (f : Frame) : Frame := d.backfilled (d.modePositions f)

/-- R77: the frame added to the block sums while the active mode is MATRIX. A sample period parts an adoption before it
from the next block start. -/
def Decoder.listen (d : Decoder) (f : Frame) : Decoder :=
  match d.active.mode with
  | .matrix => { d with sums := d.sums.add f, newMode := false }
  | _ => { d with newMode := false }

end Sys2Proof.Machine
end

