-- ==== Sys2Proof/Machine/Layout.lean ====
section
/-! DEFINITION. The effective layout: its derivation (R84, R85), its adoption (R87, R88), the LAYOUT item and the
events that derive anew (R86). -/

namespace Sys2Proof.Machine

/-! ### The derivation -/

/-- The set of positions for which a test holds. -/
def positionSet (f : Position → Bool) : PositionSet :=
  BitVec.ofNat 7 (((List.finRange 7).map fun i => (f i).toNat * 2 ^ i.val).sum)

/-- Whether a fault state is latched. -/
def FaultState.latched : FaultState → Bool
  | .ok => false
  | .retry => false
  | .latchedOc => true
  | .latchedDc => true

/-- R84: whether a position has a lane assigned to it that is not latched. -/
def lanePlays (lanes : Vector Lane 11) (p : Position) : Bool :=
  lanes.toList.any fun x => decide (positionOf x.assignment = some p) && !x.fault.latched

/-- R85: the delay in samples of an output at a distance, where the farthest output stands at `maxD`. -/
def delayOf (maxD distance : Nat) : Nat := ((maxD - distance) * 48000 + 17150) / 34300

/-- R84, R85: the layout record that the layout table, the crossover setting and the lane table give. -/
def deriveLayoutOf (entries : Vector PositionEntry 7) (sub : SubEntry) (crossover : Nat) (lanes : Vector Lane 11) :
    Layout :=
  let present := positionSet fun p => entries[p].present && lanePlays lanes p
  let bass := positionSet fun p => sub.present && present.getLsbD p.val && entries[p].small
  let far := ((List.finRange 7).map fun p => if present.getLsbD p.val then entries[p].distance else 0).foldl max
    (if sub.present then sub.distance else 0)
  { present := present
    sub := sub.present
    bass := bass
    crossover := if bass = 0 then none else some crossover
    delays := Vector.ofFn fun p => if present.getLsbD p.val then delayOf far entries[p].distance else 0
    subDelay := if sub.present then delayOf far sub.distance else 0
    valid := present.getLsbD 0 || present.getLsbD 1 }

/-! ### Adoption -/

/-- R87: the renderer with a layout adopted: lines whose length changes hold zeros, and filters start at 0 where a
position joins the bass-managed set and end at 0 where it leaves. -/
def Renderer.adopt (l : Layout) (r : Renderer) : Renderer :=
  { r with
    inForce := l
    lines := Vector.ofFn fun p =>
      if l.delays[p] = r.inForce.delays[p] then r.lines[p] else List.replicate l.delays[p] 0
    subLine := if l.subDelay = r.inForce.subDelay then r.subLine else List.replicate l.subDelay 0
    filters := Vector.ofFn fun p =>
      if l.bass.getLsbD p.val && r.inForce.bass.getLsbD p.val then r.filters[p] else 0 }

/-- R41: the distance delay lines cleared to zero, and the bass filter states with them (R90). -/
def Renderer.clearLines (r : Renderer) : Renderer :=
  Renderer.clearFilters
    { r with
      lines := Vector.ofFn fun p => List.replicate r.inForce.delays[p] 0
      subLine := List.replicate r.inForce.subDelay 0 }

/-- R87: the derived layout adopted. LAYOUT_EFFECTIVE and LAYOUT_INVALID come before the notices of the recomputation that a
changed distance holding causes (R97, notes/assumptions/72.md). -/
def Hub.adoptLayout (h : Hub) : Hub :=
  let new := h.renderer.derived
  let old := h.renderer.inForce
  if new = old then h
  else
    let g := h.makeRoom none (new.cells - old.cells)
    let a := { g with renderer := g.renderer.adopt new }
    let p := postIf (old.valid && !new.valid) (layoutInvalidNotice new) (post (layoutEffectiveNotice a.renderer) a)
    if new.cells = old.cells then p else p.recompute

/-- R87: the Zone Router applies the LAYOUT item. Item pending is cleared before the adoption, so its LAYOUT_EFFECTIVE shows
none pending (notes/assumptions/63.md). -/
def Hub.applyLayout (h : Hub) : Hub := Hub.adoptLayout { h with renderer := { h.renderer with itemPending := false } }

/-! ### The events that derive anew (R86) -/

/-- The cause of a derivation (R86). -/
inductive Cause where
  | controller
  | fault
deriving DecidableEq, Repr

/-- The layout that the tables give now. -/
def Hub.freshLayout (h : Hub) : Layout :=
  deriveLayoutOf h.renderer.entries h.renderer.sub h.renderer.crossover h.lanes

/-- R86: the derived layout written, the grants recomputed where the distance claim moves. -/
def Hub.rewriteDerived (l : Layout) (h : Hub) : Hub :=
  let g := { h with renderer := { h.renderer with derived := l } }
  if l.cells = h.renderer.derived.cells then g else g.recompute

/-- R86: what a derivation leads to: an item for a controller cause, the adoption at the next block start (at once
while the clock is stopped) for a fault cause; LAYOUT_EFFECTIVE where the derived layout changed. A controller cause that
leaves the derived layout as it was raises an item all the same where that layout differs from the one in force, as while
a fault-caused adoption waits (notes/assumptions/52.md). -/
def Hub.takeDerived (cause : Cause) (changed : Bool) (h : Hub) : Hub :=
  let r := h.renderer
  match cause with
  | .controller =>
    if r.derived ≠ r.inForce ∧ r.itemPending = false then
      let g := { h with renderer := { r with itemPending := true } }
      Hub.raiseItem (fun s => { s with layout := true }) Hub.applyLayout .main
        (postIf changed (layoutEffectiveNotice g.renderer) g)
    else postIf changed (layoutEffectiveNotice r) h
  | .fault =>
    if h.clock.running then
      postIf changed (layoutEffectiveNotice r) { h with renderer := { r with faultAdoption := true } }
    else Hub.adoptLayout (postIf changed (layoutEffectiveNotice r) h)

/-- R86: the derivation made anew on an event of a cause. -/
def Hub.deriveLayout (cause : Cause) (h : Hub) : Hub :=
  let l := h.freshLayout
  Hub.takeDerived cause (decide (l ≠ h.renderer.derived)) (h.rewriteDerived l)

/-- R86, R88: the fault-caused adoption taken at a block start. -/
def Hub.adoptForFault (h : Hub) : Hub := Hub.adoptLayout { h with renderer := { h.renderer with faultAdoption := false } }

end Sys2Proof.Machine
end

