-- ==== Sys2Proof/Machine/ZoneOps.lean ====
section
/-! DEFINITION. What the Zone Router does to a zone: the pending set applied (R53), the end of a fade-out (R54), the
reactions to a source (R55, R56), the ramps (R42 to R44) and the turning of its power (R46, R47). -/

namespace Sys2Proof.Machine

/-- R41: a zone's lip-sync line cleared; for MAIN the distance delay lines and the bass filters as well. -/
def Hub.clearLines (z : ZoneId) (h : Hub) : Hub :=
  let g := h.setZone z (h.zone z).clearLine
  match z with
  | .main => { g with renderer := g.renderer.clearLines }
  | _ => g

/-- R41, R70: the current source of a zone becomes `i`: ZONE_SOURCE, the lines cleared, and the decoder handed the
main zone's source. -/
def Hub.makeCurrent (src : Vector Source 8) (z : ZoneId) (i : SourceId) (h : Hub) : Hub :=
  let g := Hub.clearLines z (post (zoneSourceNotice z (some i)) (h.setZone z { h.zone z with current := some i }))
  match z with
  | .main => g.handover src i
  | _ => g

/-- R41: a zone enters OFF: the lines are cleared and, for MAIN, the decode source becomes absent (R70). -/
def Hub.zoneOff (z : ZoneId) (h : Hub) : Hub :=
  let g := Hub.clearLines z (h.enterZone z (h.zone z).turnOff)
  match z with
  | .main => { g with decoder := { g.decoder with source := none } }
  | _ => g

/-- R30: after a change in a zone's record the reference is derived again; Zones 2 and 3 have no effect on it. -/
def Hub.followMain (src : Vector Source 8) (z : ZoneId) (h : Hub) : Hub :=
  match z with
  | .main => h.deriveReference src
  | _ => h

/-- R53: the pending set becomes empty and each of its items is applied, in the order LIPSYNC, DECODE, LAYOUT
(notes/assumptions/39.md). The set is emptied first, so an item that the application itself raises, as where a LAYOUT
adoption moves the main zone's own grant, stays in it (notes/assumptions/61.md). -/
def Hub.applyItems (z : ZoneId) (h : Hub) : Hub :=
  let items := (h.zone z).pending
  let g := h.setZone z { h.zone z with pending := .none }
  let a := if items.lipsync then g.applyLipsync z else g
  let b := if items.decode then a.applyDecode else a
  if items.layout then b.applyLayout else b

/-- R54: the zone's current source and its next state at the end of a fade-out. -/
def Hub.leaveFade (src : Vector Source 8) (z : ZoneId) (purpose : Purpose) (h : Hub) : Hub :=
  let x := h.zone z
  match purpose with
  | .switch =>
    let g := if x.current = some x.selected then h.clearLines z else h.makeCurrent src z x.selected
    g.enterZone z ((g.zone z).fadeInOrWait (src[x.selected].isRunning))
  | .reconfigure =>
    let g := h.clearLines z
    g.enterZone z ((g.zone z).fadeInOrWait (runningRef src x.current))
  | .powerOff => h.zoneOff z

/-- R53, R54: the end of a zone's fade-out. Where the items applied send the zone into a fade again, ZONE_STATE is posted for
that too, and both show the zone as it then is (notes/assumptions/62.md). -/
def Hub.endFadeOut (src : Vector Source 8) (z : ZoneId) (h : Hub) : Hub :=
  match (h.zone z).state with
  | .fadingOut purpose =>
    Hub.followMain src z (Hub.postZoneState z (Hub.applyItems z (h.leaveFade src z purpose)))
  | _ => h

/-! ### Source events -/

/-- R55: a zone whose current source `i` leaves RUNNING. -/
def Hub.zoneSourceLeaves (src : Vector Source 8) (i : SourceId) (z : ZoneId) (h : Hub) : Hub :=
  let x := h.zone z
  if x.current = some i then
    match x.state with
    | .playing | .fadingIn => (h.enterZone z x.wait).postZoneState z
    | .fadingOut _ => Hub.endFadeOut src z (h.setZone z { x with gain := -1 })
    | .waiting | .off => h
  else h

/-- R56: a zone whose current source `i` enters RUNNING. -/
def Hub.zoneSourceEnters (i : SourceId) (z : ZoneId) (h : Hub) : Hub :=
  let x := h.zone z
  if x.current = some i ∧ x.state = .waiting then (h.enterZone z x.fadeIn).postZoneState z else h

/-- R55, R56, R72, R32: what the other blocks do when source `i` changes its state or its channel set; `src` holds
the source as it stands after the change. The Zone Router is taken first, then the decoder, then the clock
(notes/assumptions/9.md). -/
def Hub.sourceChanged (src : Vector Source 8) (i : SourceId) (was : Bool) (channelsChanged : Bool) (h : Hub) : Hub :=
  let now := src[i].isRunning
  let leaves := was && !now
  let enters := !was && now
  let a :=
    if leaves then
      Hub.zoneSourceLeaves src i .z3 (Hub.zoneSourceLeaves src i .z2 (Hub.zoneSourceLeaves src i .main h))
    else if enters then Hub.zoneSourceEnters i .z3 (Hub.zoneSourceEnters i .z2 (Hub.zoneSourceEnters i .main h))
    else h
  let b := if channelsChanged ∧ a.decoder.source = some i then a.rederive id src else a
  if leaves then b.referenceLeaves i else if enters then b.referenceEnters i else b

/-! ### Ramps -/

/-- A gain index moved towards a target by at most a step. -/
def stepTowards (step : Int) (x target : Int) : Int :=
  if x < target then min (x + step) target else max (x - step) target

/-- R42 to R44, R57: what an output block start does to a zone's record. -/
def Zone.blockStart (x : Zone) : Zone :=
  match x.state with
  | .fadingOut _ => { x with gain := max (-1) (x.gain - 4) }
  | .fadingIn => { x with gain := stepTowards 4 x.gain x.target }
  | .playing =>
    let g := stepTowards (if x.fast then 4 else 1) x.gain x.target
    { x with gain := g, fast := x.fast && decide (g ≠ x.target) }
  | .waiting => { x with noSignal := min 3000 (x.noSignal + 1) }
  | .off => x

/-- R42, R43, R57: the events that a zone's block start finds. -/
def Hub.zoneBlockStart (z : ZoneId) (h : Hub) : Hub :=
  let x := (h.zone z).blockStart
  let g := h.setZone z x
  match x.state with
  | .fadingOut _ => g.addDueIf (decide (x.gain = -1)) (.fadeOutEnd z)
  | .fadingIn => g.addDueIf (decide (x.gain = x.target)) (.fadeInEnd z)
  | .waiting => g.addDueIf (decide (x.noSignal = 3000) && !x.noSignalReported) (.noSignal z)
  | .playing | .off => g

/-- R53: the main zone's adoptions at a block start govern the block that begins there. -/
def Hub.decideForMain (src : Vector Source 8) (z : ZoneId) (h : Hub) : Hub :=
  match z with
  | .main => h.decideBlock src
  | _ => h

/-- R42: a fade-out that has reached −1 ends at its block start. -/
def Hub.takeFadeOutEnd (src : Vector Source 8) (z : ZoneId) (h : Hub) : Hub :=
  let x := h.zone z
  match x.state with
  | .fadingOut _ => if x.gain = -1 then (h.endFadeOut src z).decideForMain src z else h
  | _ => h

/-- R43: a fade-in that has reached its target puts the zone in PLAYING. -/
def Hub.takeFadeInEnd (z : ZoneId) (h : Hub) : Hub :=
  let x := h.zone z
  if x.state = .fadingIn ∧ x.gain = x.target then
    (h.enterZone z { x with state := .playing, fast := false }).postZoneState z
  else h

/-- R57: the 3,000th block start of a wait. -/
def Hub.takeNoSignal (z : ZoneId) (h : Hub) : Hub :=
  let x := h.zone z
  if x.state = .waiting ∧ x.noSignal = 3000 ∧ x.noSignalReported = false then
    post (zoneNoSignalNotice z x.current) (h.setZone z { x with noSignalReported := true })
  else h

/-! ### Power -/

/-- R46: the current source of a zone coming from OFF becomes the selected source, and the zone fades in or waits. -/
def Hub.startZone (src : Vector Source 8) (z : ZoneId) (h : Hub) : Hub :=
  let g := h.makeCurrent src z (h.zone z).selected
  g.enterZone z ((g.zone z).fadeInOrWait src[(h.zone z).selected].isRunning)

/-- R46: the Zone Router's part of turning a zone on, the reference derived after it (notes/assumptions/9.md). -/
def Hub.zonePowerOn (src : Vector Source 8) (z : ZoneId) (h : Hub) : Hub :=
  let x := h.zone z
  match x.power, x.state with
  | false, .off =>
    Hub.followMain src z (Hub.postZoneState z (Hub.startZone src z (h.setZone z { x with power := true }).recompute))
  | false, .fadingOut _ =>
    let g := Hub.postZoneState z (h.setZone z { x with power := true, state := .fadingOut .switch })
    Hub.followMain src z g.recompute
  | _, _ => h

/-- R47: the Zone Router's part of turning a zone off, the reference derived after it and its grants, and before the holder and
the lanes (notes/assumptions/9.md). -/
def Hub.zonePowerOff (src : Vector Source 8) (z : ZoneId) (h : Hub) : Hub :=
  let x := h.zone z
  let y := { x with power := false }
  match x.power, x.state with
  | true, .playing | true, .fadingIn =>
    let g := (h.enterZone z (y.fadeOut .powerOff)).postZoneState z
    Hub.followMain src z g.recompute
  | true, .fadingOut _ =>
    let g := (h.setZone z { y with state := .fadingOut .powerOff }).postZoneState z
    Hub.followMain src z g.recompute
  | true, .waiting =>
    let g := (Hub.zoneOff z (h.setZone z y)).postZoneState z
    Hub.followMain src z g.recompute
  | true, .off => h.setZone z y
  | false, _ => h

/-! ### Selection -/

/-- R48, R49: the Zone Router's part of SELECT_SOURCE where it is not refused. -/
def Hub.selectSource (src : Vector Source 8) (z : ZoneId) (i : SourceId) (h : Hub) : Hub :=
  let x := h.zone z
  let y := { x with selected := i }
  let tellSelected := fun g : Hub => if x.selected = i then g else g.postZoneState z
  match x.state with
  | .off => tellSelected (h.setZone z y)
  | .playing =>
    if x.current = some i ∧ x.selected = i then h
    else Hub.followMain src z ((h.enterZone z (y.fadeOut .switch)).postZoneState z)
  | .fadingIn => Hub.followMain src z ((h.enterZone z (y.fadeOut .switch)).postZoneState z)
  | .fadingOut p =>
    let g := h.setZone z { y with state := .fadingOut .switch }
    Hub.followMain src z (if x.selected = i ∧ p = .switch then g else g.postZoneState z)
  | .waiting =>
    if x.current = some i then tellSelected (h.setZone z y)
    else
      let g := (h.setZone z y).makeCurrent src z i
      let w := g.enterZone z ((g.zone z).fadeInOrWait src[i].isRunning)
      Hub.followMain src z (w.postZoneState z)

end Sys2Proof.Machine
end

