-- ==== Sys2Proof/Machine/LaneOps.lean ====
section
/-! DEFINITION. What the Lane Supervisor does: the relays (R109 to R112), trips and faults (R113 to R116), the
temperatures, the ceiling and the thermal trip (R119 to R121), the fan (R122 to R124) and the supply (R125). -/

namespace Sys2Proof.Machine

/-- The lane numbers 0 to 10 in their order. -/
def allLanes : List LaneId := List.finRange 11

/-- Something done for each lane, in lane order (notes/assumptions/73.md). -/
def Hub.eachLane (f : LaneId → Hub → Hub) (h : Hub) : Hub := allLanes.foldl (fun g l => f l g) h

/-- One LANE_STATE for a lane, with its values as they stand. -/
def Hub.postLaneState (l : LaneId) (h : Hub) : Hub := post (laneStateNotice l h.lanes[l]) h

/-! ### The relay -/

/-- R109, R111: the lane record at OPEN: the timer at 0, the release ramp absent, a pending target applied. -/
def Lane.toOpen (x : Lane) : Lane :=
  { x with relay := .open, timer := 0, ramp := none, assignment := x.pending.getD x.assignment, pending := none }

/-- R109, R111: a relay put in OPEN: the lane's output is zero from that moment, and an applied assignment is
reported to the renderer. Nothing is posted for the lane here, and its closing conditions are not examined. -/
def Hub.openRelay (l : LaneId) (h : Hub) : Hub :=
  let x := h.lanes[l]
  let g := h.setLane l x.toOpen
  let s := { g with renderer := { g.renderer with laneOut := g.renderer.laneOut.set l 0 } }
  if x.pending.isSome then s.deriveLayout .controller else s

/-- R113: the lane record after a trip: the history, the counter and the fault state. -/
def Lane.tripped (x : Lane) : Lane :=
  let trips := (x.trips.filter fun age => decide (age < 60000)) ++ [0]
  { x with
    trips := trips
    tripCount := bump x.tripCount
    retryTimer := 0
    fault := if x.fault = .latchedDc then .latchedDc else if 3 ≤ trips.length then .latchedOc else .retry }

/-- R113: a trip: the relay opens at once, the trip is recorded, LANE_STATE and LANE_FAULT are posted, and a lane
that latches is reported to the renderer. R109 and R113 give the report of a pending assignment that the opening applies
and the change to LATCHED_OC no order: the report comes first, with the lane not yet latched, so that it can raise a LAYOUT
item and fade the main zone, and the lane latches after it (notes/assumptions/77.md, DESIGN CHOICE). -/
def Hub.trip (l : LaneId) (h : Hub) : Hub :=
  let g := h.openRelay l
  let y := g.lanes[l].tripped
  let p := post (laneFaultNotice l y) (post (laneStateNotice l y) (g.setLane l y))
  if y.fault = .latchedOc then p.deriveLayout .fault else p

/-- R110, R113: a relay enters CLOSING; an asserted fault input trips it at once. -/
def Hub.enterClosing (l : LaneId) (h : Hub) : Hub :=
  let g := Hub.postLaneState l (h.setLane l { h.lanes[l] with relay := .closing, timer := 0 })
  if h.lanes[l].faultInput then g.trip l else g

/-- R110: a relay enters OPENING with its timer at 0 and no release ramp. -/
def Hub.enterOpening (l : LaneId) (h : Hub) : Hub :=
  Hub.postLaneState l (h.setLane l { h.lanes[l] with relay := .opening, timer := 0, ramp := none })

/-- R111: the opening sequence of a CLOSED lane begins, unless it is under way. -/
def Lane.beginRamp (x : Lane) : Lane := if x.ramp.isSome then x else { x with ramp := some 0 }

/-- R110, R111: the closing conditions of a lane examined. -/
def Hub.examine (l : LaneId) (h : Hub) : Hub :=
  let ok := (h.closing l).all
  match h.lanes[l].relay, ok with
  | .open, true => h.enterClosing l
  | .closing, false => h.enterOpening l
  | .closed, false => h.setLane l h.lanes[l].beginRamp
  | _, _ => h

/-- The closing conditions of every lane examined, in lane order. -/
def Hub.examineAll (h : Hub) : Hub := h.eachLane Hub.examine

/-- R109: a relay enters OPEN: the renderer's report of an applied assignment, LANE_STATE after it
(notes/assumptions/45.md), and the closing conditions examined under the assignment it then has. -/
def Hub.enterOpen (l : LaneId) (h : Hub) : Hub := Hub.examine l ((h.openRelay l).postLaneState l)

/-- R111: an immediate opening; a relay already OPEN stays OPEN. -/
def Hub.openAtOnce (l : LaneId) (h : Hub) : Hub := if h.lanes[l].relay = .open then h else h.enterOpen l

/-- R112: what a lane's output delivers for a result of the output stage. -/
def Lane.deliver (x : Lane) (result : Sample) : Sample :=
  match x.relay, x.ramp with
  | .closed, none | .closed, some 0 => result
  | .closed, some k => roundedProduct result ((8 - k : Nat) * 4096)
  | _, _ => 0

/-! ### Assignment (R107 to R109) -/

/-- R109: an assignment changed at once while the relay is OPEN: LANE_STATE first, then the renderer's report and its
notices (notes/assumptions/45.md). -/
def Hub.assignNow (l : LaneId) (t : Fin 12) (h : Hub) : Hub :=
  Hub.examine l (Hub.deriveLayout .controller (Hub.postLaneState l (h.setLane l { h.lanes[l] with assignment := t })))

/-- R108: an ASSIGN_LANE that passes the checks of R107. -/
def Hub.assign (l : LaneId) (t : Fin 12) (h : Hub) : Hub :=
  let x := h.lanes[l]
  let held := { x with pending := some t }
  if t = x.assignment then
    if x.pending = none then h else Hub.postLaneState l (h.setLane l { x with pending := none })
  else
    match x.relay with
    | .open => h.assignNow l t
    | .closed =>
      let g := h.setLane l held.beginRamp
      if x.pending = some t then g else g.postLaneState l
    | .closing => Hub.enterOpening l (h.setLane l held)
    | .opening => if x.pending = some t then h else Hub.postLaneState l (h.setLane l held)

/-! ### Counts of a block start (R110, R111, R114) -/

/-- R110, R111, R114: a lane's timers, its release ramp and its trip ages at an output block start. -/
def Lane.blockStart (x : Lane) : Lane :=
  { x with
    timer :=
      match x.relay with
      | .closing => min 50 (x.timer + 1)
      | .opening => min 20 (x.timer + 1)
      | _ => x.timer
    ramp := x.ramp.map fun k => min 9 (k + 1)
    retryTimer := if x.fault = .retry then min 2000 (x.retryTimer + 1) else x.retryTimer
    trips := x.trips.map fun age => min 60000 (age + 1) }

/-- R110, R111, R114: the events that a lane's block start finds. The end of a retry is found before a trip's expiry, so
its LANE_FAULT still counts the trip (notes/assumptions/53.md). -/
def Hub.laneBlockStart (l : LaneId) (h : Hub) : Hub :=
  let x := h.lanes[l].blockStart
  let g := h.setLane l x
  let a := g.addDueIf (decide (x.relay = .closing ∧ x.timer = 50)) (.relayClosed l)
  let b := a.addDueIf (decide (x.ramp = some 9)) (.rampEnd l)
  let c := b.addDueIf (decide (x.relay = .opening ∧ x.timer = 20)) (.relayOpened l)
  let d := c.addDueIf (decide (x.fault = .retry ∧ x.retryTimer = 2000)) (.retryEnd l)
  d.addDueIf (x.trips.any fun age => decide (60000 ≤ age)) (.tripExpiry l)

/-- R110: the 50th block start in CLOSING. -/
def Hub.takeRelayClosed (l : LaneId) (h : Hub) : Hub :=
  let x := h.lanes[l]
  if x.relay = .closing ∧ x.timer = 50 then
    Hub.postLaneState l (h.setLane l { x with relay := .closed, timer := 0, ramp := none })
  else h

/-- R111: the ninth block start of the opening sequence. -/
def Hub.takeRampEnd (l : LaneId) (h : Hub) : Hub :=
  if h.lanes[l].relay = .closed ∧ h.lanes[l].ramp = some 9 then h.enterOpening l else h

/-- R111: the 20th block start in OPENING. -/
def Hub.takeRelayOpened (l : LaneId) (h : Hub) : Hub :=
  if h.lanes[l].relay = .opening ∧ h.lanes[l].timer = 20 then h.enterOpen l else h

/-- R114: the 2,000th block start in RETRY. -/
def Hub.takeRetryEnd (l : LaneId) (h : Hub) : Hub :=
  let x := h.lanes[l]
  if x.fault = .retry ∧ x.retryTimer = 2000 then
    let y := { x with fault := .ok, retryTimer := 0 }
    Hub.examine l (post (laneFaultNotice l y) (h.setLane l y))
  else h

/-- R114: the trips whose age has reached 60,000 leave the history. -/
def Hub.takeTripExpiry (l : LaneId) (h : Hub) : Hub :=
  h.setLane l { h.lanes[l] with trips := h.lanes[l].trips.filter fun age => decide (age < 60000) }

/-! ### Faults (R113, R115, R116) -/

/-- The level that a lane's fault input takes, which trips nothing by itself. -/
def Hub.setFaultInput (l : LaneId) (level : Bool) (h : Hub) : Hub :=
  h.setLane l { h.lanes[l] with faultInput := level }

/-- R113: a fault input that becomes asserted while its lane's relay is not OPEN trips the lane. -/
def Hub.faultInput (l : LaneId) (level : Bool) (h : Hub) : Hub :=
  let x := h.lanes[l]
  let g := h.setFaultInput l level
  if level && !x.faultInput && !decide (x.relay = .open) then g.trip l else g

/-- R115: a reading added to a lane's DC window, the oldest leaving a window that would exceed 256. -/
def Lane.addReading (r : Int) (x : Lane) : Lane :=
  if 256 ≤ x.dcWindow.length then
    { x with dcWindow := x.dcWindow.drop 1 ++ [r], dcSum := x.dcSum + r - x.dcWindow.headD 0 }
  else { x with dcWindow := x.dcWindow ++ [r], dcSum := x.dcSum + r }

/-- R115: the DC test of a lane. -/
def Lane.dcFails (x : Lane) : Bool :=
  decide (x.dcWindow.length = 256) && (decide (25600 < x.dcSum) || decide (x.dcSum < -25600))

/-- R115: a reading of a lane's DC channel. -/
def Hub.dcReading (l : LaneId) (code : BitVec 12) (h : Hub) : Hub :=
  let x := h.lanes[l]
  if x.fault.latched then h
  else
    let y := x.addReading (code.toNat - 2048)
    if y.dcFails then
      let z := { y with fault := .latchedDc, retryTimer := 0 }
      Hub.examine l (Hub.deriveLayout .fault (post (laneFaultNotice l z) (h.setLane l z)))
    else h.setLane l y

/-- R116: a fault state brought to OK, its history and DC window emptied. -/
def Lane.healed (x : Lane) : Lane := { x with fault := .ok, retryTimer := 0, trips := [], dcWindow := [], dcSum := 0 }

/-- R116: CLEAR_LANE_FAULT, `counters` saying whether the counters are set to 0; they are set before LANE_FAULT is
posted, so the notice shows a trip counter of 0 (notes/assumptions/55.md). -/
def Hub.clearFault (l : LaneId) (counters : Bool) (h : Hub) : Hub :=
  let x := h.lanes[l]
  let y := if counters then { x with clips := 0, tripCount := 0 } else x
  let g := h.setLane l y
  let healed := post (laneFaultNotice l y.healed) (h.setLane l y.healed)
  match x.fault with
  | .latchedOc | .latchedDc => Hub.examine l (Hub.deriveLayout .fault healed)
  | .retry => Hub.examine l healed
  | .ok => g

/-! ### Temperature (R119 to R122) -/

/-- R119: a heat-sink temperature from its code. -/
def temperatureOf (code : BitVec 12) : Int := (code.toNat * 165 / 4096 : Nat) - 40

/-- R119: the working temperature. -/
def workingOf (t1 t2 : Option Int) (stall : Bool) : Option Int :=
  let shift : Int := if stall then 10 else 0
  match t1, t2 with
  | some a, some b => some (max a b + shift)
  | some a, none => some (a + shift)
  | none, some b => some (b + shift)
  | none, none => none

/-- R120: the ceiling target. -/
def ceilingTargetOf : Option Int → Nat
  | none => 184
  | some t => if t ≤ 79 then 184 else if t ≤ 89 then (184 - 4 * (t - 79)).toNat else 144

/-- R122: the requested fan duty. -/
def dutyOf : Option Int → Nat
  | none => 0
  | some t => if t < 45 then 0 else if t < 75 then (307 + (t - 45) * 716 / 30).toNat else 1023

/-- R121: the thermal trip as a working temperature leaves it. -/
def tripOf (trip : Bool) : Option Int → Bool
  | none => trip
  | some t => if trip then decide (70 ≤ t) else decide (90 ≤ t)

/-- R119 to R122: the working temperature recomputed from T1, T2 and the stall, and what follows from it. -/
def Hub.judgeTemperature (h : Hub) : Hub :=
  let p := h.protection
  let t := workingOf p.thermal.t1 p.thermal.t2 p.fan.stall
  let target := ceilingTargetOf t
  let trip := tripOf p.thermal.trip t
  let q :=
    { p with
      thermal := { p.thermal with working := t, ceilingTarget := target, trip := trip }
      fan := { p.fan with requested := dutyOf t } }
  let g :=
    postIf (decide (target ≠ p.thermal.ceilingTarget) || decide (trip ≠ p.thermal.trip)) (thermalNotice q)
      { h with protection := q }
  match p.thermal.trip, trip with
  | false, true => g.eachLane Hub.openAtOnce
  | true, false => g.examineAll
  | _, _ => g

/-- R119: a temperature update. -/
def Hub.takeTemperature (h : Hub) : Hub :=
  let p := h.protection
  Hub.judgeTemperature
    { h with
      protection :=
        { p with thermal := { p.thermal with t1 := p.sense[11].map temperatureOf, t2 := p.sense[12].map temperatureOf } } }

/-- R120: the current ceiling moved by one towards its target. -/
def Thermal.stepCeiling (t : Thermal) : Thermal :=
  { t with
    ceiling :=
      if t.ceiling < t.ceilingTarget then t.ceiling + 1
      else if t.ceilingTarget < t.ceiling then t.ceiling - 1
      else t.ceiling }

/-! ### The fan (R123, R124) -/

/-- R123: where the drive stands in its period of 2,046 counts. -/
def Fan.position (f : Fan) : Nat := if f.rising then f.pwm else 2046 - f.pwm

/-- R123: the drive moved on by a number of crystal periods. -/
def Fan.advance (n : Nat) (f : Fan) : Fan :=
  let p := (f.position + n) % 2046
  if p ≤ 1023 then { f with pwm := p, rising := true } else { f with pwm := 2046 - p, rising := false }

/-- R123: whether the drive passes or reaches its lowest point in the next `n` crystal periods. -/
def Fan.reachesZero (n : Nat) (f : Fan) : Bool := decide (2046 ≤ f.position + n)

/-- R123: the requested duty put in force. -/
def Fan.adopt (f : Fan) : Fan := { f with duty := f.requested }

/-- R123: the requested duty put in force at the lowest point of the drive's period. -/
def Hub.adoptDuty (h : Hub) : Hub := { h with protection := { h.protection with fan := h.protection.fan.adopt } }

/-- R123: one crystal period of the drive, the requested duty put in force at the lowest point of its period. -/
def Fan.tick (f : Fan) : Fan := if f.reachesZero 1 then (f.advance 1).adopt else f.advance 1

/-- R123: the crystal periods of the drive up to the next lowest point of its period. -/
def Fan.runToZero (f : Fan) : Fan := (f.advance (2046 - f.position)).adopt

/-- The hub with its fan record changed. -/
def Hub.onFan (f : Fan → Fan) (h : Hub) : Hub := { h with protection := { h.protection with fan := f h.protection.fan } }

/-- R123: one crystal period while the Sample Clock Unit is stopped, when no sample period stands for it; the drive
runs on (notes/assumptions/10.md). -/
def Hub.crystalTick (h : Hub) : Hub := if h.clock.running then h else h.onFan Fan.tick

/-- R124: a tachometer pulse received while the Sample Clock Unit runs. -/
def Hub.tachPulse (h : Hub) : Hub :=
  if h.clock.running then
    { h with protection := { h.protection with fan := { h.protection.fan with pulses := bump h.protection.fan.pulses } } }
  else h

/-- R124: the fan's part of an output block start; the 1,000th block start leaves the position at 1,000 until the
window's end is taken. -/
def Fan.blockStart (f : Fan) : Fan :=
  { f with dutyHeld := f.dutyHeld && decide (307 ≤ f.duty), windowPos := min 1000 (f.windowPos + 1) }

/-- R124: the end of a window. -/
def Fan.endWindow (f : Fan) : Fan :=
  let run := if f.dutyHeld ∧ f.pulses < 5 then min 3 (f.stallRun + 1) else 0
  { f with
    windowPos := 0
    lastPulses := f.pulses
    pulses := 0
    dutyHeld := true
    stallRun := run
    stall := if f.stall then decide (f.pulses < 5) else decide (run = 3) }

/-- R124: the end of a window, and what a declared or cleared stall leads to. -/
def Hub.takeFanWindow (h : Hub) : Hub :=
  let f := h.protection.fan
  if f.windowPos = 1000 then
    let e := f.endWindow
    let g := { h with protection := { h.protection with fan := e } }
    if e.stall = f.stall then g else Hub.judgeTemperature (post (fanStallNotice e) g)
  else h

/-! ### Sense conversions (R118, R125) -/

/-- R125: a conversion of the supply's channel. -/
def Hub.supplyReading (code : BitVec 12) (h : Hub) : Hub :=
  let s := h.protection.supply
  let with_ := fun t : Supply => { h with protection := { h.protection with supply := t } }
  if s.low then
    if code.toNat < 2700 then with_ { s with goodRun := 0 }
    else if s.goodRun + 1 < 500 then with_ { s with goodRun := s.goodRun + 1 }
    else
      let t : Supply := { low := false, goodRun := 500 }
      Hub.examineAll (post (supplyNotice t code) (with_ t))
  else if code.toNat < 2600 then
    let t : Supply := { low := true, goodRun := 0 }
    Hub.eachLane Hub.openAtOnce (post (supplyNotice t code) (with_ t))
  else h

/-- R118: the channel that the rotation converts after one; none is left after channel 13. -/
def channelAfter (c : SenseChannel) : Option SenseChannel := if h : c.val + 1 < 14 then some ⟨c.val + 1, h⟩ else none

/-- R118: a completed conversion of a channel, once a block in the order 0 to 13: of the channel that the rotation in
progress converts next. No other channel completes one, and none does while the Sample Clock Unit is stopped
(notes/assumptions/17.md). -/
def Hub.conversion (c : SenseChannel) (code : BitVec 12) (h : Hub) : Hub :=
  if h.clock.running ∧ h.protection.nextChannel = some c then
    let g :=
      { h with
        protection := { h.protection with sense := h.protection.sense.set c (some code), nextChannel := channelAfter c } }
    if l : c.val < 11 then g.dcReading ⟨c.val, l⟩ code
    else if c.val = 13 then g.supplyReading code
    else g
  else h

end Sys2Proof.Machine
end

