-- ==== Sys2Proof/Machine/StationOps.lean ====
section
/-! DEFINITION. The Station Data Decoder: the words of the record (R155 to R161), its clearing (R156), the weak run
and the back-off (R162), and the reading of a follow check's words (R163, R164). -/

namespace Sys2Proof.Machine

/-! ### Words (12.5) -/

/-- 12.5: the fields of a station data word's data bits. -/
structure StationWord where
  payload : BitVec 16
  generation : Bool
  index : Nat
  kind : Nat
deriving DecidableEq, Repr

/-- 12.5: data bits 15 to 0, 16, 21 to 17 and 24 to 22. -/
def stationWord (d : BitVec 26) : StationWord :=
  ⟨d.setWidth 16, d.getLsbD 16, (d.toNat / 2 ^ 17) % 32, (d.toNat / 2 ^ 22) % 8⟩

/-- 8.1: the two characters of a segment, the high byte first. -/
def characters (v : BitVec 16) : List Byte := [(v >>> 8).setWidth 8, v.setWidth 8]

/-! ### The record as a whole -/

/-- The hub with its station data record replaced. -/
def Hub.setStation (x : Station) (h : Hub) : Hub := { h with station := x }

/-- R156: the station data cleared; the data frequency and the counters are kept. -/
def Station.clear (x : Station) : Station :=
  { Station.reset with freq := x.freq, corrected := x.corrected, rejected := x.rejected, ignored := x.ignored }

/-- R155: a word that its rule declares ignored. -/
def Station.ignore (x : Station) : Station := { x with ignored := bump x.ignored }

/-- R142: an entry of the held frequency takes what the decoder adopts, while the radio is IDLE. -/
def Hub.fillEntry (f : StationEntry → StationEntry) (h : Hub) : Hub :=
  if h.radio.state = .idle then
    { h with
      radio :=
        { h.radio with stations := h.radio.stations.map fun e => if e.freq = h.radio.held then f e else e } }
  else h

/-! ### Station code (R157) -/

/-- R157: a code adopted. -/
def Hub.adoptCode (code : BitVec 16) (x : Station) (h : Hub) : Hub :=
  post (stationCodeNotice code x.freq)
    (Hub.fillEntry (fun e => { e with code := some code })
      (h.setStation { x with code := some code, candidate := none }))

/-- R157: a kind 0 word. -/
def Hub.codeWord (v : BitVec 16) (h : Hub) : Hub :=
  let x := h.station
  match x.code with
  | none => if x.candidate = some v then h.adoptCode v x else h.setStation { x with candidate := some v }
  | some c =>
    if c = v then h.setStation { x with candidate := none }
    else if x.candidate = some v then h.adoptCode v x.clear
    else h.setStation { x with candidate := some v }

/-! ### Station name (R158) -/

/-- R158: what a word of value `v` does to its segment. -/
def NameSegment.take (v : BitVec 16) (g : NameSegment) : NameSegment :=
  if g.confirmed = some v then { g with candidate := none }
  else if g.candidate = some v then ⟨some v, none⟩
  else { g with candidate := some v }

/-- R158: the name that six confirmed segments spell. -/
def spelledName (segments : Vector NameSegment 6) : Option (List Byte) :=
  if segments.toList.all fun g => g.confirmed.isSome then
    some (segments.toList.flatMap fun g => characters (g.confirmed.getD 0))
  else none

/-- R158: the test of the name after a word that confirms or changes a segment. -/
def Hub.commitName (h : Hub) : Hub :=
  match spelledName h.station.segments with
  | none => h
  | some name =>
    if h.station.name = some name then h
    else
      post (stationNameNotice h.station.freq)
        (Hub.fillEntry (fun e => { e with name := some name }) (h.setStation { h.station with name := some name }))

/-- R158: a kind 1 word. -/
def Hub.nameWord (i : Nat) (v : BitVec 16) (h : Hub) : Hub :=
  let x := h.station
  if l : i < 6 then
    let g := x.segments[i].take v
    let r := h.setStation { x with segments := x.segments.set i g }
    if g.confirmed = x.segments[i].confirmed then r else r.commitName
  else h.setStation x.ignore

/-! ### Station text (R159) -/

/-- R159: whether a received segment holds the end character 0x0D. -/
def holdsEnd : Option (BitVec 16) → Bool
  | none => false
  | some v => (characters v).contains 0x0D

/-- R159: the complete text that the received segments make, if they make one. -/
def completeText (segments : List (Option (BitVec 16))) : Option (List Byte) :=
  let needed :=
    match segments.findIdx? holdsEnd with
    | some j => segments.take (j + 1)
    | none => segments
  if needed.all Option.isSome then
    some ((needed.flatMap fun s => characters (s.getD 0)).takeWhile fun c => decide (c ≠ 0x0D))
  else none

/-- R159: the record with the generation flag of a word examined. -/
def Station.examineGeneration (flag : Bool) (x : Station) : Station :=
  match x.generation with
  | none => { x with generation := some flag }
  | some g => if g = flag then x else { x with generation := some flag, textSegments := Vector.replicate 24 none }

/-- R159: the test of the text after a kind 2 word of generation `flag`. -/
def Hub.commitText (flag : Bool) (h : Hub) : Hub :=
  match completeText h.station.textSegments.toList with
  | none => h
  | some text =>
    if h.station.text = some text then h
    else post (stationTextNotice text.length flag) (h.setStation { h.station with text := some text })

/-- R159: a kind 2 word. -/
def Hub.textWord (i : Nat) (flag : Bool) (v : BitVec 16) (h : Hub) : Hub :=
  if l : i < 24 then
    let x := h.station.examineGeneration flag
    Hub.commitText flag (h.setStation { x with textSegments := x.textSegments.set i (some v) })
  else h.setStation h.station.ignore

/-! ### Alternative frequencies, clock, category (R160, R161) -/

/-- R160: the frequency of an alternative-frequency code. -/
def alternativeOf (code : Nat) : Option Nat := if 1 ≤ code ∧ code ≤ 205 then some (87500 + 100 * code) else none

/-- A number inserted at its place in an ascending list that does not hold it. -/
def insertAscending (x : Nat) : List Nat → List Nat
  | [] => [x]
  | y :: ys => if x < y then x :: y :: ys else y :: insertAscending x ys

/-- R160: a code taken into the alternative list, the held frequency passed over. -/
def addAlternative (held : Freq) (code : Nat) (list : List Nat) : List Nat :=
  match alternativeOf code with
  | none => list
  | some f => if f ∈ list ∨ held = ⟨.fm, f⟩ ∨ 10 ≤ list.length then list else insertAscending f list

/-- R160: a kind 3 word. -/
def Hub.alternativeWord (v : BitVec 16) (h : Hub) : Hub :=
  let x := h.station
  let high := v.toNat / 256
  let low := v.toNat % 256
  if 205 < high ∧ 205 < low then h.setStation x.ignore
  else
    h.setStation
      { x with alternatives := addAlternative h.radio.held low (addAlternative h.radio.held high x.alternatives) }

/-- R161: a kind 4 word. -/
def Hub.clockWord (v : BitVec 16) (h : Hub) : Hub :=
  let c : StationClock := ⟨v.toNat % 2048, (v.toNat / 2048) % 8⟩
  if c.minutes ≤ 1439 ∧ 1 ≤ c.weekday then
    postIf (decide (h.station.clock ≠ some c)) (stationClockNotice c) (h.setStation { h.station with clock := some c })
  else h.setStation h.station.ignore

/-- R161: a kind 5 word. -/
def Hub.categoryWord (v : BitVec 16) (h : Hub) : Hub :=
  let c := v.toNat % 256
  if c ≤ 31 then h.setStation { h.station with category := some c } else h.setStation h.station.ignore

/-! ### Taking in words (R155) -/

/-- R155: a word that has passed the word check code, taken by its kind. -/
def Hub.stationData (w : StationWord) (h : Hub) : Hub :=
  match w.kind, h.station.code with
  | 0, _ => h.codeWord w.payload
  | 1, some _ => h.nameWord w.index w.payload
  | 2, some _ => h.textWord w.index w.generation w.payload
  | 3, some _ => h.alternativeWord w.payload
  | 4, some _ => h.clockWord w.payload
  | 5, some _ => h.categoryWord w.payload
  | _, _ => h.setStation h.station.ignore

/-- R155: the counters after a word is checked. -/
def Station.count (c : WordCheck) (x : Station) : Station :=
  match c with
  | .clean _ => x
  | .corrected _ => { x with corrected := bump x.corrected }
  | .uncorrectable => { x with rejected := bump x.rejected }

/-- The data bits of a word that passes its check. -/
def WordCheck.data? : WordCheck → Option (BitVec 26)
  | .clean d => some d
  | .corrected d => some d
  | .uncorrectable => none

/-- R155: one word of a poll's reply handed to the record. -/
def Hub.takeWord (w : CodeWord) (h : Hub) : Hub :=
  let c := checkWord w
  let g := h.setStation (h.station.count c)
  match c.data? with
  | none => g
  | some d => g.stationData (stationWord d)

/-- R155: the words of a reply handed to the record one after another. -/
def Hub.takeWords (ws : List CodeWord) (h : Hub) : Hub := ws.foldl (fun g w => g.takeWord w) h

/-! ### A follow check's words (R163) -/

/-- What a follow check finds in the words of one reply. -/
inductive Finding where
  | nothing
  | match_
  | different
deriving DecidableEq, Repr

/-- R163: what one word that passes its check shows. -/
def findingOf (code : Nat) (w : StationWord) : Finding :=
  if w.kind ≠ 0 then .nothing else if w.payload.toNat = code then .match_ else .different

/-- R163: the first thing that the words of a reply show, in the order received. -/
def examineWords (code : Nat) : List CodeWord → Finding
  | [] => .nothing
  | w :: ws =>
    match (checkWord w).data?.map fun d => findingOf code (stationWord d) with
    | none => examineWords code ws
    | some .nothing => examineWords code ws
    | some f => f

/-- R163: the counters after the words of a check's reply. -/
def Station.countWords (ws : List CodeWord) (x : Station) : Station := ws.foldl (fun y w => y.count (checkWord w)) x

/-- R164: the alternative list after a switch: the candidate removed and the original added in its place. -/
def switchedList (original candidate : Nat) (list : List Nat) : List Nat :=
  let rest := list.filter fun f => decide (f ≠ candidate)
  if original ∈ rest then rest else insertAscending original rest

/-- R164: the record after a switch from the original to the candidate frequency. -/
def Station.switched (original candidate : Nat) (x : Station) : Station :=
  { x with
    freq := some ⟨.fm, candidate⟩
    alternatives := switchedList original candidate x.alternatives
    backOff := Config.followBackOff }

/-! ### The weak run and the back-off (R162) -/

/-- R162: a poll's quality report at the follow watch. -/
def Station.watch (level : Nat) (x : Station) : Station :=
  { x with weakRun := if level < 25 then some (x.weakRun.getD 0) else none }

/-- R162: the back-off and, in IDLE, the weak run at an output block start. -/
def Station.blockStart (idle : Bool) (x : Station) : Station :=
  { x with
    backOff := x.backOff - 1
    weakRun := if idle then x.weakRun.map fun n => min 2000 (n + 1) else x.weakRun }

/-- R162: the conditions under which a follow trigger is honoured. -/
def Hub.followHonoured (h : Hub) : Bool :=
  decide (h.radio.state = .idle) && decide (h.radio.held.band = .fm) && h.radio.online && h.radio.options.follow &&
    h.station.code.isSome && !h.station.alternatives.isEmpty && decide (h.station.weakRun = some 2000) &&
    decide (h.station.backOff = 0)

end Sys2Proof.Machine
end

