-- ==== Sys2Proof/Machine/RadioOps.lean ====
section
/-! DEFINITION. The Radio Unit: the holder (R133), operations and their phases (R135 to R141, R163 to R166), the
station list (R142), the tuner link (R147 to R150). -/

namespace Sys2Proof.Machine

/-- The hub with its radio record replaced. -/
def Hub.setRadio (x : Radio) (h : Hub) : Hub := { h with radio := x }

/-! ### The holder (R133) -/

/-- R133: a zone qualifies while its power setting is ON and its selected source is TUN. -/
def Hub.qualifies (h : Hub) (z : ZoneId) : Bool := (h.zone z).power && decide ((h.zone z).selected = tunerId)

/-- R133: the holder that the zone records give. -/
def Hub.desiredHolder (h : Hub) : Option ZoneId :=
  let first :=
    if h.qualifies .main then some .main else if h.qualifies .z2 then some .z2
    else if h.qualifies .z3 then some .z3 else none
  match h.radio.holder with
  | some z => if h.qualifies z then some z else first
  | none => first

/-- R133: the holder derived again. -/
def Hub.deriveHolder (h : Hub) : Hub :=
  let n := h.desiredHolder
  postIf (decide (n ≠ h.radio.holder)) (radioHolderNotice n) (h.setRadio { h.radio with holder := n })

/-! ### Operations -/

/-- R150: an exchange that belonged to an operation's step once the operation has ended or moved on. -/
def Exchange.orphan (e : Exchange) : Exchange := { e with use := if e.use = .step then .stale else e.use }

/-- R132, R162: the unit enters, or goes on in, a muted state with an operation: waiting polls are discarded, the
weak run ends, and an exchange made for an earlier step no longer belongs to it. -/
def Hub.startOperation (state : RadioState) (op : Operation) (h : Hub) : Hub :=
  { h with
    radio :=
      { h.radio with
        state := state
        op := some op
        mute := true
        dataWaiting := false
        qualityWaiting := false
        exchange := h.radio.exchange.map Exchange.orphan }
    station := { h.station with weakRun := none } }

/-- R136: the unit enters TUNING, the operation's count at 0 (notes/assumptions/79.md). -/
def Hub.enterTuning (kind : OpKind) (phase : Phase) (h : Hub) : Hub := h.startOperation .tuning ⟨kind, phase, 0⟩

/-- R132, R136: the unit enters IDLE at the end of an operation. -/
def Hub.enterIdle (h : Hub) : Hub :=
  h.setRadio { h.radio with state := .idle, op := none, mute := false, dataCount := 0, qualityCount := 0 }

/-- R136: RADIO_TUNED, with the held frequency and the report just taken. -/
def Hub.postTuned (q : Quality) (h : Hub) : Hub := post (radioTunedNotice h.radio.held q) h

/-- The operation moved on to a phase, its count at 0. R136 and R163 say so of SETTLE and WAIT alone; that the count, which
GET_RADIO carries in every phase (R152), is 0 in every other phase too is the model's choice (notes/assumptions/79.md,
DESIGN CHOICE). -/
def Hub.toPhase (op : Operation) (phase : Phase) (h : Hub) : Hub :=
  h.setRadio { h.radio with op := some { op with phase := phase, count := 0 } }

/-- R141: the entries of a band that the station list holds. -/
def Radio.countOf (b : Band) (r : Radio) : Nat := (r.stations.filter fun e => decide (e.freq.band = b)).length

/-- R164 to R166: the back-off that a follow check which ends sets. -/
def Hub.setBackOff (h : Hub) : Hub := h.setStation { h.station with backOff := Config.followBackOff }

/-- What the operation in flight posts or sets when something ends it early: a seek or scan its notice (R138, R141),
a follow check the back-off (R166). -/
def Hub.endOperation (outcome : SearchOutcome) (h : Hub) : Hub :=
  match h.radio.op.map Operation.kind with
  | some (.seek z _ start _ _) => post (seekDoneNotice z outcome start) h
  | some (.scan z b _) => post (scanDoneNotice z outcome (h.radio.countOf b)) h
  | some (.follow _ _ _ _ _) => h.setBackOff
  | _ => h

/-- R135, R144: the radio moved to a station for a zone. -/
def Hub.tuneTo (z : ZoneId) (f : Freq) (h : Hub) : Hub :=
  let g := h.setRadio { h.radio with held := f }
  match h.radio.state, h.radio.op with
  | .off, _ => g
  | .tuning, some ⟨_, .status, _⟩ | .tuning, some ⟨_, .blend, _⟩ => g
  | _, _ => (g.endOperation .cancelled).enterTuning (.request z) .set

/-- R137: a seek taken. -/
def Hub.startSeek (z : ZoneId) (up : Bool) (h : Hub) : Hub :=
  let start := h.radio.held
  Hub.startOperation .seeking ⟨.seek z up start (h.radio.plan.next start.band up start.khz) 0, .set, 0⟩
    (h.endOperation .cancelled)

/-- R140: a scan taken. -/
def Hub.startScan (z : ZoneId) (b : Band) (h : Hub) : Hub :=
  let g := h.endOperation .cancelled
  let r := { g.radio with stations := g.radio.stations.filter fun e => decide (e.freq.band ≠ b) }
  Hub.startOperation .scanning ⟨.scan z b (h.radio.plan.lower b), .set, 0⟩ (g.setRadio r)

/-- R139: the search cancelled. -/
def Hub.cancelSearch (h : Hub) : Hub :=
  match h.radio.state with
  | .seeking | .scanning | .followCheck => (h.endOperation .cancelled).enterTuning .ret .set
  | _ => h

/-! ### The station list (R142) -/

/-- R142: list order: FM before AM, and ascending frequency within a band. -/
def Freq.before (a b : Freq) : Bool :=
  match a.band, b.band with
  | .fm, .am => true
  | .am, .fm => false
  | _, _ => decide (a.khz < b.khz)

/-- R142: an entry inserted at its place. -/
def insertStation (e : StationEntry) : List StationEntry → List StationEntry
  | [] => [e]
  | y :: ys => if e.freq.before y.freq then e :: y :: ys else y :: insertStation e ys

/-- R142: the lowest level at discovery in a list. -/
def lowestLevel : List StationEntry → Nat
  | [] => 0
  | [e] => e.level
  | e :: es => min e.level (lowestLevel es)

/-- R142: a list without its weakest entry, the first with the lowest level. -/
def dropWeakest (list : List StationEntry) : List StationEntry :=
  match list.findIdx? fun e => decide (e.level = lowestLevel list) with
  | none => list
  | some i => list.eraseIdx i

/-- R142: an entry offered by a scan. -/
def offerStation (e : StationEntry) (list : List StationEntry) : List StationEntry :=
  if list.length < Config.stationEntries then insertStation e list
  else if lowestLevel list < e.level then insertStation e (dropWeakest list)
  else list

/-! ### Quality reports (R136, R138, R141, R162, R163) -/

/-- R138: whether a report meets the threshold of a band. -/
def RadioOptions.meets (o : RadioOptions) (b : Band) (q : Quality) : Bool :=
  match b with
  | .fm => decide (o.fmLevel ≤ q.level) && decide (q.noise ≤ o.fmNoise)
  | .am => decide (o.amLevel ≤ q.level)

/-- R138: a step of a seek measured. -/
def Hub.seekStep (z : ZoneId) (up : Bool) (start : Freq) (step tested : Nat) (q : Quality) (h : Hub) : Hub :=
  let r := h.radio
  let b := start.band
  if r.options.meets b q then
    let g := Hub.enterIdle (h.setRadio { r with held := ⟨b, step⟩ })
    Hub.postTuned q (post (seekDoneNotice z .found ⟨b, step⟩) g)
  else
    let next := r.plan.next b up step
    if next = start.khz ∨ r.plan.points b ≤ tested + 1 then
      (post (seekDoneNotice z .notFound start) h).enterTuning .ret .set
    else h.startOperation .seeking ⟨.seek z up start next (tested + 1), .set, 0⟩

/-- R141: a step of a scan measured. -/
def Hub.scanStep (z : ZoneId) (b : Band) (step : Nat) (q : Quality) (h : Hub) : Hub :=
  let r := h.radio
  let g :=
    if r.options.meets b q then
      h.setRadio { r with stations := offerStation ⟨⟨b, step⟩, q.level, none, none⟩ r.stations }
    else h
  if r.plan.top b ≤ step then
    (post (scanDoneNotice z .complete (g.radio.countOf b)) g).enterTuning .ret .set
  else g.startOperation .scanning ⟨.scan z b (step + r.plan.step b), .set, 0⟩

/-- R163, R165: the next candidate of a follow check, or the return where every candidate has failed. -/
def Hub.nextCandidate (level : Nat) (candidates : List Nat) (position code : Nat) (h : Hub) : Hub :=
  if position + 1 < candidates.length then
    h.startOperation .followCheck ⟨.follow level candidates (position + 1) code 0, .set, 0⟩
  else h.setBackOff.enterTuning .ret .set

/-- R136, R138, R141, R163: a GET_QUALITY reply of the operation's step. -/
def Hub.measured (op : Operation) (q : Quality) (h : Hub) : Hub :=
  let g := h.setRadio { h.radio with report := some q }
  match op.kind with
  | .seek z up start step tested => g.seekStep z up start step tested q
  | .scan z b step => g.scanStep z b step q
  | .follow level candidates position code _ =>
    if level + 6 ≤ q.level then g.toPhase op .data else g.nextCandidate level candidates position code
  | .request _ | .ret | .start | .recovery => g.enterIdle.postTuned q

/-- R150, R162: a GET_QUALITY reply of a poll, taken in IDLE and discarded elsewhere. -/
def Hub.polledQuality (q : Quality) (h : Hub) : Hub :=
  if h.radio.state = .idle then
    { h with radio := { h.radio with report := some q }, station := h.station.watch q.level }
  else h

/-- R194: a quality report from the payload of a GET_QUALITY reply, made on the front-end frequency. -/
def Radio.qualityOf (level noise flags : Byte) (r : Radio) : Quality :=
  ⟨min 120 level.toNat, min 100 noise.toNat, flags.getLsbD 0, r.frontEnd.getD r.held⟩

/-! ### The follow check (R162 to R164) -/

/-- R162, R163: a follow trigger honoured. -/
def Hub.startFollow (h : Hub) : Hub :=
  if h.followHonoured then
    Hub.startOperation .followCheck
      ⟨.follow ((h.radio.report.map Quality.level).getD 0) h.station.alternatives 0
          ((h.station.code.map BitVec.toNat).getD 0) 0, .set, 0⟩ h
  else h

/-- R164: a match ends the check with a switch to the candidate. -/
def Hub.switchTo (candidate : Nat) (h : Hub) : Hub :=
  let original := h.radio.held
  let new : Freq := ⟨.fm, candidate⟩
  let g := Hub.enterIdle (h.setRadio { h.radio with held := new })
  let s := post (afSwitchNotice original new) (g.setStation (g.station.switched original.khz candidate))
  s.postTuned (h.radio.report.getD ⟨0, 0, false, new⟩)

/-- R163: the words of a check's GET_DATA reply. -/
def Hub.followData (op : Operation) (words : List CodeWord) (h : Hub) : Hub :=
  let g := h.setStation (h.station.countWords words)
  match op.kind with
  | .follow level candidates position code polls =>
    match examineWords code words with
    | .match_ => g.switchTo (candidates.getD position 0)
    | .different => g.nextCandidate level candidates position code
    | .nothing =>
      if 5 ≤ polls + 1 then g.nextCandidate level candidates position code
      else g.toPhase { op with kind := .follow level candidates position code (polls + 1) } .wait
  | _ => g

/-! ### The tuner link (R147 to R150) -/

/-- The frequency a SET_FREQ of the operation carries (R136, R138, R141, R163). -/
def Radio.target (r : Radio) (kind : OpKind) : Freq :=
  match kind with
  | .seek _ _ start step _ => ⟨start.band, step⟩
  | .scan _ b step => ⟨b, step⟩
  | .follow _ candidates position _ _ => ⟨.fm, candidates.getD position 0⟩
  | .request _ | .ret | .start | .recovery => r.held

/-- The message that the operation in flight needs in its phase (R136, R163). -/
def Radio.operationMessage (r : Radio) (op : Operation) : Option LinkMessage :=
  match op.phase with
  | .status => some .status
  | .blend => some (.setBlend r.options.forcedMono)
  | .set => some (.setFreq (r.target op.kind))
  | .measure => some .getQuality
  | .data => some .getData
  | .settle | .wait => none

/-- R150: the waiting message that goes next, and what it is for. A blend pending that was kept through OFFLINE goes before
the RECOVERY sequence's own SET_BLEND, which is sent all the same (notes/assumptions/65.md). -/
def Radio.nextMessage (r : Radio) : Option (LinkMessage × ExchangeUse) :=
  if r.blendPending && r.online then some (.setBlend r.options.forcedMono, .blend)
  else
    match r.op.bind r.operationMessage with
    | some m => some (m, .step)
    | none =>
      if r.qualityWaiting then some (.getQuality, .poll) else if r.dataWaiting then some (.getData, .poll) else none

/-- The kind byte of a message (12.6). -/
def LinkMessage.code : LinkMessage → Nat
  | .setFreq _ => 1
  | .getQuality => 2
  | .getData => 3
  | .setBlend _ => 4
  | .status => 5

/-- The payload of a message (12.6): an FM frequency in units of 10 kHz, an AM frequency in kHz. -/
def LinkMessage.payload : LinkMessage → List Nat
  | .setFreq ⟨.fm, khz⟩ => [0, khz / 10 / 256, khz / 10 % 256]
  | .setFreq ⟨.am, khz⟩ => [1, khz / 256, khz % 256]
  | .setBlend on => [on.toNat]
  | .getQuality | .getData | .status => []

/-- R147: the bytes of a message: the kind, the length, the payload and the check byte. -/
def LinkMessage.bytes (m : LinkMessage) : List Byte :=
  let body := m.code :: m.payload.length :: m.payload
  (body ++ [(256 - body.sum % 256) % 256]).map (BitVec.ofNat 8)

/-- R156: the decoder is told of a SET_FREQ sent. -/
def Hub.frequencySent (f : Freq) (h : Hub) : Hub :=
  if h.radio.state = .followCheck ∨ h.station.freq = some f then h
  else h.setStation { h.station.clear with freq := some f }

/-- R147, R150: a message sent as attempt 1 of an exchange. -/
def Hub.sendMessage (m : LinkMessage) (use : ExchangeUse) (h : Hub) : Hub :=
  let r := { h.radio with exchange := some ⟨m, 1, use, h.radio.options.turnaround⟩, sent := m.bytes }
  match m with
  | .setFreq f => Hub.frequencySent f (h.setRadio { r with frontEnd := some f })
  | .setBlend _ => h.setRadio { r with blendPending := false }
  | .getQuality =>
    h.setRadio { r with qualityWaiting := r.qualityWaiting && decide (use ≠ .poll) }
  | .getData => h.setRadio { r with dataWaiting := r.dataWaiting && decide (use ≠ .poll) }
  | .status => h.setRadio r

/-- R150: the link, when it is free, carries the next waiting message. -/
def Hub.linkSend (h : Hub) : Hub :=
  match h.radio.exchange, h.radio.nextMessage with
  | none, some (m, use) => h.sendMessage m use
  | _, _ => h

/-- R148: the link enters OFFLINE; a link already OFFLINE neither counts nor posts again (R149). -/
def Hub.linkOffline (h : Hub) : Hub :=
  let r := { h.radio with online := false, offlines := if h.radio.online then bump h.radio.offlines else h.radio.offlines }
  let g := Hub.endOperation .noTuner (postIf h.radio.online (tunerLinkNotice r) (h.setRadio r))
  g.setRadio
    { g.radio with state := .idle, op := none, mute := false, probeCount := 0, dataWaiting := false, qualityWaiting := false }

/-- R148: an attempt of the exchange in flight fails; a probe is neither retried nor counted (R149). Attempt 2 of a SET_FREQ
does not write the front-end frequency again (notes/assumptions/64.md). -/
def Hub.attemptFailed (h : Hub) : Hub :=
  match h.radio.exchange with
  | none => h
  | some e =>
    if e.use = .probe then h.setRadio { h.radio with exchange := none }
    else
      let r := { h.radio with failed := bump h.radio.failed }
      if e.attempt = 1 then
        h.setRadio
          { r with exchange := some { e with attempt := 2, turnaround := r.options.turnaround }, sent := e.message.bytes }
      else (h.setRadio { r with exchange := none }).linkOffline

/-- R147, R150: a reply of the kind that `kind` gives: it ends its exchange as a success and is taken for what the
exchange was for; a reply of another kind fails the attempt; with no exchange in flight it is ignored. -/
def Hub.takeReply (kind : Nat) (take : ExchangeUse → Hub → Hub) (h : Hub) : Hub :=
  match h.radio.exchange with
  | none => h
  | some e =>
    if e.message.code = kind then take e.use (h.setRadio { h.radio with exchange := none }) else h.attemptFailed

/-- A reply taken by the operation's rule while its step still belongs to the operation in flight. -/
def Hub.forStep (use : ExchangeUse) (f : Operation → Hub → Hub) (h : Hub) : Hub :=
  match use, h.radio.op with
  | .step, some op => f op h
  | _, _ => h

/-- R149: the link ONLINE again. -/
def Hub.linkReturns (h : Hub) : Hub :=
  if h.radio.online then h
  else
    let r := { h.radio with online := true }
    post (tunerLinkNotice r) (h.setRadio r)

/-- R136, R149: a STATUS reply, of the START sequence or of a probe. -/
def Hub.statusReplied (use : ExchangeUse) (h : Hub) : Hub :=
  match use with
  | .probe => h.linkReturns.enterTuning .recovery .blend
  | _ => h.forStep use fun op g => g.linkReturns.toPhase op .blend

/-- R149: the radio starts, as the part enters ACTIVE. -/
def Hub.startRadio (h : Hub) : Hub := h.enterTuning .start .status

/-- R149: the radio stops, as the part enters STANDBY. -/
def Hub.stopRadio (h : Hub) : Hub :=
  let g := h.endOperation .cancelled
  g.setRadio
    { g.radio with
      state := .off, op := none, exchange := none, mute := false, blendPending := false, dataCount := 0
      qualityCount := 0, dataWaiting := false, qualityWaiting := false, probeCount := 0 }

/-! ### Counts of a block start -/

/-- The length of an operation's settle in output blocks (R136, R138, R163). -/
def Radio.settleLength (r : Radio) (kind : OpKind) : Nat :=
  match kind with
  | .follow _ _ _ _ _ => 30
  | _ => match (r.target kind).band with | .fm => 30 | .am => 60

/-- The event at the end of an operation's settle. -/
def OpKind.settleEvent : OpKind → Due
  | .follow _ _ _ _ _ => .followSettleEnd
  | _ => .settleEnd

/-- R136, R163: an operation's settle or wait at an output block start. -/
def Hub.operationBlockStart (h : Hub) : Hub :=
  match h.radio.op with
  | none => h
  | some op =>
    let n := op.count + 1
    match op.phase with
    | .settle =>
      let len := h.radio.settleLength op.kind
      Hub.addDueIf (decide (len ≤ n)) op.kind.settleEvent (h.setRadio { h.radio with op := some { op with count := min len n } })
    | .wait =>
      Hub.addDueIf (decide (30 ≤ n)) .followWaitEnd (h.setRadio { h.radio with op := some { op with count := min 30 n } })
    | _ => h

/-- R150: whether polls are made. -/
def Radio.polls (r : Radio) : Bool := decide (r.state = .idle) && decide (r.held.band = .fm) && r.online

/-- R150: the poll counts at an output block start. -/
def Hub.pollBlockStart (h : Hub) : Hub :=
  let r := h.radio
  if r.polls then
    let d := if 40 ≤ r.dataCount + 1 then 0 else r.dataCount + 1
    let q := if 200 ≤ r.qualityCount + 1 then 0 else r.qualityCount + 1
    Hub.addDueIf (decide (d = 0)) .dataPoll
      (Hub.addDueIf (decide (q = 0)) .qualityPoll (h.setRadio { r with dataCount := d, qualityCount := q }))
  else h

/-- R149: the probe count at an output block start. -/
def Hub.probeBlockStart (h : Hub) : Hub :=
  let r := h.radio
  if r.online = false ∧ r.state ≠ .off ∧ r.op = none then
    let n := if 500 ≤ r.probeCount + 1 then 0 else r.probeCount + 1
    Hub.addDueIf (decide (n = 0)) .linkProbe (h.setRadio { r with probeCount := n })
  else h

/-- R136, R149, R150, R162: the Radio Unit and the Station Data Decoder at an output block start. R162 gives the fall of the
back-off and the examination of the follow trigger no order: the back-off falls first, so that the trigger may be honoured
at the block start at which it reaches 0 (notes/assumptions/80.md, DESIGN CHOICE). -/
def Hub.radioBlockStart (h : Hub) : Hub :=
  let g := h.operationBlockStart.pollBlockStart.probeBlockStart
  let s := g.setStation (g.station.blockStart (decide (g.radio.state = .idle)))
  s.addDueIf s.followHonoured .followTrigger

/-- R136, R138: the end of a settle. -/
def Hub.takeSettleEnd (h : Hub) : Hub :=
  match h.radio.op with
  | some op =>
    if op.phase = .settle ∧ h.radio.settleLength op.kind ≤ op.count then h.toPhase op .measure else h
  | none => h

/-- R163: the end of a wait between the polls of a candidate. -/
def Hub.takeWaitEnd (h : Hub) : Hub :=
  match h.radio.op with
  | some op => if op.phase = .wait ∧ 30 ≤ op.count then h.toPhase op .data else h
  | none => h

/-- R150: a GET_DATA poll falls due. -/
def Hub.takeDataPoll (h : Hub) : Hub :=
  if h.radio.polls then h.setRadio { h.radio with dataWaiting := true } else h

/-- R150: a GET_QUALITY poll falls due. -/
def Hub.takeQualityPoll (h : Hub) : Hub :=
  if h.radio.polls then h.setRadio { h.radio with qualityWaiting := true } else h

/-- R149: a STATUS probe is sent. -/
def Hub.takeLinkProbe (h : Hub) : Hub :=
  let r := h.radio
  if r.online = false ∧ r.state ≠ .off ∧ r.op = none ∧ r.exchange = none then h.sendMessage .status .probe else h

end Sys2Proof.Machine
end

