-- ==== Sys2Proof/Machine/IntakeOps.lean ====
section
/-! DEFINITION. Source Intake: changes of a source's state and channel set (R3), frame arrivals (R4, R10), packets
(R5 to R8), status blocks (R17 to R19, R191), pending changes (R24), the block start and the interval end
(R12 to R16), and the reading of a buffer (R2, R11). -/

namespace Sys2Proof.Machine

/-! ### Changes of a source's record -/

/-- R3: a source record entering a state. -/
def Source.enter (st : SourceState) (x : Source) : Source :=
  match st with
  | .running => { x with state := .running }
  | .absent =>
    { x with
      state := .absent, buffer := [], corrections := 0, absence := 0, arrival := false, entryInterval := false
      arrivals := 0, badRun := 0, goodRun := 0, lastSeq := none, pendingFrame := none, lastWritten := none
      lastRead := none, repeatHead := false, assembly := .waiting, prevBlock := none }
  | .prefill | .unusable _ =>
    { x with
      state := st, buffer := [], corrections := 0, repeatHead := false
      lastRead := if x.isRunning then none else x.lastRead }

/-- The state with the record of one source replaced, where neither its state nor its channel set changes. -/
def State.setSource (i : SourceId) (x : Source) (s : State) : State := { s with sources := s.sources.set i x }

/-- R3: the record of a source replaced: SOURCE_STATE where its state, its unusable reason or its channel set
changes, and the reactions of the other blocks. -/
def State.changeSource (i : SourceId) (x : Source) (s : State) : State :=
  let old := s.sources[i]
  let src := s.sources.set i x
  let h := postIf (decide (x.state ≠ old.state ∨ x.channels ≠ old.channels)) (sourceStateNotice i x) s.hub
  { s with sources := src, hub := h.sourceChanged src i old.isRunning (decide (x.channels ≠ old.channels)) }

/-- Something done for each source, in id order, where the spec gives the sources none (notes/assumptions/67.md, 74.md and
76.md, DESIGN CHOICE). -/
def State.eachSource (f : SourceId → State → State) (s : State) : State :=
  (List.finRange 8).foldl (fun t i => f i t) s

/-! ### Frame arrivals (R4, R10) -/

/-- R4: the low bits of a sample set to zero by the adopted word length. -/
def maskSample (length : WordLength) (x : Sample) : Sample :=
  match length with
  | .w16 => x / 256 * 256
  | .w20 => x / 16 * 16
  | .w24 => x

/-- A frame with every sample changed. -/
def Frame.map (f : Sample → Sample) (x : Frame) : Frame :=
  ⟨f x.fl, f x.fr, f x.c, f x.lfe, f x.sl, f x.sr, f x.bl, f x.br⟩

/-- R4: a frame masked to the adopted word length. -/
def Source.mask (x : Source) (f : Frame) : Frame :=
  match x.adopted with
  | none => f
  | some r => f.map (maskSample r.length)

/-- R4: a frame written in PREFILL or RUNNING, or lost to an overrun. -/
def Source.write (f : Frame) (x : Source) : Source :=
  if x.buffer.length < Config.bufferFrames then
    { x with buffer := x.buffer ++ [x.mask f], lastWritten := some (x.mask f) }
  else { x with counters := { x.counters with overruns := bump x.counters.overruns } }

/-- R4, R10: a frame at a source in PREFILL or RUNNING. -/
def State.writeFrame (i : SourceId) (f : Frame) (s : State) : State :=
  let x := s.sources[i].write f
  let t := s.setSource i x
  if x.state = .prefill ∧ x.prefill ≤ x.fill then t.changeSource i (x.enter .running) else t

/-- R4: a frame arrival. In STANDBY it writes nothing and leaves the source ABSENT (R21). -/
def State.arrive (i : SourceId) (f : Frame) (s : State) : State :=
  if s.hub.standby.power = .standby then s
  else
    let x := { s.sources[i] with arrivals := s.sources[i].arrivals + 1, arrival := true }
    match x.state with
    | .absent =>
      let y := { x.enter (recordState x.adopted) with entryInterval := true }
      let t := s.changeSource i y
      if y.state = .prefill then t.writeFrame i f else t
    | .prefill | .running => (s.setSource i x).writeFrame i f
    | .unusable _ => s.setSource i x

/-! ### Status blocks (R17 to R19, R191, 12.4) -/

/-- Byte `i` of a status block. -/
def statusByte (b : StatusBlock) (i : Nat) : Byte := (b >>> (8 * i)).setWidth 8

/-- 12.4: the word length that a code names. -/
def wordLengthOf (code : Nat) : Option WordLength :=
  match code with
  | 1 => some .w16
  | 2 => some .w20
  | 3 => some .w24
  | _ => none

/-- R18: whether the sum of a block's 20 bytes is 0 modulo 256. -/
def sumsToZero (b : StatusBlock) : Bool :=
  decide (((List.range 20).map fun i => (statusByte b i).toNat).sum % 256 = 0)

/-- R18, 12.4: the record of a valid block; none where the block fails. -/
def recordOf (b : StatusBlock) : Option StatusRecord :=
  match sumsToZero b, wordLengthOf (statusByte b 2).toNat with
  | true, some length => some ⟨b.getLsbD 0, statusByte b 1, length, (b >>> 24).setWidth 120⟩
  | _, _ => none

/-- R19: the state of a source after the adoption of a record. -/
def adoptedState (r : StatusRecord) (x : Source) : SourceState :=
  match x.state with
  | .absent => .absent
  | .unusable .nonAudio => recordState (some r)
  | .unusable .rate =>
    if r.nonAudio then .unusable .nonAudio
    else if r.rate = 2 ∧ x.goodRun = 4 then .prefill
    else .unusable .rate
  | .prefill =>
    if playable (some r) then .prefill else recordState (some r)
  | .running => if playable (some r) then .running else recordState (some r)

/-- R18, R19: a record adopted: SOURCE_STATUS, and the state that follows it. -/
def State.adoptRecord (i : SourceId) (r : StatusRecord) (s : State) : State :=
  let x := s.sources[i]
  let st := adoptedState r x
  let y := { x with adopted := some r }
  State.changeSource i (if st = x.state then y else y.enter st) { s with hub := post (sourceStatusNotice i r) s.hub }

/-- R191: a confirmed block reported to Standby Control, which posts one WAKE_CANDIDATE for a source of the
wake-sense set in a standby period. -/
def Hub.wakeReport (i : SourceId) (r : StatusRecord) (h : Hub) : Hub :=
  if h.standby.power = .standby ∧ r.nonAudio = false ∧ h.standby.wakeSense.getLsbD i.val = true ∧
      h.standby.reported.getLsbD i.val = false then
    post (wakeCandidateNotice i r)
      { h with standby := { h.standby with reported := h.standby.reported ||| BitVec.ofNat 8 (2 ^ i.val) } }
  else h

/-- R18: a complete status block checked. A confirmed block is adopted first, with its SOURCE_STATUS, and reported to
Standby Control after it (notes/assumptions/38.md). -/
def State.checkBlock (i : SourceId) (b : StatusBlock) (s : State) : State :=
  let x := s.sources[i]
  match recordOf b with
  | none => s.setSource i { x with counters := { x.counters with blocksFailed := bump x.counters.blocksFailed } }
  | some r =>
    let t := s.setSource i { x with prevBlock := some b }
    if x.prevBlock = some b then
      State.onHub (Hub.wakeReport i r) (if x.adopted = some r then t else t.adoptRecord i r)
    else t

/-- A status bit in its place. -/
def statusBit (j : Nat) (bit : Bool) : StatusBlock := BitVec.ofNat 160 (bit.toNat * 2 ^ j)

/-- R17: a status bit collected. -/
def State.collect (i : SourceId) (bit blockStart : Bool) (s : State) : State :=
  let x := s.sources[i]
  match x.assembly, blockStart with
  | .waiting, false => s
  | .waiting, true => s.setSource i { x with assembly := .collecting 1 (statusBit 0 bit) }
  | .collecting _ _, true =>
    s.setSource i
      { x with
        assembly := .collecting 1 (statusBit 0 bit)
        counters := { x.counters with blocksFailed := bump x.counters.blocksFailed } }
  | .collecting held bits, false =>
    let b := bits ||| statusBit held bit
    if 160 ≤ held + 1 then State.checkBlock i b (s.setSource i { x with assembly := .waiting })
    else s.setSource i { x with assembly := .collecting (held + 1) b }

/-! ### Packets (R5 to R8, 12.3) -/

/-- R5: the words of a packet that were corrected. -/
def correctedCount (ws : List WordCheck) : Nat :=
  (ws.filter fun c => match c with | .corrected _ => true | _ => false).length

/-- R21: whether an input is ignored: a source outside the wake-sense set in STANDBY. -/
def Hub.inputIgnored (h : Hub) (i : SourceId) : Bool :=
  decide (h.standby.power = .standby) && !h.standby.wakeSense.getLsbD i.val

/-- 12.3: the fields of a packet header. -/
structure PacketHeader where
  seq : Nat
  group : Nat
  mask : BitVec 4
deriving DecidableEq, Repr

/-- 12.3: data bits 7 to 0, 10 to 8 and 14 to 11 of a header. -/
def packetHeader (d : BitVec 26) : PacketHeader :=
  ⟨d.toNat % 256, (d.toNat / 2 ^ 8) % 8, (d >>> 11).setWidth 4⟩

/-- 12.3: the sample of a sample word. -/
def wordSample (d : BitVec 26) : Sample := (d.setWidth 24).toInt

/-- R6: the part that four sample words make under an active mask. -/
def partOf (mask : BitVec 4) (w0 w1 w2 w3 : BitVec 26) : Part :=
  let slot := fun (k : Nat) (d : BitVec 26) => if mask.getLsbD k then wordSample d else 0
  ⟨slot 0 w0, slot 1 w1, slot 2 w2, slot 3 w3⟩

/-- R7: the frame of a pending frame, the channels of a missing part zero. -/
def PendingFrame.frame (p : PendingFrame) : Frame :=
  let a := p.partA.getD ⟨0, 0, 0, 0⟩
  let b := p.partB.getD ⟨0, 0, 0, 0⟩
  ⟨a.s0, a.s1, a.s2, a.s3, b.s0, b.s1, b.s2, b.s3⟩

/-- A source with the words rejected counter advanced. -/
def Source.reject (x : Source) : Source :=
  { x with counters := { x.counters with wordsRejected := bump x.counters.wordsRejected } }

/-- R6: the header's active mask held for its group, and the intake restarted where the channel set changes. -/
def State.holdMask (i : SourceId) (groupA : Bool) (mask : BitVec 4) (s : State) : State :=
  let x := s.sources[i]
  let y := if groupA then { x with maskA := mask } else { x with maskB := mask }
  let set := unionOf y.maskA y.maskB
  if set = x.channels then s.setSource i y
  else
    let z := { y with channels := set, pendingFrame := none, lastSeq := none, lastWritten := none, buffer := [] }
    s.changeSource i (if x.isRunning then z.enter .prefill else z)

/-- R8: the number of sequence numbers strictly between `l` and `q` along the cycle 1 to 255. -/
def sequenceGap (l q : Nat) : Nat := (q + 254 - l) % 255

/-- R8: the gap before a frame of sequence `q`, none where there is no gap. -/
def Source.gapBefore (x : Source) (q : Nat) : Nat :=
  match x.lastSeq with
  | none => 0
  | some l => sequenceGap l q

/-- R8: the counters after a gap of `g`, `filled` saying whether it is filled. -/
def Source.countGap (g : Nat) (filled : Bool) (x : Source) : Source :=
  { x with
    counters :=
      { x.counters with
        gaps := if g = 0 then x.counters.gaps else bump x.counters.gaps
        gapFilled := if filled then bumpBy x.counters.gapFilled g else x.counters.gapFilled } }

/-- A frame arrival made a number of times. -/
def State.arriveTimes (i : SourceId) (f : Frame) : Nat → State → State
  | 0, s => s
  | n + 1, s => State.arriveTimes i f n (s.arrive i f)

/-- R8: a completed frame of sequence `q` written, after the fill of the gap before it. In STANDBY no frame is written
(R21), and `q` becomes the last written sequence and a gap is counted all the same (notes/assumptions/70.md). -/
def State.writeCompleted (i : SourceId) (q : Nat) (f : Frame) (s : State) : State :=
  let x := s.sources[i]
  let g := x.gapBefore q
  let t :=
    match x.lastWritten with
    | some w =>
      if 1 ≤ g ∧ g ≤ 4 then State.arriveTimes i w g (s.setSource i (x.countGap g true))
      else s.setSource i (x.countGap g false)
    | none => s.setSource i (x.countGap g false)
  let u := t.arrive i f
  u.setSource i { u.sources[i] with lastSeq := some q }

/-- R7: a part that starts a pending frame. -/
def startPending (q : Nat) (groupA : Bool) (p : Part) : PendingFrame :=
  if groupA then ⟨q, some p, none⟩ else ⟨q, none, some p⟩

/-- R7: whether a pending frame has the part of a group. -/
def PendingFrame.has (f : PendingFrame) (groupA : Bool) : Bool :=
  if groupA then f.partA.isSome else f.partB.isSome

/-- R7: a pending frame with the part of a group added. -/
def PendingFrame.add (groupA : Bool) (p : Part) (f : PendingFrame) : PendingFrame :=
  if groupA then { f with partA := some p } else { f with partB := some p }

/-- R7: an accepted packet that is no duplicate joined to the frame under assembly. -/
def State.assemble (i : SourceId) (q : Nat) (groupA : Bool) (p : Part) (s : State) : State :=
  let x := s.sources[i]
  match x.pendingFrame with
  | none => s.setSource i { x with pendingFrame := some (startPending q groupA p) }
  | some f =>
    if f.seq = q then State.writeCompleted i q (f.add groupA p).frame (s.setSource i { x with pendingFrame := none })
    else
      let t := State.writeCompleted i f.seq f.frame (s.setSource i { x with pendingFrame := none })
      t.setSource i { t.sources[i] with pendingFrame := some (startPending q groupA p) }

/-- R7: whether a packet repeats a frame already written, or a part already held. -/
def Source.isDuplicate (x : Source) (q : Nat) (groupA : Bool) : Bool :=
  decide (x.lastSeq = some q) ||
    match x.pendingFrame with
    | none => false
    | some f => decide (f.seq = q) && f.has groupA

/-- R7, R17: an accepted packet: a duplicate is rejected; otherwise its status bit is collected, where it is of group
A, and it goes to assembly. -/
def State.acceptPacket (i : SourceId) (q : Nat) (groupA : Bool) (p : Part) (first : BitVec 26) (s : State) : State :=
  let x := s.sources[i]
  if x.isDuplicate q groupA then s.setSource i x.reject
  else State.assemble i q groupA p (if groupA then s.collect i (first.getLsbD 24) (first.getLsbD 25) else s)

/-- R6: a packet that has passed its checks tested on its header. -/
def State.testHeader (i : SourceId) (head : PacketHeader) (w0 w1 w2 w3 : BitVec 26) (s : State) : State :=
  let x := s.sources[i]
  if head.group = x.groupA ∨ head.group = x.groupB then
    if head.seq = 0 then s.setSource i x.reject
    else
      let groupA := decide (head.group = x.groupA)
      State.acceptPacket i head.seq groupA (partOf head.mask w0 w1 w2 w3) w0 (s.holdMask i groupA head.mask)
  else s

/-- R5: a packet on a packet audio input. -/
def State.packet (i : SourceId) (words : List CodeWord) (s : State) : State :=
  if s.hub.inputIgnored i then s
  else
    let checks := words.map checkWord
    let x := s.sources[i]
    let y := { x with counters := { x.counters with wordsCorrected := bumpBy x.counters.wordsCorrected (correctedCount checks) } }
    match checks.map WordCheck.data? with
    | [some h, some w0, some w1, some w2, some w3] =>
      State.testHeader i (packetHeader h) w0 w1 w2 w3 (s.setSource i y)
    | _ => s.setSource i y.reject

/-! ### Serial frames (R9) -/

/-- R9: a serial frame received. -/
def State.serialFrame (i : SourceId) (left right : BitVec 24) (valid status blockStart : Bool) (s : State) : State :=
  if s.hub.inputIgnored i then s
  else
    let x := s.sources[i]
    let y :=
      if valid then x else { x with counters := { x.counters with invalidFrames := bump x.counters.invalidFrames } }
    let f : Frame := if valid then { Frame.zero with fl := left.toInt, fr := right.toInt } else Frame.zero
    State.collect i status blockStart (State.arrive i f (s.setSource i y))

/-! ### Pending changes (R23 to R25) -/

/-- R24: a pending intake change taken. -/
def State.takeChange (i : SourceId) (s : State) : State :=
  let x := s.sources[i]
  let y := { x with change := none }
  match x.change with
  | none => s
  | some .restart =>
    match x.state with
    | .running => s.changeSource i (y.enter .prefill)
    | .prefill => if x.prefill ≤ x.fill then s.changeSource i (y.enter .running) else s.setSource i y
    | _ => s.setSource i y
  | some (.newGroups a b) =>
    let z :=
      { y with
        groupA := a, groupB := b, maskA := 0, maskB := 0, channels := 0, pendingFrame := none, lastSeq := none
        lastWritten := none, buffer := [], assembly := .waiting, prevBlock := none }
    s.changeSource i (if x.isRunning then z.enter .prefill else z)

/-- R23, R25: a pending change recorded, and taken at once while the Sample Clock Unit is stopped. -/
def State.recordChange (i : SourceId) (c : IntakeChange) (s : State) : State :=
  let t := s.setSource i { s.sources[i] with change := some c }
  if s.hub.clock.running then t else t.takeChange i

/-! ### The block start (R12 to R14) -/

/-- R14: the absence examination of a record. -/
def Source.examineAbsence (x : Source) : Source :=
  { x with
    absence := if x.state = .absent then 0 else if x.arrival then 0 else min 8 (x.absence + 1)
    arrival := false }

/-- R12: the slip correction of a record in RUNNING. -/
def Source.slip (x : Source) : Source :=
  let corrected :=
    { x with
      corrections := min 24 (x.corrections + 1)
      counters := { x.counters with slips := bump x.counters.slips } }
  if x.fill ≤ 3 then { corrected with repeatHead := true }
  else if 61 ≤ x.fill then { corrected with buffer := x.buffer.drop 1, repeatHead := false }
  else { x with corrections := 0, repeatHead := false }

/-- R12, R14: a source record at an output block start; one that becomes ABSENT there makes no correction. -/
def Source.blockStart (x : Source) : Source :=
  let y := x.examineAbsence
  if y.isRunning && decide (y.absence < 8) then y.slip else { y with repeatHead := false }

/-- R12 to R14: a source at an output block start, and the events found. -/
def State.sourceBlockStart (i : SourceId) (s : State) : State :=
  let y := s.sources[i].blockStart
  let h := Hub.addDueIf (decide (y.state ≠ .absent ∧ y.absence = 8)) (.sourceAbsent i) s.hub
  { s.setSource i y with hub := h.addDueIf (decide (y.state = .running ∧ y.corrections = 24)) (.slipRestart i) }

/-- R14: the absence count of a source has reached 8. -/
def State.takeAbsent (i : SourceId) (s : State) : State :=
  let x := s.sources[i]
  if x.state ≠ .absent ∧ x.absence = 8 then s.changeSource i (x.enter .absent) else s

/-- R13: the consecutive-correction count of a source has reached 24. -/
def State.takeSlipRestart (i : SourceId) (s : State) : State :=
  let x := s.sources[i]
  if x.state = .running ∧ x.corrections = 24 then
    s.changeSource i
      { x.enter .prefill with counters := { x.counters with slipRestarts := bump x.counters.slipRestarts } }
  else s

/-! ### The interval end (R15, R16) -/

/-- R15: whether an interval of `n` arrivals is good. -/
def goodRate (n : Nat) : Bool := decide (762 ≤ n ∧ n ≤ 774)

/-- R15: the runs and the last interval arrivals after a judgement. -/
def Source.judge (x : Source) : Source :=
  if goodRate x.arrivals then
    { x with lastArrivals := x.arrivals, badRun := 0, goodRun := min 4 (x.goodRun + 1) }
  else { x with lastArrivals := x.arrivals, goodRun := 0, badRun := min 2 (x.badRun + 1) }

/-- R15, R16: the state that a judgement leads to; `before` is the good-interval run before it. A bad interval in
PREFILL or RUNNING that finds the bad-interval run at 2 already, from intervals in UNUSABLE(NON_AUDIO), counts as
bringing it to 2 (notes/assumptions/35.md). -/
def Source.judgedState (before : Nat) (x : Source) : SourceState :=
  match x.state with
  | .prefill | .running => if x.badRun = 2 then .unusable .rate else x.state
  | .unusable .rate => if before < 4 ∧ x.goodRun = 4 ∧ playable x.adopted = true then .prefill else x.state
  | _ => x.state

/-- R15, R16: a source at the end of a measurement interval. -/
def State.sourceIntervalEnd (i : SourceId) (s : State) : State :=
  let x := s.sources[i]
  let next := fun y : Source => { y with arrivals := 0, entryInterval := false }
  if x.state = .absent ∨ x.entryInterval = true then s.setSource i (next x)
  else
    let y := x.judge
    let st := y.judgedState x.goodRun
    s.changeSource i (next (if st = x.state then y else y.enter st))

/-! ### Reading (R2, R11) -/

/-- A frame of the free samples of R11's unread case, in the channels of a set (notes/assumptions/3.md); `n` counts
the underruns. -/
def unreadFrame (n : Nat) (set : Channels) : Frame :=
  let f := fun k => if set.getLsbD k then (Config.unreadSample (8 * n + k)).toInt else 0
  ⟨f 0, f 1, f 2, f 3, f 4, f 5, f 6, f 7⟩

/-- R11, R12: what a read leaves of a record and the frame it hands the zones. -/
def Source.read (x : Source) : Source × Frame :=
  if x.isRunning then
    match x.buffer with
    | [] =>
      let f := x.lastRead.getD (unreadFrame x.counters.underruns x.channels)
      ({ x with repeatHead := false, counters := { x.counters with underruns := bump x.counters.underruns } }, f)
    | f :: rest => ({ x with buffer := if x.repeatHead then f :: rest else rest, repeatHead := false, lastRead := some f }, f)
  else ({ x with repeatHead := false }, Frame.zero)

/-- R2, R20: the frame that a source hands the zones, TUN silenced by the radio mute. -/
def handed (i : SourceId) (radioMute : Bool) (x : Source) : Frame :=
  if i = tunerId ∧ radioMute = true then Frame.zero else x.read.2

end Sys2Proof.Machine
end

