-- ==== Sys2Proof/Machine/Render.lean ====
section
/-! DEFINITION. One output sample period: the zones' lip-sync lines (R40), the folds (R89), bass management (R90), the
distance delays (R91), the output stage (R92 to R94) and the lanes' outputs (R112); and what a block start fixes for
the output stage (R93, R95). -/

namespace Sys2Proof.Machine

/-- A delay line of a fixed length: the sample that enters and the one that leaves; a line of length 0 lets it
through. -/
def pushLine {α : Type} (x : α) : List α → List α × α
  | [] => ([], x)
  | y :: rest => (rest ++ [x], y)

/-! ### The zones' lines (R40, R76) -/

/-- R40: a frame through a zone's lip-sync line. -/
def Zone.push (f : Frame) (x : Zone) : Zone × Frame :=
  let r := pushLine f x.line
  ({ x with line := r.1 }, r.2)

/-- R40: the frame a zone takes in a sample period, from what each source hands the zones. -/
def drawn (handed : SourceId → Frame) (x : Zone) : Frame :=
  match x.current with
  | none => Frame.zero
  | some i => handed i

/-! ### Folding (R89) -/

/-- The eight buses of a frame under folding; `sub` is the SUB bus. -/
structure Buses where
  fl : Int
  fr : Int
  c : Int
  sl : Int
  sr : Int
  bl : Int
  br : Int
  sub : Int
deriving DecidableEq, Repr

/-- R89, pass 1: the back positions. -/
def Buses.pass1 (l : Layout) (b : Buses) : Buses :=
  let a :=
    if l.present.getLsbD 5 then b
    else if l.present.getLsbD 3 then { b with sl := b.sl + roundedProduct b.bl 32768 }
    else { b with fl := b.fl + roundedProduct b.bl 23170 }
  if l.present.getLsbD 6 then a
  else if l.present.getLsbD 4 then { a with sr := a.sr + roundedProduct a.br 32768 }
  else { a with fr := a.fr + roundedProduct a.br 23170 }

/-- R89, pass 2: the side positions. -/
def Buses.pass2 (l : Layout) (b : Buses) : Buses :=
  let a := if l.present.getLsbD 3 then b else { b with fl := b.fl + roundedProduct b.sl 23170 }
  if l.present.getLsbD 4 then a else { a with fr := a.fr + roundedProduct a.sr 23170 }

/-- R89, pass 3: the centre. -/
def Buses.pass3 (l : Layout) (b : Buses) : Buses :=
  if l.present.getLsbD 2 then b
  else { b with fl := b.fl + roundedProduct b.c 23170, fr := b.fr + roundedProduct b.c 23170 }

/-- R89, pass 4: the LFE channel. -/
def Buses.pass4 (l : Layout) (lfe : Sample) (b : Buses) : Buses :=
  if l.sub then { b with sub := b.sub + roundedProduct lfe 32768 }
  else { b with fl := b.fl + roundedProduct lfe 23170, fr := b.fr + roundedProduct lfe 23170 }

/-- R89, pass 5: a front position that is absent, onto the other. -/
def Buses.pass5 (l : Layout) (b : Buses) : Buses :=
  match l.present.getLsbD 0, l.present.getLsbD 1 with
  | false, true => { b with fr := b.fr + roundedProduct b.fl 23170 }
  | true, false => { b with fl := b.fl + roundedProduct b.fr 23170 }
  | _, _ => b

/-- R89: the buses of the decoder's frame after the five passes. -/
def foldBuses (l : Layout) (f : Frame) : Buses :=
  ((((Buses.pass1 l ⟨f.fl, f.fr, f.c, f.sl, f.sr, f.bl, f.br, 0⟩).pass2 l).pass3 l).pass4 l f.lfe).pass5 l

/-- The bus of a position. -/
def Buses.get (b : Buses) (p : Position) : Int := #v[b.fl, b.fr, b.c, b.sl, b.sr, b.bl, b.br][p]

/-- R89, R92: the samples of the positions and the SUB bus after folding; zero while the layout is not valid, and
zero for a position that is not effectively present. -/
def folded (l : Layout) (f : Frame) : Vector Sample 7 × Int :=
  if l.valid then
    let b := foldBuses l f
    (Vector.ofFn fun p => if l.present.getLsbD p.val then saturate (b.get p) else 0, b.sub)
  else (Vector.replicate 7 0, 0)

/-! ### Bass management (R90) -/

/-- R90: the new filter state of a position. -/
def lowPass (k y x : Sample) : Sample := saturate (y + roundedProduct (x - y) k)

/-- The coefficient of a layout's effective crossover; 0 where it has none. -/
def Layout.coefficient (l : Layout) : Int := (l.crossover.map fun c => (crossoverCoefficient c : Int)).getD 0

/-- R90: the filter states, the positions' samples and the SUB sample after bass management. -/
def bassManaged (l : Layout) (filters x : Vector Sample 7) (sub : Int) : Vector Sample 7 × Vector Sample 7 × Sample :=
  let y : Vector Sample 7 :=
    Vector.ofFn fun p => if l.bass.getLsbD p.val then lowPass l.coefficient filters[p] x[p] else filters[p]
  let high : Vector Sample 7 := Vector.ofFn fun p => if l.bass.getLsbD p.val then saturate (x[p] - y[p]) else x[p]
  let low := ((List.finRange 7).map fun p => if l.bass.getLsbD p.val then y[p] else 0).sum
  (y, high, saturate (sub + low))

/-! ### The main zone as a whole (R89 to R92) -/

/-- R92: what the delay stages take of the samples that leave bass management: zero while the layout is not valid. -/
def gated (l : Layout) (x : Sample) : Sample := if l.valid then x else 0

/-- R89 to R92: the renderer after a frame of the main zone, with the positions' samples and the SUB sample that
leave the distance delay lines. While the layout is not valid every stage takes zero as its input and every output is
zero. -/
def Renderer.render (f : Frame) (r : Renderer) : Renderer × Vector Sample 7 × Sample :=
  let l := r.governing
  let a := folded l f
  let b := bassManaged l r.filters a.1 a.2
  let s := pushLine (gated l b.2.2) r.subLine
  let line := fun p : Position => pushLine (gated l b.2.1[p]) r.lines[p]
  ({ r with filters := b.1, lines := Vector.ofFn fun p => (line p).1, subLine := s.1 },
    Vector.ofFn fun p => gated l (line p).2, gated l s.2)

/-! ### The output stage (R93 to R95) -/

/-- R93: the effective index of an output, −1 where the zone's current gain index is −1. -/
def effectiveIndex (gain trim : Int) (ceiling : Option Nat) : Int :=
  if gain < 0 then -1
  else
    let x := gain + trim
    clampInt 0 184 (match ceiling with | none => x | some c => min x c)

/-- R93: the trim that belongs to a lane's target. -/
def Renderer.trimOf (r : Renderer) (t : Fin 12) : Int :=
  match positionOf t, targetZone t with
  | some p, _ => r.entries[p].trim
  | none, some .z2 => r.trimZ2
  | none, some .z3 => r.trimZ3
  | none, _ => 0

/-- The current gain index of the zone of a target; −1 for code 0. -/
def Hub.gainOfTarget (h : Hub) (t : Fin 12) : Int :=
  match targetZone t with
  | none => -1
  | some z => (h.zone z).gain

/-- R93, R95: what an output block start fixes for the output stage. -/
def Hub.latchOutputs (h : Hub) : Hub :=
  let r := h.renderer
  let c := h.protection.thermal.ceiling
  { h with
    renderer :=
      { r with
        laneDrives := Vector.ofFn fun l =>
          let t := h.lanes[l].assignment
          ⟨t, effectiveIndex (h.gainOfTarget t) (r.trimOf t) (some c)⟩
        lineIndex :=
          ⟨effectiveIndex h.zones.main.gain r.sub.trim none, effectiveIndex h.zones.z2.gain r.trimZ2 none,
            effectiveIndex h.zones.z2.gain r.trimZ2 none, effectiveIndex h.zones.z3.gain r.trimZ3 none,
            effectiveIndex h.zones.z3.gain r.trimZ3 none⟩ } }

/-- R93, R41: the index applied in a sample period: the one fixed for the block, or −1 once the zone's current gain
index is −1 (notes/assumptions/11.md). -/
def indexNow (gain fixed : Int) : Int := if gain < 0 then -1 else fixed

/-- R94: the result of the output stage for a sample at an index. -/
def outputResult (index : Int) (x : Sample) : Sample := saturate (applyGain x (gainOf index))

/-- R94: whether the result is a saturation. -/
def outputClips (index : Int) (x : Sample) : Bool := decide (outputResult index x ≠ applyGain x (gainOf index))

/-- R94: a clip counter after a result. -/
def countClip (clips : Bool) (n : Nat) : Nat := if clips then bump n else n

/-- The samples that the outputs are handed in a sample period. -/
structure Feeds where
  positions : Vector Sample 7
  sub : Sample
  z2 : Frame
  z3 : Frame
deriving DecidableEq, Repr

/-- R94: the sample a lane of a target takes; zero for code 0 and for a position that is not effectively present. -/
def Feeds.of (x : Feeds) (l : Layout) (t : Fin 12) : Sample :=
  match positionOf t with
  | some p => if l.present.getLsbD p.val then x.positions[p] else 0
  | none => if t = 8 then x.z2.fl else if t = 9 then x.z2.fr else if t = 10 then x.z3.fl else if t = 11 then x.z3.fr else 0

/-- R94, R112: the lanes' results, counted and delivered. -/
def Hub.driveLanes (x : Feeds) (h : Hub) : Hub :=
  let r := h.renderer
  let index := fun l : LaneId => indexNow (h.gainOfTarget r.laneDrives[l].target) r.laneDrives[l].index
  let sample := fun l : LaneId => x.of r.governing r.laneDrives[l].target
  { h with
    lanes := Vector.ofFn fun l =>
      { h.lanes[l] with clips := countClip (outputClips (index l) (sample l)) h.lanes[l].clips }
    renderer := { r with laneOut := Vector.ofFn fun l => h.lanes[l].deliver (outputResult (index l) (sample l)) } }

/-- Something formed for each line output. -/
def PerLine.zip {α β γ : Type} (f : α → β → γ) (x : PerLine α) (y : PerLine β) : PerLine γ :=
  ⟨f x.sub y.sub, f x.z2l y.z2l, f x.z2r y.z2r, f x.z3l y.z3l, f x.z3r y.z3r⟩

/-- R94: the line outputs' results, counted and delivered. -/
def Hub.driveLines (x : Feeds) (h : Hub) : Hub :=
  let r := h.renderer
  let gains : PerLine Int :=
    ⟨h.zones.main.gain, h.zones.z2.gain, h.zones.z2.gain, h.zones.z3.gain, h.zones.z3.gain⟩
  let index := PerLine.zip indexNow gains r.lineIndex
  let sample : PerLine Sample := ⟨x.sub, x.z2.fl, x.z2.fr, x.z3.fl, x.z3.fr⟩
  { h with
    renderer :=
      { r with
        clips := PerLine.zip countClip (PerLine.zip outputClips index sample) r.clips
        lineOut := PerLine.zip outputResult index sample } }

/-! ### The sample period (R2, R11, R28, R40) -/

/-- R40, R73 to R94: the zones, the decoder, the renderer and the outputs in a sample period, from what each source
hands the zones. -/
def Hub.playPeriod (src : Vector Source 8) (handed : SourceId → Frame) (h : Hub) : Hub :=
  let m := h.zones.main.push (drawn handed h.zones.main)
  let p := h.zones.z2.push ((formOf src h.zones.z2).reduce (drawn handed h.zones.z2))
  let q := h.zones.z3.push ((formOf src h.zones.z3).reduce (drawn handed h.zones.z3))
  let r := h.renderer.render (h.decoder.decode m.2)
  let x : Feeds := ⟨r.2.1, r.2.2, p.2, q.2⟩
  Hub.driveLines x
    (Hub.driveLanes x
      { h with zones := ⟨m.1, p.1, q.1⟩, decoder := h.decoder.listen m.2, renderer := r.1 })

/-- R28: the crystal periods that the sample period in progress still takes. A period word put at its nominal value by an
entry to FREE inside a sample period governs that sample period already (notes/assumptions/49.md). -/
def Clock.crystalPeriods (c : Clock) : Nat := (c.period - c.phase + 65535) / 65536

/-- R28, R123: the end of a sample period: the phase accumulator, the block position, and the fan drive, which runs
from the crystal. -/
def Hub.endPeriod (h : Hub) : Hub :=
  let c := h.clock
  let n := c.crystalPeriods
  let wraps := decide (48 ≤ c.blockPos + 1)
  let f := h.protection.fan
  let g :=
    { h with
      clock :=
        { c with
          phase := c.phase + n * 65536 - c.period
          blockPos := if wraps then 0 else c.blockPos + 1 }
      protection := { h.protection with fan := f.advance n } }
  Hub.addDueIf wraps .blockStart (g.addDueIf (f.reachesZero n && decide (f.requested ≠ f.duty)) .fanDuty)

/-- R2, R11, R28: the sources read, the audio path run, and the period ended. -/
def State.samplePeriod (s : State) : State :=
  let frames : Vector Frame 8 := Vector.ofFn fun i => handed i s.hub.radio.mute s.sources[i]
  { s with
    sources := Vector.ofFn fun i => s.sources[i].read.1
    hub := (Hub.playPeriod s.sources (fun i => frames[i]) s.hub).endPeriod }

end Sys2Proof.Machine
end

