-- ==== Sys2Proof/Machine/StandbyOps.lean ====
section
/-! DEFINITION. Standby Control: waking (R189), entering standby (R190 with R21, R29, R67, R83, R106, R117, R149 and
R154), and the resets (R168, R178, R181, R187). -/

namespace Sys2Proof.Machine

/-! ### Waking (R189) -/

/-- R188, R189: WAKING entered. -/
def Hub.startWaking (src : Vector Source 8) (h : Hub) : Hub :=
  Hub.startClock src { h with standby := { h.standby with power := .waking, wakingCount := 0 } }

/-- R189: the waking count and the power-on delay at an output block start; 100 and 2,000 stand until their events
are taken. -/
def Standby.blockStart (x : Standby) : Standby :=
  { x with
    wakingCount := if x.power = .waking then min 100 (x.wakingCount + 1) else x.wakingCount
    delay :=
      match x.power, x.delay with
      | .active, .running n => .running (min 2000 (n + 1))
      | _, d => d }

/-- R189: the events that Standby Control's block start finds. -/
def Hub.standbyBlockStart (h : Hub) : Hub :=
  let x := h.standby.blockStart
  let g := { h with standby := x }
  let a := g.addDueIf (decide (x.power = .waking ∧ x.wakingCount = 100)) .active
  a.addDueIf (decide (x.power = .active ∧ x.delay = .running 2000)) .powerOnDelayEnd

/-- R189: the 100th block start in WAKING: ACTIVE entered. -/
def Hub.takeActive (h : Hub) : Hub :=
  if h.standby.power = .waking ∧ h.standby.wakingCount = 100 then
    let x := { h.standby with power := .active, wakingCount := 0, delay := .running 0 }
    Hub.startRadio (post (systemReadyNotice x) { h with standby := x })
  else h

/-- R189: the 2,000th block start of the power-on delay. -/
def Hub.takeDelayEnd (h : Hub) : Hub :=
  if h.standby.power = .active ∧ h.standby.delay = .running 2000 then
    Hub.examineAll { h with standby := { h.standby with delay := .ended } }
  else h

/-! ### The power of a zone as other blocks take it (R46, R47) -/

/-- R110, R133: what the Radio Unit and the Lane Supervisor do on a change of a zone's power setting, after the Zone Router
and the Sample Clock Unit (notes/assumptions/9.md). -/
def Hub.powerChanged (h : Hub) : Hub := h.deriveHolder.examineAll

/-- R47: a zone turned off, with the reactions of the other blocks. -/
def Hub.turnOff (src : Vector Source 8) (z : ZoneId) (h : Hub) : Hub :=
  if (h.zone z).power then (h.zonePowerOff src z).powerChanged else h

/-- R46: a zone turned on, with the reactions of the other blocks. -/
def Hub.turnOn (src : Vector Source 8) (z : ZoneId) (h : Hub) : Hub :=
  if (h.zone z).power then h else (h.zonePowerOn src z).powerChanged

/-! ### Entering standby (R190) -/

/-- R190: ENTERING_STANDBY entered at the request of a port: the lanes are examined, and the zones then turned off in the
order MAIN, Z2, Z3 (notes/assumptions/56.md). -/
def Hub.beginStandby (src : Vector Source 8) (p : Port) (h : Hub) : Hub :=
  let x := { h.standby with power := .enteringStandby, wakingCount := 0, delay := .notEnded, enteringPort := some p }
  let g := Hub.examineAll { h with standby := x }
  ((g.turnOff src .main).turnOff src .z2).turnOff src .z3

/-- R21: a source as the part enters STANDBY. The pending intake change of a source that is ABSENT already is discarded too
(notes/assumptions/60.md). -/
def State.sourceToStandby (i : SourceId) (s : State) : State :=
  let x := { s.sources[i] with change := none }
  if x.state = .absent then s.setSource i x else s.changeSource i (x.enter .absent)

/-- R106: a lane as the part enters STANDBY. The trip history is emptied before a lane leaves RETRY, so its LANE_FAULT
shows no entries (notes/assumptions/44.md). -/
def Hub.laneToStandby (l : LaneId) (h : Hub) : Hub :=
  let g := h.openAtOnce l
  let x : Lane := { g.lanes[l] with trips := [], dcWindow := [], dcSum := 0 }
  if x.fault = .retry then
    let y := { x with fault := .ok, retryTimer := 0 }
    post (laneFaultNotice l y) (g.setLane l y)
  else g.setLane l x

/-- R117, R118: the protection records as the part enters STANDBY. -/
def Protection.toStandby (p : Protection) : Protection :=
  { p with
    nextChannel := none
    thermal := { p.thermal with updateCount := 0 }
    fan := { p.fan with requested := 0, windowPos := 0, pulses := 0, stallRun := 0, dutyHeld := true } }

/-- R67, R83, R86: the decoder and the renderer as the Sample Clock Unit stops; a fault-caused adoption that awaits a
block start is made at once (notes/assumptions/59.md). Back-fill keeps its last decision (notes/assumptions/42.md). -/
def Hub.audioToStandby (h : Hub) : Hub :=
  let g := { h with decoder := h.decoder.restart, renderer := h.renderer.clearLines }
  if g.renderer.faultAdoption then g.adoptForFault else g

/-- R154: the station data record as the part enters STANDBY. -/
def Station.toStandby (x : Station) : Station := { x.clear with freq := none }

/-- R190: the blocks behind Source Intake take their standby effects, in the order in which R190 lists them
(notes/assumptions/67.md, DESIGN CHOICE), and STANDBY_ENTERED is posted. An event found and not
yet taken at that moment is dropped (notes/assumptions/57.md). -/
def Hub.enterStandby (h : Hub) : Hub :=
  let a := h.stopClock.audioToStandby
  let b := a.eachLane Hub.laneToStandby
  let c := Hub.stopRadio { b with protection := b.protection.toStandby }
  post (standbyEnteredNotice c.standby.enteringPort)
    { c with
      station := c.station.toStandby
      due := []
      standby := { c.standby with power := .standby, reported := 0, enteringPort := none } }

/-- R190: whether the moment at which the part enters STANDBY has come. -/
def Hub.standbyReached (h : Hub) : Bool :=
  decide (h.standby.power = .enteringStandby) && h.allZonesOff && h.allRelaysOpen

/-- R190: the part enters STANDBY where that moment has come; the sources take their part first, in the order 0 to 7
(notes/assumptions/67.md). -/
def State.takeStandbyEntry (s : State) : State :=
  if s.hub.standbyReached then (s.eachSource State.sourceToStandby).onHub Hub.enterStandby else s

/-- What passes on a step with no command waiting: one crystal period of the fan drive while the Sample Clock Unit is
stopped (notes/assumptions/10.md), and nothing while the part is kept in reset (notes/assumptions/58.md). -/
def State.idle (s : State) : State := if s.hub.standby.inReset then s else s.onHub Hub.crystalTick

/-! ### Resets (R187) -/

/-- R168: a port after a reset: IGNORING where a select period was in progress, IDLE otherwise. -/
def PortRecord.afterReset (p : PortRecord) : PortRecord :=
  { PortRecord.reset with receive := if p.receive = .idle then .idle else .ignoring }

/-- R187: the reset pin takes a level: while it is asserted the part is kept in reset. -/
def Hub.setInReset (asserted : Bool) (h : Hub) : Hub := { h with standby := { h.standby with inReset := asserted } }

/-- The lane table after a reset; what the amplifiers drive on the fault inputs is not the part's to reset. -/
def resetLanes (lanes : Vector Lane 11) : Vector Lane 11 :=
  Vector.ofFn fun l => { lanesReset[l] with faultInput := lanes[l].faultInput }

/-- R187: every block of the part at its reset values, and STANDBY_ENTERED posted once the reset is done. The level of the
reset pin is not the part's to reset (notes/assumptions/58.md). -/
def State.reboot (cause : ResetCause) (port : Option Port) (s : State) : State :=
  let h := Hub.reset cause port
  { s with
    sources := sourcesReset
    hub :=
      Hub.setInReset s.hub.standby.inReset
        (post (resetEnteredNotice h.standby) { h with lanes := resetLanes s.hub.lanes })
    ports := ⟨s.ports.a.afterReset, s.ports.b.afterReset, s.ports.c.afterReset⟩ }

end Sys2Proof.Machine
end

