-- ==== Sys2Proof/Machine/Blocks.lean ====
section
/-! DEFINITION. The output block start (R28 and the block-counted rules of every chapter), the interval end, and the
taking of every event found and not yet taken. -/

namespace Sys2Proof.Machine

/-- R28: the clock's part of an output block start: the block position at 0 and the interval position advanced. -/
def Hub.clockBlockStart (h : Hub) : Hub :=
  let wraps := decide (16 ≤ h.clock.intervalPos + 1)
  Hub.addDueIf wraps .intervalEnd
    { h with clock := { h.clock with blockPos := 0, intervalPos := if wraps then 0 else h.clock.intervalPos + 1 } }

/-- R118 to R120, R124: the protection records at an output block start; the update count stands at 100 until the
temperature update is taken. The temperature update is found before the fan window's end where both fall at one block
start (notes/assumptions/54.md). -/
def Hub.protectionBlockStart (h : Hub) : Hub :=
  let p := h.protection
  let t := { p.thermal.stepCeiling with updateCount := min 100 (p.thermal.updateCount + 1) }
  let f := p.fan.blockStart
  let g := { h with protection := { p with nextChannel := some 0, thermal := t, fan := f } }
  Hub.addDueIf (decide (f.windowPos = 1000)) .fanWindow (g.addDueIf (decide (t.updateCount = 100)) .temperature)

/-- The blocks behind Source Intake at an output block start, the sources having taken theirs: zones, lanes,
protection, standby, radio and station data; then the decoder, the layout and the output stage for the block that
begins (notes/assumptions/12.md). The zones take it in the order MAIN, Z2, Z3, so that fades which end at one block start
end in that order (notes/assumptions/75.md, DESIGN CHOICE), the lanes in the order 0 to 10 (notes/assumptions/73.md,
DESIGN CHOICE). -/
def Hub.blockStart (src : Vector Source 8) (h : Hub) : Hub :=
  let a := ((h.zoneBlockStart .main).zoneBlockStart .z2).zoneBlockStart .z3
  let b := a.addDueIf a.renderer.faultAdoption .faultLayout
  let c := ((b.eachLane Hub.laneBlockStart).protectionBlockStart).standbyBlockStart.radioBlockStart
  let d := { c with decoder := c.decoder.blockStart }
  (d.decideBlock src).latchOutputs

/-- R28: an output block start. The sources take their pending intake changes before they are examined (R24), and R24
gives them no order among themselves: both turns take them in the order 0 to 7, which is the order of their SOURCE_STATE
notices (notes/assumptions/76.md, DESIGN CHOICE). The sources' events come before the interval's end, since R15 does not
judge a source that becomes ABSENT at the block start that ends the interval. -/
def State.blockStart (s : State) : State :=
  if s.hub.clock.running then
    let b := ((s.eachSource State.takeChange).eachSource State.sourceBlockStart).onHub Hub.clockBlockStart
    b.onHub (Hub.blockStart b.sources)
  else s

/-- R53: whether a zone is fading out. -/
def Zone.fading (x : Zone) : Bool :=
  match x.state with
  | .fadingOut _ => true
  | _ => false

/-- R53, R55, R74: an event of an output block start that may bring the main zone's fade-out to its end. Where it does,
what governs the block that begins there is decided again, as at FADE_OUT_END (notes/assumptions/37.md). A source event moves
a fading zone to another state only by ending its fade, which the items applied there may turn into a fade again. -/
def State.redecide (f : State → State) (s : State) : State :=
  let t := f s
  if s.hub.zones.main.fading && decide (t.hub.zones.main.state ≠ s.hub.zones.main.state) then
    t.onHub (Hub.decideBlock t.sources)
  else t

/-- R14: a source that becomes ABSENT at the block start that ends an interval, taken before the interval's end is
judged (R15). -/
def State.absentFirst (i : SourceId) (s : State) : State :=
  if Due.sourceAbsent i ∈ s.hub.due then (s.onHub (Hub.dropDue (.sourceAbsent i))).redecide (State.takeAbsent i) else s

/-- R15, R16, R33 to R35: the end of a measurement interval: the sources that become ABSENT at its block start are
taken first and are not judged, then the other sources, then the clock. R15 gives the sources no order: both turns take
them in the order 0 to 7, which is the order of their SOURCE_STATE notices (notes/assumptions/74.md, DESIGN CHOICE). -/
def State.intervalEnd (s : State) : State :=
  if s.hub.clock.running then
    let t := (s.eachSource State.absentFirst).redecide (State.eachSource State.sourceIntervalEnd)
    t.onHub (Hub.clockInterval t.sources)
  else s

/-- R119: the temperature update of the 100th block start. -/
def Hub.temperatureEvent (h : Hub) : Hub :=
  if h.protection.thermal.updateCount = 100 then
    Hub.takeTemperature
      { h with protection := { h.protection with thermal := { h.protection.thermal with updateCount := 0 } } }
  else h

/-- R86: the fault-caused adoption of a block start, which governs the block that begins there. -/
def Hub.faultLayoutEvent (src : Vector Source 8) (h : Hub) : Hub :=
  if h.renderer.faultAdoption then h.adoptForFault.decideBlock src else h

/-- An event of the blocks behind Source Intake, taken. -/
def Hub.takeDue (src : Vector Source 8) (d : Due) (h : Hub) : Hub :=
  match d with
  | .faultLayout => h.faultLayoutEvent src
  | .fadeOutEnd z => h.takeFadeOutEnd src z
  | .fadeInEnd z => h.takeFadeInEnd z
  | .noSignal z => h.takeNoSignal z
  | .holdoverExpiry => h.expireHoldover
  | .relayClosed l => h.takeRelayClosed l
  | .rampEnd l => h.takeRampEnd l
  | .relayOpened l => h.takeRelayOpened l
  | .retryEnd l => h.takeRetryEnd l
  | .tripExpiry l => h.takeTripExpiry l
  | .temperature => h.temperatureEvent
  | .fanDuty => h.adoptDuty
  | .fanWindow => h.takeFanWindow
  | .active => h.takeActive
  | .powerOnDelayEnd => h.takeDelayEnd
  | .settleEnd => h.takeSettleEnd
  | .followSettleEnd => h.takeSettleEnd
  | .followWaitEnd => h.takeWaitEnd
  | .dataPoll => h.takeDataPoll
  | .qualityPoll => h.takeQualityPoll
  | .linkProbe => h.takeLinkProbe
  | .followTrigger => h.startFollow
  | .blockStart | .sourceAbsent _ | .slipRestart _ | .intervalEnd => h

/-- An event taken. -/
def State.takeDue (d : Due) (s : State) : State :=
  match d with
  | .blockStart => s.blockStart
  | .sourceAbsent i => s.redecide (State.takeAbsent i)
  | .slipRestart i => s.redecide (State.takeSlipRestart i)
  | .intervalEnd => s.intervalEnd
  | _ => { s with hub := s.hub.takeDue s.sources d }

/-- An event that has been found and not yet taken, taken as a step of its own; otherwise nothing happens
(notes/assumptions/6.md). -/
def State.eventStep (d : Due) (s : State) : State :=
  if d ∈ s.hub.due then State.takeDue d (s.onHub (Hub.dropDue d)) else s

/-- The events found and not yet taken, taken in the order they were found, at most `n` of them. -/
def State.drain : Nat → State → State
  | 0, s => s
  | n + 1, s =>
    match s.hub.due with
    | [] => s
    | d :: _ => State.drain n (State.takeDue d (s.onHub (Hub.dropDue d)))

/-- How many events `State.settle` takes at most: more than one block start can find. -/
def settleLimit : Nat := 256

/-- What must have happened before time moves on: every event found is taken, a free link carries its next message,
and STANDBY is entered where its moment has come (notes/assumptions/6.md). -/
def State.settle (s : State) : State := ((State.drain settleLimit s).onHub Hub.linkSend).takeStandbyEntry

end Sys2Proof.Machine
end

