-- ==== Sys2Proof/Machine/PortCommands.lean ====
section
/-! DEFINITION. The commands of the control ports, the notice queues and Standby Control (chapters 9, 10 and 11): one
definition for each row. -/

namespace Sys2Proof.Machine

/-! ### Resets -/

/-- POWER_ON_RESET (R187): every block of the part at its reset values. It is taken also while the reset pin is held
asserted, and the part is then kept in reset after it (notes/assumptions/58.md). -/
def execPowerOnReset (s : State) : Host.Outcome State Fault Refusal := tell (State.reboot .powerOn none) s

/-- RESET_PIN (R187): from the pin's assertion the part is kept in reset, and at its release the reset is taken. A release
given without its assertion stands for both (notes/assumptions/58.md). -/
def execResetPin (s : State) (asserted : Bool := false) : Host.Outcome State Fault Refusal :=
  if asserted then .next (s.onHub (Hub.setInReset true))
  else tell (fun t => (t.onHub (Hub.setInReset false)).reboot .pin none) s

/-- SOFT_RESET (R178): the reset, recorded with the requesting port, whose slot then holds an OK reply. -/
def execSoftReset (p : Port) (s : State) : Host.Outcome State Fault Refusal :=
  request p 0x03 [] (fun t => (t.reboot .request (some p), ⟨.ok, .none⟩)) s

/-! ### The select line (R168, R169, R173) -/

/-- R169, R187: an IDLE port whose select line is asserted enters RECEIVING; while the part is kept in reset its words are
not kept, so that the port is IGNORING its select period (notes/assumptions/58.md). -/
def PortRecord.select (inReset : Bool) (x : PortRecord) : PortRecord :=
  if x.receive = .idle then if inReset then { x with receive := .ignoring } else x.assertSelect else x

/-- SELECT_LINE_ASSERTED (R169). -/
def execSelectLineAsserted (p : Port) (s : State) : Host.Outcome State Fault Refusal :=
  .next (s.setPort p ((s.ports.get p).select s.hub.standby.inReset))

/-- SELECT_RELEASED_BEFORE_WORD_0 (R169): a select period released before word 0 is whole has no effect, and a port
that is RECEIVING returns to IDLE; a port in IGNORING leaves it at this release too (R168). -/
def execSelectReleasedBeforeWord0 (p : Port) (s : State) : Host.Outcome State Fault Refusal :=
  .next (s.releaseSelect p)

/-- IGNORING_RELEASE (R168): a port that keeps nothing leaves its select period at the release of its select line, which
has no other effect. -/
def execIgnoringRelease (p : Port) (s : State) : Host.Outcome State Fault Refusal :=
  .next (if s.keepsNothing p then s.releaseSelect p else s)

/-- R169, R173: the port after the release that ends a fetch frame of `words` whole words: the reply is consumed if
the slot held one at assertion and all its words were clocked. -/
def PortRecord.fetch (low : Byte) (words : Nat) (x : PortRecord) : PortRecord :=
  let q := if x.receive = .receiving then x else x.assertSelect
  let consumed :=
    match q.outFrame with
    | none => false
    | some r => decide (r.words.length + 1 ≤ words)
  { q with
    receive := .idle
    wordsReceived := min words Config.counterMax
    outSent := min words Config.counterMax
    frame := [low.setWidth 16]
    slot := if consumed then none else q.slot }

/-- FETCH_FRAME (R173). -/
def execFetchFrame (p : Port) (low : Byte) (words : Nat) (s : State) : Host.Outcome State Fault Refusal :=
  .next (if s.keepsNothing p then s.releaseSelect p else s.setPort p ((s.ports.get p).fetch low words))

/-- BAD_REQUEST (R170): a request frame that fails its checks is not run; the reply carries the kind code received and
the reason of the first check that fails. -/
def execBadRequest (p : Port) (kind declared : Byte) (params : List Word) (s : State) :
    Host.Outcome State Fault Refusal :=
  if s.keepsNothing p then .next (s.releaseSelect p)
  else
    let word0 : Word := BitVec.ofNat 16 (kind.toNat * 256 + declared.toNat)
    let q := (s.ports.get p).shiftIn word0 params (1 + params.length)
    let reason := ((frameCheck kind.toNat declared.toNat params.length).map BadReason.code).getD 0
    .next (finishFrame p ⟨.badRequest, .badRequest kind.toNat reason⟩ (s.setPort p { q with refused := bump q.refused }))

/-! ### Identity and cause -/

/-- IDENTIFY (R179). -/
def execIdentify (p : Port) (s : State) : Host.Outcome State Fault Refusal :=
  request p 0x01 []
    (readOnly fun t =>
      let x := t.ports.get p
      .identity 0x8420 1 p t.hub.standby.power #v[3, 8, 3, 11, 40, 48, 16] 3 0 x.run x.refused x.discarded) s

/-- GET_RESET_CAUSE (R187). -/
def execGetResetCause (p : Port) (s : State) : Host.Outcome State Fault Refusal :=
  request p 0x02 [] (readOnly fun t => .resetCause t.hub.standby.cause t.hub.standby.port t.hub.standby.power) s

/-! ### Notices (R184, R186) -/

/-- R186: a set of eight bits that a parameter word carries, where its bits 8 to 15 are clear. -/
def byteSetOf (w : Word) : Option (BitVec 8) := if w.toNat < 256 then some (w.setWidth 8) else none

/-- SUBSCRIBE (R186): the requesting port's subscription set. -/
def execSubscribe (p : Port) (set : Word) (s : State) : Host.Outcome State Fault Refusal :=
  request p 0x07 [set]
    (fun t =>
      match byteSetOf set with
      | none => (t, badValue 1)
      | some c => (t.setPort p { t.ports.get p with subscriptions := c }, ⟨.ok, .classSet c⟩)) s

/-- READ_NOTICES (R184): the oldest notices, at most ten, leave the requesting port's queue, and LOST is cleared. -/
def execReadNotices (p : Port) (s : State) : Host.Outcome State Fault Refusal :=
  request p 0x08 []
    (fun t =>
      let x := t.ports.get p
      let returned := x.queue.take 10
      let left := x.queue.drop 10
      (t.setPort p { x with queue := left, lost := false },
        ⟨.ok, .notices returned.length x.lost left.length returned⟩)) s

/-! ### Standby (R188 to R191) -/

/-- WAKE (R188). -/
def execWake (p : Port) (s : State) : Host.Outcome State Fault Refusal :=
  request p 0x05 []
    (onHub fun src h =>
      match h.standby.power with
      | .standby =>
        let g := h.startWaking src
        (g, ⟨.accepted, .power g.standby.power⟩)
      | .waking | .active => (h, ⟨.ok, .power h.standby.power⟩)
      | .enteringStandby => (h, refusedState)) s

/-- ENTER_STANDBY (R188, R190): the entry to STANDBY may be part of the request. -/
def execEnterStandby (p : Port) (s : State) : Host.Outcome State Fault Refusal :=
  request p 0x04 []
    (fun t =>
      match t.hub.standby.power with
      | .standby | .enteringStandby => (t, ⟨.ok, .power t.hub.standby.power⟩)
      | .waking | .active =>
        let u := (t.onHub (Hub.beginStandby t.sources p)).takeStandbyEntry
        (u, ⟨.accepted, .power u.hub.standby.power⟩)) s

/-- SET_WAKE_SENSE (R191): the wake-sense set; candidates reported loses any source removed from it. -/
def execSetWakeSense (p : Port) (set : Word) (s : State) : Host.Outcome State Fault Refusal :=
  request p 0x06 [set]
    (onHub fun _ h =>
      match byteSetOf set with
      | none => (h, badValue 1)
      | some w =>
        ({ h with standby := { h.standby with wakeSense := w, reported := h.standby.reported &&& w } },
          ⟨.ok, .sourceSet w⟩)) s

/-- ACTIVE_ENTRY (R189). -/
def execActiveEntry (s : State) : Host.Outcome State Fault Refusal := event (State.eventStep .active) s

/-- POWER_ON_DELAY_END (R189). -/
def execPowerOnDelayEnd (s : State) : Host.Outcome State Fault Refusal := event (State.eventStep .powerOnDelayEnd) s

/-- STANDBY_ENTRY (R190). -/
def execStandbyEntry (s : State) : Host.Outcome State Fault Refusal := event State.takeStandbyEntry s

end Sys2Proof.Machine
end

