-- ==== Sys2Proof/Machine/IntakeCommands.lean ====
section
/-! DEFINITION. The commands of Source Intake and the Sample Clock Unit (chapters 1 and 2): one definition for each
row. -/

namespace Sys2Proof.Machine

/-! ### Requests to Source Intake (R22 to R26) -/

/-- R22: what GET_SOURCE reads. -/
def sourceView (i : SourceId) (radioMute : Bool) (x : Source) : SourceView where
  packet := isPacket i
  state := x.state
  channels := x.channels
  groups := if isPacket i then some (x.groupA, x.groupB) else none
  masks := if isPacket i then some (x.maskA, x.maskB) else none
  prefill := x.prefill
  fill := x.fill
  corrections := x.corrections
  lastArrivals := x.lastArrivals
  adopted := x.adopted
  changePending := x.change.isSome
  radioMute := if i = tunerId then some radioMute else none
  counters := x.counters

/-- GET_SOURCE (R22). -/
def execGetSource (p : Port) (source : Word) (s : State) : Host.Outcome State Fault Refusal :=
  request p 0x10 [source]
    (fun t =>
      match sourceOf source with
      | none => (t, badValue 1)
      | some i => (t, ⟨.ok, .source (sourceView i t.hub.radio.mute t.sources[i])⟩)) s

/-- R23: the pending change that a new prefill target records: RESTART, unless a change of groups is pending. -/
def restartUnlessGroups : Option IntakeChange → IntakeChange
  | some (.newGroups a b) => .newGroups a b
  | _ => .restart

/-- SET_PREFILL (R23). The target written is the content of the reply under OK too, which R23 names for CLAMPED alone
(notes/assumptions/48.md). -/
def execSetPrefill (p : Port) (source target : Word) (s : State) : Host.Outcome State Fault Refusal :=
  request p 0x11 [source, target]
    (fun t =>
      match sourceOf source with
      | none => (t, badValue 1)
      | some i =>
        let x := t.sources[i]
        let n := prefillOf target
        let answer := okOrClamped (decide (n ≠ target.toNat)) (.prefill n)
        if n = x.prefill then (t, answer)
        else ((t.setSource i { x with prefill := n }).recordChange i (restartUnlessGroups x.change), answer)) s

/-- R25: whether a change of groups is pending. -/
def groupsPending : Option IntakeChange → Bool
  | some (.newGroups _ _) => true
  | _ => false

/-- R25: a group id lies within 1 to 4. -/
def isGroup (w : Word) : Bool := decide (1 ≤ w.toNat ∧ w.toNat ≤ 4)

/-- SET_GROUPS (R25). -/
def execSetGroups (p : Port) (source groupA groupB : Word) (s : State) : Host.Outcome State Fault Refusal :=
  request p 0x12 [source, groupA, groupB]
    (fun t =>
      match sourceOf source with
      | none => (t, badValue 1)
      | some i =>
        if isPacket i = false then (t, badValue 1)
        else if isGroup groupA = false then (t, badValue 2)
        else if isGroup groupB = false ∨ groupA = groupB then (t, badValue 3)
        else
          let x := t.sources[i]
          if groupA.toNat = x.groupA ∧ groupB.toNat = x.groupB ∧ groupsPending x.change = false then
            (t, ⟨.ok, .none⟩)
          else (t.recordChange i (.newGroups groupA.toNat groupB.toNat), ⟨.ok, .none⟩)) s

/-- CLEAR_SOURCE_COUNTERS (R26). -/
def execClearSourceCounters (p : Port) (source : Word) (s : State) : Host.Outcome State Fault Refusal :=
  request p 0x13 [source]
    (fun t =>
      match sourceOf source with
      | none => (t, badValue 1)
      | some i => (t.setSource i { t.sources[i] with counters := .zero }, ⟨.ok, .none⟩)) s

/-! ### Arrivals (R5, R9) -/

/-- The source id of a packet audio input. -/
def packetSource (input : Fin 2) : SourceId := ⟨input.val, by omega⟩

/-- The source id of a serial input: SA0 to SA3, TUN, MED. -/
def serialSource (input : Fin 6) : SourceId := ⟨input.val + 2, by omega⟩

/-- PACKET_ARRIVAL (R5 to R8). -/
def execPacketArrival (input : Fin 2) (words : List CodeWord) (s : State) : Host.Outcome State Fault Refusal :=
  event (fun t => t.settle.packet (packetSource input) words) s

/-- SERIAL_FRAME_ARRIVAL (R9). -/
def execSerialFrameArrival (input : Fin 6) (left right : BitVec 24) (valid status blockStart : Bool) (s : State) :
    Host.Outcome State Fault Refusal :=
  event (fun t => t.settle.serialFrame (serialSource input) left right valid status blockStart) s

/-! ### Events found at a block start -/

/-- PENDING_INTAKE_CHANGE (R24): the pending change of a source taken. -/
def execPendingIntakeChange (source : SourceId) (s : State) : Host.Outcome State Fault Refusal :=
  event (State.takeChange source) s

/-- SOURCE_ABSENT (R14). -/
def execSourceAbsent (source : SourceId) (s : State) : Host.Outcome State Fault Refusal :=
  event (State.eventStep (.sourceAbsent source)) s

/-- SLIP_LIMIT_RESTART (R13). -/
def execSlipLimitRestart (source : SourceId) (s : State) : Host.Outcome State Fault Refusal :=
  event (State.eventStep (.slipRestart source)) s

/-! ### The Sample Clock Unit (R28, R35, R37, R38) -/

/-- R38: what GET_CLOCK reads. -/
def clockView (c : Clock) : ClockView where
  running := c.running
  mode := c.mode
  state := c.state
  reference := c.reference
  period := c.period
  difference := (c.period : Int) - (Config.nominalPeriod : Int)
  good := c.good
  holdover := c.holdover
  partialInterval := c.partialInterval
  lastAdjustment := c.lastAdjustment

/-- GET_CLOCK (R38). -/
def execGetClock (p : Port) (s : State) : Host.Outcome State Fault Refusal :=
  request p 0x18 [] (readOnly fun t => .clock (clockView t.hub.clock)) s

/-- SET_CLOCK_MODE (R37): the reference is derived again, while the unit runs. -/
def execSetClockMode (p : Port) (mode : Word) (s : State) : Host.Outcome State Fault Refusal :=
  request p 0x19 [mode]
    (onHub fun src h =>
      match clockModeOf mode with
      | none => (h, badValue 1)
      | some m =>
        let g := if m = h.clock.mode then h else h.deriveReferenceWith src m
        (g, ⟨.ok, .clockMode g.clock.mode g.clock.running g.clock.state g.clock.reference⟩)) s

/-- OUTPUT_SAMPLE_PERIOD (R28): while the unit runs, one sample period's audio, and its end. -/
def execOutputSamplePeriod (s : State) : Host.Outcome State Fault Refusal :=
  event
    (fun t =>
      let u := t.settle
      if u.hub.clock.running then u.samplePeriod else u) s

/-- OUTPUT_BLOCK_START (R28): while the unit runs, the block-counted rules of every block of the part. -/
def execOutputBlockStart (s : State) : Host.Outcome State Fault Refusal :=
  event (fun t => (t.onHub (Hub.dropDue .blockStart)).settle.blockStart) s

/-- MEASUREMENT_INTERVAL_END (R15, R33). -/
def execMeasurementIntervalEnd (s : State) : Host.Outcome State Fault Refusal := event (State.eventStep .intervalEnd) s

/-- HOLDOVER_EXPIRY (R35). -/
def execHoldoverExpiry (s : State) : Host.Outcome State Fault Refusal := event (State.eventStep .holdoverExpiry) s

end Sys2Proof.Machine
end

