-- ==== Sys2Proof/Machine/ZoneCommands.lean ====
section
/-! DEFINITION. The commands of the Zone Router (chapter 3): one definition for each row. -/

namespace Sys2Proof.Machine

/-- R46, R47: what a ZONE_POWER replies. -/
def powerReply (z : ZoneId) (h : Hub) : Answer :=
  ⟨.ok, .zonePower (h.zone z).power (h.zone z).state (h.zone z).current⟩

/-- ZONE_POWER on (R45, R46). -/
def execZonePowerOn (p : Port) (zone code : Word) (s : State) : Host.Outcome State Fault Refusal :=
  request p 0x20 [zone, code]
    (onHub fun src h =>
      match zoneOf zone with
      | none => (h, badValue 1)
      | some z =>
        if code ≠ 1 then (h, badValue 2)
        else if h.standby.power ≠ .active then (h, refusedStandby h)
        else
          let g := h.turnOn src z
          (g, powerReply z g)) s

/-- ZONE_POWER off (R47). -/
def execZonePowerOff (p : Port) (zone : Word) (s : State) : Host.Outcome State Fault Refusal :=
  request p 0x20 [zone, 0]
    (onHub fun src h =>
      match zoneOf zone with
      | none => (h, badValue 1)
      | some z =>
        let g := h.turnOff src z
        (g, powerReply z g)) s

/-- R48: what SELECT_SOURCE replies. -/
def selectReply (z : ZoneId) (h : Hub) : Answer :=
  ⟨.ok, .zoneSelect (h.zone z).selected (h.zone z).current (h.zone z).state⟩

/-- SELECT_SOURCE (R45, R48, R49); the holder is derived again (R133) after the zone, the decoder and the clock have
reacted (notes/assumptions/9.md). -/
def execSelectSource (p : Port) (zone source : Word) (s : State) : Host.Outcome State Fault Refusal :=
  request p 0x21 [zone, source]
    (onHub fun src h =>
      match zoneOf zone, sourceOf source with
      | none, _ => (h, badValue 1)
      | some _, none => (h, badValue 2)
      | some z, some i =>
        if (h.zone z).power = true ∧ h.standby.power ≠ .active then (h, refusedStandby h)
        else if (h.zone z).power = false ∧ (h.zone z).state ≠ .off then (h, refusedState)
        else
          let g := (h.selectSource src z i).deriveHolder
          (g, selectReply z g)) s

/-- R58 to R60: a zone's volume settings written, one ZONE_VOLUME where either changes. -/
def Hub.writeVolume (z : ZoneId) (volume maxVolume : Nat) (h : Hub) : Hub :=
  let x := h.zone z
  let y := { x with volume := volume, maxVolume := maxVolume }
  postIf (decide (volume ≠ x.volume ∨ maxVolume ≠ x.maxVolume)) (zoneVolumeNotice z y) (h.setZone z y)

/-- SET_VOLUME (R58). -/
def execSetVolume (p : Port) (zone index : Word) (s : State) : Host.Outcome State Fault Refusal :=
  request p 0x22 [zone, index]
    (onHub fun _ h =>
      match zoneOf zone with
      | none => (h, badValue 1)
      | some z =>
        let m := (h.zone z).maxVolume
        let v := min index.toNat m
        (h.writeVolume z v m, okOrClamped (decide (m < index.toNat)) (.volume v))) s

/-- STEP_VOLUME (R59): the step is signed. -/
def execStepVolume (p : Port) (zone step : Word) (s : State) : Host.Outcome State Fault Refusal :=
  request p 0x23 [zone, step]
    (onHub fun _ h =>
      match zoneOf zone with
      | none => (h, badValue 1)
      | some z =>
        let m := (h.zone z).maxVolume
        let sum := ((h.zone z).volume : Int) + step.toInt
        let v := (clampInt 0 m sum).toNat
        (h.writeVolume z v m, okOrClamped (decide (sum < 0 ∨ (m : Int) < sum)) (.volume v))) s

/-- SET_MAX_VOLUME (R60): the volume index is lowered with its maximum. -/
def execSetMaxVolume (p : Port) (zone index : Word) (s : State) : Host.Outcome State Fault Refusal :=
  request p 0x25 [zone, index]
    (onHub fun _ h =>
      match zoneOf zone with
      | none => (h, badValue 1)
      | some z =>
        let m := min index.toNat 184
        let v := min (h.zone z).volume m
        (h.writeVolume z v m, okOrClamped (decide (184 < index.toNat)) (.maxVolume m v))) s

/-- SET_MUTE (R61): a change in PLAYING sets the fast ramp flag. -/
def execSetMute (p : Port) (zone code : Word) (s : State) : Host.Outcome State Fault Refusal :=
  request p 0x24 [zone, code]
    (onHub fun _ h =>
      match zoneOf zone, flagOf code with
      | none, _ => (h, badValue 1)
      | some _, none => (h, badValue 2)
      | some z, some flag =>
        let x := h.zone z
        if flag = x.mute then (h, ⟨.ok, .mute flag⟩)
        else
          let y := { x with mute := flag, fast := x.fast || decide (x.state = .playing) }
          (post (zoneMuteNotice z flag) (h.setZone z y), ⟨.ok, .mute flag⟩)) s

/-- The lip-sync grants of the three zones in milliseconds. -/
def Hub.grants (h : Hub) : PerZone Nat :=
  ⟨h.zones.main.lipGranted, h.zones.z2.lipGranted, h.zones.z3.lipGranted⟩

/-- SET_LIPSYNC (R51): the grants are recomputed where the request changes. -/
def execSetLipsync (p : Port) (zone ms : Word) (s : State) : Host.Outcome State Fault Refusal :=
  request p 0x26 [zone, ms]
    (onHub fun _ h =>
      match zoneOf zone with
      | none => (h, badValue 1)
      | some z =>
        let x := h.zone z
        let n := min ms.toNat 500
        let g := if n = x.lipRequested then h else (h.setZone z { x with lipRequested := n }).recompute
        let granted := (g.zone z).lipGranted
        (g, okOrClamped (decide (500 < ms.toNat) || (x.power && decide (granted < n))) (.lipsync n granted g.grants))) s

/-- R62: what GET_ZONE reads. -/
def zoneView (x : Zone) : ZoneView where
  power := x.power
  state := x.state
  selected := x.selected
  current := x.current
  volume := x.volume
  maxVolume := x.maxVolume
  gain := x.gain
  mute := x.mute
  lipRequested := x.lipRequested
  lipGranted := x.lipGranted
  lipEffect := x.lipEffect
  pending := x.pending
  noSignal := x.noSignal
  noSignalReported := x.noSignalReported

/-- GET_ZONE (R62). -/
def execGetZone (p : Port) (zone : Word) (s : State) : Host.Outcome State Fault Refusal :=
  request p 0x27 [zone]
    (onHub fun _ h =>
      match zoneOf zone with
      | none => (h, badValue 1)
      | some z => (h, ⟨.ok, .zone (zoneView (h.zone z))⟩)) s

/-- FADE_OUT_END (R42, R53, R54). -/
def execFadeOutEnd (zone : ZoneId) (s : State) : Host.Outcome State Fault Refusal :=
  event (State.eventStep (.fadeOutEnd zone)) s

/-- FADE_IN_END (R43). -/
def execFadeInEnd (zone : ZoneId) (s : State) : Host.Outcome State Fault Refusal :=
  event (State.eventStep (.fadeInEnd zone)) s

/-- ZONE_NO_SIGNAL (R57). -/
def execZoneNoSignal (zone : ZoneId) (s : State) : Host.Outcome State Fault Refusal :=
  event (State.eventStep (.noSignal zone)) s

end Sys2Proof.Machine
end

