-- ==== Sys2Proof/Machine/AudioCommands.lean ====
section
/-! DEFINITION. The commands of the Surround Decoder and the Speaker Renderer (chapters 4 and 5): one definition for
each row. -/

namespace Sys2Proof.Machine

/-! ### The decoder (R81, R82) -/

/-- R81: the modes of the decoder record. -/
def decodeView (d : Decoder) : DecodeView := ⟨d.requested, d.autoMatrix, d.active, d.derived, d.itemPending⟩

/-- SET_DECODE_MODE (R81): one DECODE_ACTIVE for the request, before that of a pair adopted at once (R71,
notes/assumptions/68.md). -/
def execSetDecodeMode (p : Port) (mode autoMatrix : Word) (s : State) : Host.Outcome State Fault Refusal :=
  request p 0x30 [mode, autoMatrix]
    (onHub fun src h =>
      match decodeModeOf mode, flagOf autoMatrix with
      | none, _ => (h, badValue 1)
      | some _, none => (h, badValue 2)
      | some m, some option =>
        let d := h.decoder
        let g :=
          if m = d.requested ∧ option = d.autoMatrix then h
          else
            Hub.rederive (fun k => post (decodeActiveNotice k.decoder) k) src
              { h with decoder := { d with requested := m, autoMatrix := option } }
        (g, ⟨.ok, .decodeMode (decodeView g.decoder)⟩)) s

/-- R82: the rest of what GET_DECODE reads. -/
def decoderView (src : Vector Source 8) (h : Hub) : DecoderView :=
  let d := h.decoder
  ⟨d.source, d.dLr, d.dCs, d.lastRaw, d.steering, d.backfillL, d.backfillR, formOf src h.zones.z2, formOf src h.zones.z3⟩

/-- GET_DECODE (R82). -/
def execGetDecode (p : Port) (s : State) : Host.Outcome State Fault Refusal :=
  request p 0x31 [] (readOnly fun t => .decode (decodeView t.hub.decoder) (decoderView t.sources t.hub)) s

/-! ### The layout table (R99 to R103) -/

/-- R100: the figures that the layout requests reply. -/
def layoutFigures (h : Hub) : LayoutFigures :=
  ⟨h.renderer.itemPending, h.renderer.derived.valid, h.renderer.inForce.valid, h.distanceClaim, h.grants⟩

/-- R99: a distance brought into its range. -/
def distanceOf (w : Word) : Nat := clampNat 30 1800 w.toNat

/-- R99: a trim brought into its range. -/
def trimOf (w : Word) : Int := clampInt (-24) 24 w.toInt

/-- R99: whether a distance or a trim was moved. -/
def distanceMoved (w : Word) : Bool := decide (distanceOf w ≠ w.toNat)

/-- R99: whether a trim was moved. -/
def trimMoved (w : Word) : Bool := decide (trimOf w ≠ w.toInt)

/-- R99: whether an entry would make FL or FR SMALL while SUB is absent. -/
def Hub.smallWithoutSub (i : Position) (small : Bool) (h : Hub) : Bool :=
  decide (i.val ≤ 1) && small && !h.renderer.sub.present

/-- R100: a position entry written, with what its change leads to: the renderer's derivation with its notices first, the
examination of the lanes after it (notes/assumptions/51.md). -/
def Hub.writeEntry (i : Position) (e : PositionEntry) (h : Hub) : Hub :=
  let old := h.renderer.entries[i]
  let g := { h with renderer := { h.renderer with entries := h.renderer.entries.set i e } }
  let d :=
    if e.present = old.present ∧ e.small = old.small ∧ e.distance = old.distance then g
    else g.deriveLayout .controller
  if e.present = old.present then d else d.examineAll

/-- SET_SPEAKER (R99, R100): codes 0 to 6 write a position entry, 7 and 8 the trim of Zone 2 or Zone 3. -/
def execSetSpeaker (p : Port) (position present size distance trim : Word) (s : State) :
    Host.Outcome State Fault Refusal :=
  request p 0x38 [position, present, size, distance, trim]
    (onHub fun _ h =>
      let r := h.renderer
      let trimAnswer := fun g : Hub => okOrClamped (trimMoved trim) (.zoneTrim (trimOf trim) (layoutFigures g))
      if l : position.toNat < 7 then
        match flagOf present, flagOf size with
        | none, _ => (h, badValue 2)
        | some _, none => (h, badValue 3)
        | some there, some small =>
          let i : Position := ⟨position.toNat, l⟩
          if h.smallWithoutSub i small then (h, refusedState)
          else
            let e : PositionEntry := ⟨there, small, distanceOf distance, trimOf trim⟩
            let g := h.writeEntry i e
            (g, okOrClamped (distanceMoved distance || trimMoved trim) (.speaker e (layoutFigures g)))
      else if position.toNat = 7 then
        let g := { h with renderer := { r with trimZ2 := trimOf trim } }
        (g, trimAnswer g)
      else if position.toNat = 8 then
        let g := { h with renderer := { r with trimZ3 := trimOf trim } }
        (g, trimAnswer g)
      else (h, badValue 1)) s

/-- R101: the entries of FL and FR made LARGE where SUB becomes absent. -/
def enlargeFronts (present : Bool) (entries : Vector PositionEntry 7) : Vector PositionEntry 7 :=
  if present then entries
  else Vector.ofFn fun i => if i.val ≤ 1 then { entries[i] with small := false } else entries[i]

/-- SET_SUB (R101). -/
def execSetSub (p : Port) (present distance trim : Word) (s : State) : Host.Outcome State Fault Refusal :=
  request p 0x39 [present, distance, trim]
    (onHub fun _ h =>
      match flagOf present with
      | none => (h, badValue 1)
      | some there =>
        let r := h.renderer
        let e : SubEntry := ⟨there, distanceOf distance, trimOf trim⟩
        let g := { h with renderer := { r with sub := e, entries := enlargeFronts there r.entries } }
        let d := if there = r.sub.present ∧ e.distance = r.sub.distance then g else g.deriveLayout .controller
        (d, okOrClamped (distanceMoved distance || trimMoved trim)
          (.sub e d.renderer.entries[0].small d.renderer.entries[1].small (layoutFigures d)))) s

/-- SET_CROSSOVER (R102). -/
def execSetCrossover (p : Port) (setting : Word) (s : State) : Host.Outcome State Fault Refusal :=
  request p 0x3A [setting]
    (onHub fun _ h =>
      let c := setting.toNat
      if 4 < c then (h, badValue 1)
      else
        let g :=
          if c = h.renderer.crossover then h
          else Hub.deriveLayout .controller { h with renderer := { h.renderer with crossover := c } }
        (g, ⟨.ok, .crossover c (crossoverCoefficient c) (layoutFigures g)⟩)) s

/-- R103: what GET_LAYOUT reads. -/
def layoutView (r : Renderer) : LayoutView where
  entries := r.entries
  sub := r.sub
  trimZ2 := r.trimZ2
  trimZ3 := r.trimZ3
  crossover := r.crossover
  inForce := r.inForce
  derived := r.derived
  itemPending := r.itemPending
  clips := r.clips

/-- GET_LAYOUT (R103). -/
def execGetLayout (p : Port) (s : State) : Host.Outcome State Fault Refusal :=
  request p 0x3B [] (readOnly fun t => .layout (layoutView t.hub.renderer)) s

/-! ### The allocator (R104) -/

/-- R104: what GET_DELAY reads for a zone. -/
def zoneDelayView (z : ZoneId) (h : Hub) : ZoneDelayView where
  claim := h.zoneClaim z
  grant := h.zoneGrant z
  requestedMs := (h.zone z).lipRequested
  grantedMs := (h.zone z).lipGranted
  effectMs := (h.zone z).lipEffect
  holding := h.zoneHolding z

/-- R104: what GET_DELAY reads. -/
def delayView (h : Hub) : DelayView where
  distClaim := h.distanceClaim
  distGrant := h.distanceGrant
  distHolding := h.distanceHolding
  zones := ⟨zoneDelayView .main h, zoneDelayView .z2 h, zoneDelayView .z3 h⟩
  totalGrants := h.totalGrants
  freeCells := Config.delayCells - h.totalGrants
  totalHoldings := h.totalHoldings

/-- GET_DELAY (R104). -/
def execGetDelay (p : Port) (s : State) : Host.Outcome State Fault Refusal :=
  request p 0x3C [] (readOnly fun t => .delay (delayView t.hub)) s

/-- FAULT_LAYOUT_ADOPTION (R86, R88). -/
def execFaultLayoutAdoption (s : State) : Host.Outcome State Fault Refusal := event (State.eventStep .faultLayout) s

end Sys2Proof.Machine
end

