-- ==== Sys2Proof/Machine/LaneCommands.lean ====
section
/-! DEFINITION. The commands of the Lane Supervisor (chapter 6): one definition for each row. -/

namespace Sys2Proof.Machine

/-! ### Requests (R107, R108, R116, R126, R127) -/

/-- ASSIGN_LANE (R107, R108). -/
def execAssignLane (p : Port) (lane target : Word) (s : State) : Host.Outcome State Fault Refusal :=
  request p 0x40 [lane, target]
    (onHub fun _ h =>
      match laneOf lane, targetOf target with
      | none, _ => (h, badValue 1)
      | some _, none => (h, badValue 2)
      | some l, some t =>
        if t ≠ 0 ∧ targetCapacity t ≤ occupancy h.lanes l t then (h, ⟨.targetTaken, .none⟩)
        else
          let g := h.assign l t
          (g, ⟨.ok, .laneAssigned g.lanes[l].assignment g.lanes[l].pending g.lanes[l].relay⟩)) s

/-- R126: what GET_LANE reads. -/
def laneView (l : LaneId) (h : Hub) : LaneView where
  assignment := h.lanes[l].assignment
  pending := h.lanes[l].pending
  relay := h.lanes[l].relay
  timer := h.lanes[l].timer
  ramp := h.lanes[l].ramp
  fault := h.lanes[l].fault
  retryTimer := h.lanes[l].retryTimer
  trips := h.lanes[l].trips
  dcReadings := h.lanes[l].dcWindow.length
  dcSum := h.lanes[l].dcSum
  dcCode := h.protection.sense[l.val]
  clips := h.lanes[l].clips
  tripCount := h.lanes[l].tripCount
  conditions := h.closing l

/-- GET_LANE (R126). -/
def execGetLane (p : Port) (lane : Word) (s : State) : Host.Outcome State Fault Refusal :=
  request p 0x41 [lane]
    (onHub fun _ h =>
      match laneOf lane with
      | none => (h, badValue 1)
      | some l => (h, ⟨.ok, .lane (laneView l h)⟩)) s

/-- CLEAR_LANE_FAULT (R116). -/
def execClearLaneFault (p : Port) (lane counters : Word) (s : State) : Host.Outcome State Fault Refusal :=
  request p 0x42 [lane, counters]
    (onHub fun _ h =>
      match laneOf lane, flagOf counters with
      | none, _ => (h, badValue 1)
      | some _, none => (h, badValue 2)
      | some l, some c =>
        let g := h.clearFault l c
        (g, ⟨.ok, .laneFault g.lanes[l].fault g.lanes[l].relay g.lanes[l].clips g.lanes[l].tripCount⟩)) s

/-- R127: what GET_THERMAL reads. -/
def thermalView (p : Protection) : ThermalView where
  code11 := p.sense[11]
  code12 := p.sense[12]
  code13 := p.sense[13]
  t1 := p.thermal.t1
  t2 := p.thermal.t2
  working := p.thermal.working
  ceilingTarget := p.thermal.ceilingTarget
  ceiling := p.thermal.ceiling
  trip := p.thermal.trip
  requested := p.fan.requested
  duty := p.fan.duty
  lastPulses := p.fan.lastPulses
  stallRun := p.fan.stallRun
  stall := p.fan.stall
  supplyLow := p.supply.low
  supplyGoodRun := p.supply.goodRun

/-- GET_THERMAL (R127). -/
def execGetThermal (p : Port) (s : State) : Host.Outcome State Fault Refusal :=
  request p 0x43 [] (readOnly fun t => .thermal (thermalView t.hub.protection)) s

/-! ### Relays, faults and retries (R110, R111, R113, R114) -/

/-- RELAY_CLOSED (R110). -/
def execRelayClosed (lane : LaneId) (s : State) : Host.Outcome State Fault Refusal :=
  event (State.eventStep (.relayClosed lane)) s

/-- RELEASE_RAMP_END (R111). -/
def execReleaseRampEnd (lane : LaneId) (s : State) : Host.Outcome State Fault Refusal :=
  event (State.eventStep (.rampEnd lane)) s

/-- RELAY_OPENED (R109, R111). -/
def execRelayOpened (lane : LaneId) (s : State) : Host.Outcome State Fault Refusal :=
  event (State.eventStep (.relayOpened lane)) s

/-- FAULT_INPUT_ASSERTED (R113): the level of a lane's fault input. It is taken without settling first, so it may stand
before an event found at its block start (notes/assumptions/6.md). While the part is kept in reset the input has its level
and trips nothing (notes/assumptions/58.md). -/
def execFaultInputAsserted (lane : LaneId) (level : Bool) (s : State) : Host.Outcome State Fault Refusal :=
  if s.hub.standby.inReset then .next (s.onHub (Hub.setFaultInput lane level))
  else event (State.onHub (Hub.faultInput lane level)) s

/-- RETRY_END (R114). -/
def execRetryEnd (lane : LaneId) (s : State) : Host.Outcome State Fault Refusal :=
  event (State.eventStep (.retryEnd lane)) s

/-- TRIP_HISTORY_EXPIRY (R114). -/
def execTripHistoryExpiry (lane : LaneId) (s : State) : Host.Outcome State Fault Refusal :=
  event (State.eventStep (.tripExpiry lane)) s

/-! ### Sensing, temperature and the fan (R115, R118 to R125) -/

/-- SENSE_CONVERSION (R115, R118, R125). It is taken without settling first, so it may stand before an event found at its
block start (notes/assumptions/6.md). -/
def execSenseConversion (channel : SenseChannel) (code : BitVec 12) (s : State) : Host.Outcome State Fault Refusal :=
  event (State.onHub (Hub.conversion channel code)) s

/-- TEMPERATURE_UPDATE (R119 to R122). -/
def execTemperatureUpdate (s : State) : Host.Outcome State Fault Refusal := event (State.eventStep .temperature) s

/-- R123: FAN_DUTY_ADOPTION: the lowest point of the drive's period. While the Sample Clock Unit runs, the sample
periods find it, and the row acts where they have; while the unit is stopped the row stands for the crystal periods up
to it (notes/assumptions/10.md). -/
def State.fanDutyAdoption (s : State) : State :=
  if Due.fanDuty ∈ s.hub.due then State.eventStep .fanDuty s
  else if s.hub.clock.running then s
  else s.onHub (Hub.onFan Fan.runToZero)

/-- FAN_DUTY_ADOPTION (R123). -/
def execFanDutyAdoption (s : State) : Host.Outcome State Fault Refusal := event State.fanDutyAdoption s

/-- FAN_TACH_PULSE (R124). It is taken without settling first, so it may stand before an event found at its block start
(notes/assumptions/6.md). -/
def execFanTachPulse (s : State) : Host.Outcome State Fault Refusal := event (State.onHub Hub.tachPulse) s

/-- FAN_WINDOW_END (R124). -/
def execFanWindowEnd (s : State) : Host.Outcome State Fault Refusal := event (State.eventStep .fanWindow) s

end Sys2Proof.Machine
end

