-- ==== Sys2Proof/Machine/RadioCommands.lean ====
section
/-! DEFINITION. The commands of the Radio Unit, the tuner link and the Station Data Decoder (chapters 7 and 8): one
definition for each row. -/

namespace Sys2Proof.Machine

/-! ### Requests that move the radio (R134 to R140, R144) -/

/-- R134: the checks of the power state, the zone, the holder and, where `needsLink` says so, the link; the first
that fails gives the answer. -/
def radioRefusal (z : ZoneId) (needsLink : Bool) (h : Hub) : Option Answer :=
  if h.standby.power ≠ .active then some (refusedStandby h)
  else if h.qualifies z = false then some refusedState
  else if h.radio.holder ≠ some z then some ⟨.tunerHeld, .holder h.radio.holder⟩
  else if needsLink && !h.radio.online then some ⟨.noTuner, .none⟩
  else none

/-- TUNE (R130, R134, R135). -/
def execTune (p : Port) (zone band freqHigh freqLow : Word) (s : State) : Host.Outcome State Fault Refusal :=
  request p 0x51 [zone, band, freqHigh, freqLow]
    (onHub fun _ h =>
      match zoneOf zone, bandOf band with
      | none, _ => (h, badValue 1)
      | some _, none => (h, badValue 2)
      | some z, some b =>
        match radioRefusal z true h with
        | some a => (h, a)
        | none =>
          let khz := khzOf freqHigh freqLow
          let n := h.radio.plan.snap b khz
          let g := h.tuneTo z ⟨b, n⟩
          (g, acceptedOrClamped (decide (n ≠ khz)) (.tuned g.radio.held g.radio.state))) s

/-- R137, R140: whether a seek or a scan may start in a radio state. -/
def RadioState.searchable : RadioState → Bool
  | .idle => true
  | .followCheck => true
  | .off | .tuning | .seeking | .scanning => false

/-- SEEK (R134, R137): direction 0 is down and 1 is up. -/
def execSeek (p : Port) (zone direction : Word) (s : State) : Host.Outcome State Fault Refusal :=
  request p 0x52 [zone, direction]
    (onHub fun _ h =>
      match zoneOf zone, flagOf direction with
      | none, _ => (h, badValue 1)
      | some _, none => (h, badValue 2)
      | some z, some up =>
        match radioRefusal z true h with
        | some a => (h, a)
        | none =>
          if h.radio.state.searchable then (h.startSeek z up, ⟨.accepted, .seek h.radio.held up⟩)
          else (h, refusedState)) s

/-- SCAN (R134, R140). -/
def execScan (p : Port) (zone band : Word) (s : State) : Host.Outcome State Fault Refusal :=
  request p 0x53 [zone, band]
    (onHub fun _ h =>
      match zoneOf zone, bandOf band with
      | none, _ => (h, badValue 1)
      | some _, none => (h, badValue 2)
      | some z, some b =>
        match radioRefusal z true h with
        | some a => (h, a)
        | none =>
          if h.radio.state.searchable then (h.startScan z b, ⟨.accepted, .scan b (h.radio.countOf b)⟩)
          else (h, refusedState)) s

/-- CANCEL_RADIO (R134, R139). -/
def execCancelRadio (p : Port) (zone : Word) (s : State) : Host.Outcome State Fault Refusal :=
  request p 0x54 [zone]
    (onHub fun _ h =>
      match zoneOf zone with
      | none => (h, badValue 1)
      | some z =>
        match radioRefusal z false h with
        | some a => (h, a)
        | none =>
          let g := h.cancelSearch
          (g, ⟨.ok, .radioState g.radio.state⟩)) s

/-- RECALL_PRESET (R134, R144): the preset's frequency is neither clamped nor snapped. -/
def execRecallPreset (p : Port) (zone index : Word) (s : State) : Host.Outcome State Fault Refusal :=
  request p 0x56 [zone, index]
    (onHub fun _ h =>
      match zoneOf zone, presetOf index with
      | none, _ => (h, badValue 1)
      | some _, none => (h, badValue 2)
      | some z, some i =>
        match radioRefusal z true h, h.radio.presets[i] with
        | some a, _ => (h, a)
        | none, none => (h, ⟨.empty, .none⟩)
        | none, some e =>
          let g := h.tuneTo z e.freq
          (g, ⟨.accepted, .tuned g.radio.held g.radio.state⟩)) s

/-! ### Presets (R143, R145) -/

/-- The hub with a preset replaced. -/
def Hub.setPreset (i : Fin 40) (x : Option Preset) (h : Hub) : Hub :=
  h.setRadio { h.radio with presets := h.radio.presets.set i x }

/-- STORE_PRESET in mode 0 (R130, R143); another mode code is refused. -/
def execStorePresetExplicit (p : Port) (index mode band freqHigh freqLow : Word) (s : State) :
    Host.Outcome State Fault Refusal :=
  request p 0x55 [index, mode, band, freqHigh, freqLow]
    (onHub fun _ h =>
      match presetOf index, bandOf band with
      | none, _ => (h, badValue 1)
      | some i, b =>
        if mode ≠ 0 then (h, badValue 2)
        else
          match b with
          | none => (h, badValue 3)
          | some b =>
            let khz := khzOf freqHigh freqLow
            let n := h.radio.plan.clamp b khz
            let e : Preset := ⟨⟨b, n⟩, none, none⟩
            (h.setPreset i (some e), okOrClamped (decide (n ≠ khz)) (.preset (some e)))) s

/-- STORE_PRESET in mode 1 (R143): the held frequency, with the committed name and the adopted code as they stand. While the
radio is tuning or searching that may be a name and a code that R143 takes to be cleared, and after a TUNE or a RECALL_PRESET
those of the station before, beside the new frequency (notes/assumptions/66.md). -/
def execStorePresetCurrent (p : Port) (index band freqHigh freqLow : Word) (s : State) :
    Host.Outcome State Fault Refusal :=
  request p 0x55 [index, 1, band, freqHigh, freqLow]
    (onHub fun _ h =>
      match presetOf index with
      | none => (h, badValue 1)
      | some i =>
        let e : Preset := ⟨h.radio.held, h.station.name, h.station.code⟩
        (h.setPreset i (some e), ⟨.ok, .preset (some e)⟩)) s

/-- CLEAR_PRESET (R145). -/
def execClearPreset (p : Port) (index : Word) (s : State) : Host.Outcome State Fault Refusal :=
  request p 0x57 [index]
    (onHub fun _ h =>
      match presetOf index with
      | none => (h, badValue 1)
      | some i => (h.setPreset i none, ⟨.ok, .none⟩)) s

/-- GET_PRESET (R145). -/
def execGetPreset (p : Port) (index : Word) (s : State) : Host.Outcome State Fault Refusal :=
  request p 0x58 [index]
    (onHub fun _ h =>
      match presetOf index with
      | none => (h, badValue 1)
      | some i => (h, ⟨.ok, .preset h.radio.presets[i]⟩)) s

/-! ### Band plan, options and reading (R146, R151 to R153, R167) -/

/-- R146, step 1: the effects of a change of the AM step on the tables and the frequencies. -/
def Radio.dropAm (r : Radio) : Radio :=
  let isAm := fun f : Freq => decide (f.band = .am)
  { r with
    presets := Vector.ofFn fun i =>
      match r.presets[i] with
      | some e => if isAm e.freq then none else some e
      | none => none
    stations := r.stations.filter fun e => !isAm e.freq
    held := if isAm r.held then ⟨.am, r.plan.lower .am⟩ else r.held
    frontEnd := r.frontEnd.filter fun f => !isAm f
    report := r.report.filter fun q => !isAm q.freq }

/-- R146: the band of a seek or a scan in flight. -/
def Radio.searchBand (r : Radio) : Option Band :=
  match r.op.map Operation.kind with
  | some (.seek _ _ start _ _) => some start.band
  | some (.scan _ b _) => some b
  | _ => none

/-- R146, step 3: the radio retunes an AM held frequency whose step changed. -/
def Hub.retuneHeld (h : Hub) : Hub :=
  match h.radio.state, h.radio.op with
  | .idle, _ => if h.radio.online then h.enterTuning .ret .set else h
  | .tuning, some ⟨_, .status, _⟩ | .tuning, some ⟨_, .blend, _⟩ => h
  | .tuning, some ⟨k, _, _⟩ => h.enterTuning k .set
  | _, _ => h

/-- R146: a change of the band plan. -/
def Hub.changePlan (plan : BandPlan) (h : Hub) : Hub :=
  let old := h.radio.plan
  let fmChanged := decide (plan.fmStep ≠ old.fmStep)
  let amChanged := decide (plan.amStep ≠ old.amStep)
  let r := { h.radio with plan := plan }
  let a := h.setRadio (if amChanged then r.dropAm else r)
  let b :=
    match h.radio.searchBand with
    | some .fm => if fmChanged then (a.endOperation .cancelled).enterTuning .ret .set else a
    | some .am => if amChanged then (a.endOperation .cancelled).enterTuning .ret .set else a
    | none => a
  if amChanged ∧ h.radio.held.band = .am then b.retuneHeld else b

/-- The occupied presets of a radio record. -/
def Radio.occupied (r : Radio) : Nat := (r.presets.toList.filter Option.isSome).length

/-- SET_BAND_PLAN (R146). -/
def execSetBandPlan (p : Port) (fmStep amStep : Word) (s : State) : Host.Outcome State Fault Refusal :=
  request p 0x50 [fmStep, amStep]
    (onHub fun _ h =>
      match fmStepOf fmStep, amStepOf amStep with
      | none, _ => (h, badValue 1)
      | some _, none => (h, badValue 2)
      | some fm, some am =>
        let plan : BandPlan := ⟨fm, am⟩
        let g := if plan = h.radio.plan then h else h.changePlan plan
        (g, ⟨.ok, .bandPlan plan (h.radio.occupied - g.radio.occupied)
          (h.radio.stations.length - g.radio.stations.length) g.radio.held⟩)) s

/-- R151: the options as a request gives them, each quantity clamped. -/
def optionsOf (follow forcedMono : Bool) (fmLevel fmNoise amLevel turnaround : Word) : RadioOptions :=
  ⟨follow, forcedMono, min 120 fmLevel.toNat, min 100 fmNoise.toNat, min 120 amLevel.toNat,
    clampNat 1 15 turnaround.toNat⟩

/-- SET_RADIO_OPTIONS (R150, R151): a change of forced mono sets blend pending while the link can carry it. -/
def execSetRadioOptions (p : Port) (follow forcedMono fmLevel fmNoise amLevel turnaround : Word) (s : State) :
    Host.Outcome State Fault Refusal :=
  request p 0x5B [follow, forcedMono, fmLevel, fmNoise, amLevel, turnaround]
    (onHub fun _ h =>
      match flagOf follow, flagOf forcedMono with
      | none, _ => (h, badValue 1)
      | some _, none => (h, badValue 2)
      | some f, some m =>
        let r := h.radio
        let o := optionsOf f m fmLevel fmNoise amLevel turnaround
        let clamped :=
          decide (o.fmLevel ≠ fmLevel.toNat ∨ o.fmNoise ≠ fmNoise.toNat ∨ o.amLevel ≠ amLevel.toNat ∨
            o.turnaround ≠ turnaround.toNat)
        let blend := decide (m ≠ r.options.forcedMono ∧ r.state ≠ .off) && r.online
        (h.setRadio { r with options := o, blendPending := r.blendPending || blend },
          okOrClamped clamped (.radioOptions o))) s

/-- R152: what GET_RADIO reads. -/
def radioView (r : Radio) : RadioView where
  plan := r.plan
  held := r.held
  frontEnd := r.frontEnd
  report := r.report
  state := r.state
  op := r.op
  scanCount :=
    match r.op.map Operation.kind with
    | some (.scan _ b _) => some (r.countOf b)
    | _ => none
  holder := r.holder
  options := r.options
  online := r.online
  exchangeInFlight := r.exchange.isSome
  blendPending := r.blendPending
  failed := r.failed
  offlines := r.offlines
  occupiedPresets := r.occupied
  stationCount := r.stations.length

/-- GET_RADIO (R152). -/
def execGetRadio (p : Port) (s : State) : Host.Outcome State Fault Refusal :=
  request p 0x5A [] (readOnly fun t => .radio (radioView t.hub.radio)) s

/-- GET_STATION_LIST (R153): up to six entries from a position. -/
def execGetStationList (p : Port) (first : Word) (s : State) : Host.Outcome State Fault Refusal :=
  request p 0x59 [first]
    (onHub fun _ h =>
      if 47 < first.toNat then (h, badValue 1)
      else (h, ⟨.ok, .stationList h.radio.stations.length ((h.radio.stations.drop first.toNat).take 6)⟩)) s

/-- R167: the follow check that a radio operation is. -/
def followView : Option Operation → Option (Nat × Nat × Phase)
  | some ⟨.follow level _ position _ _, phase, _⟩ => some (level, position, phase)
  | _ => none

/-- R167: what GET_STATION_DATA reads. -/
def stationView (h : Hub) : StationView where
  freq := h.station.freq
  code := h.station.code
  candidate := h.station.candidate
  confirmed := Vector.ofFn fun i => h.station.segments[i].confirmed.isSome
  name := h.station.name
  generation := h.station.generation
  textReceived := (h.station.textSegments.toList.filter Option.isSome).length
  text := h.station.text
  alternatives := h.station.alternatives
  clock := h.station.clock
  category := h.station.category
  follow := h.radio.options.follow
  weakRun := h.station.weakRun
  backOff := h.station.backOff
  followCheck := followView h.radio.op
  corrected := h.station.corrected
  rejected := h.station.rejected
  ignored := h.station.ignored

/-- GET_STATION_DATA (R167). -/
def execGetStationData (p : Port) (s : State) : Host.Outcome State Fault Refusal :=
  request p 0x60 [] (readOnly fun t => .stationData (stationView t.hub)) s

/-! ### The tuner link (R147 to R150, R155) -/

/-- LINK_MESSAGE_SEND (R150). -/
def execLinkMessageSend (s : State) : Host.Outcome State Fault Refusal := event (State.onHub Hub.linkSend) s

/-- SET_FREQ_REPLY (R136): the settle is counted from it. -/
def execSetFreqReply (s : State) : Host.Outcome State Fault Refusal :=
  event (State.onHub (Hub.takeReply 1 fun use h => h.forStep use fun op g => g.toPhase op .settle)) s

/-- GET_QUALITY_REPLY (R136, R138, R141, R150, R162, R163). -/
def execGetQualityReply (level noise flags : Byte) (s : State) : Host.Outcome State Fault Refusal :=
  event
    (State.onHub
      (Hub.takeReply 2 fun use h =>
        let q := h.radio.qualityOf level noise flags
        if use = .poll then h.polledQuality q else h.forStep use fun op g => g.measured op q)) s

/-- GET_DATA_REPLY (R147, R150, R155, R163): more than six words are an impossible length. -/
def execGetDataReply (words : List CodeWord) (s : State) : Host.Outcome State Fault Refusal :=
  event
    (State.onHub
      (if words.length ≤ 6 then
        Hub.takeReply 3 fun use h =>
          if use = .poll then if h.radio.state = .idle then h.takeWords words else h
          else h.forStep use fun op g => g.followData op words
      else Hub.attemptFailed)) s

/-- SET_BLEND_REPLY (R136, R150). -/
def execSetBlendReply (s : State) : Host.Outcome State Fault Refusal :=
  event (State.onHub (Hub.takeReply 4 fun use h => h.forStep use fun op g => g.toPhase op .set)) s

/-- STATUS_REPLY (R136, R149): its content enters no record (R194). -/
def execStatusReply (_status : Word) (s : State) : Host.Outcome State Fault Refusal :=
  event (State.onHub (Hub.takeReply 5 Hub.statusReplied)) s

/-- LINK_ATTEMPT_FAILED (R148). -/
def execLinkAttemptFailed (s : State) : Host.Outcome State Fault Refusal := event (State.onHub Hub.attemptFailed) s

/-! ### The radio's counts (R136, R149, R150, R162, R163) -/

/-- SETTLE_END (R136, R138). -/
def execSettleEnd (s : State) : Host.Outcome State Fault Refusal := event (State.eventStep .settleEnd) s

/-- FOLLOW_SETTLE_END (R163). -/
def execFollowSettleEnd (s : State) : Host.Outcome State Fault Refusal := event (State.eventStep .followSettleEnd) s

/-- FOLLOW_WAIT_END (R163). -/
def execFollowWaitEnd (s : State) : Host.Outcome State Fault Refusal := event (State.eventStep .followWaitEnd) s

/-- DATA_POLL_DUE (R150). -/
def execDataPollDue (s : State) : Host.Outcome State Fault Refusal := event (State.eventStep .dataPoll) s

/-- QUALITY_POLL_DUE (R150). -/
def execQualityPollDue (s : State) : Host.Outcome State Fault Refusal := event (State.eventStep .qualityPoll) s

/-- LINK_PROBE (R149). -/
def execLinkProbe (s : State) : Host.Outcome State Fault Refusal := event (State.eventStep .linkProbe) s

/-- FOLLOW_TRIGGER (R162, R163). -/
def execFollowTrigger (s : State) : Host.Outcome State Fault Refusal := event (State.eventStep .followTrigger) s

end Sys2Proof.Machine
end

