-- ==== Sys2Proof/Machine/Dispatch.lean ====
section
/-! DEFINITION. One arm for each command: the meaning of its row. -/

namespace Sys2Proof.Machine

/-- The effect of a command on everything but the queue of waiting commands. -/
def exec (i : Instr) (s : State) : Host.Outcome State Fault Refusal :=
  match i with
  | .powerOnReset => Sys2Proof.Machine.execPowerOnReset s
  | .resetPin asserted => Sys2Proof.Machine.execResetPin s asserted
  | .ignoringRelease p => Sys2Proof.Machine.execIgnoringRelease p s
  | .fetchFrame p low words => Sys2Proof.Machine.execFetchFrame p low words s
  | .badRequest p kind declared params => Sys2Proof.Machine.execBadRequest p kind declared params s
  | .identify p => Sys2Proof.Machine.execIdentify p s
  | .getResetCause p => Sys2Proof.Machine.execGetResetCause p s
  | .softReset p => Sys2Proof.Machine.execSoftReset p s
  | .enterStandby p => Sys2Proof.Machine.execEnterStandby p s
  | .wake p => Sys2Proof.Machine.execWake p s
  | .setWakeSense p set => Sys2Proof.Machine.execSetWakeSense p set s
  | .subscribe p set => Sys2Proof.Machine.execSubscribe p set s
  | .readNotices p => Sys2Proof.Machine.execReadNotices p s
  | .getSource p source => Sys2Proof.Machine.execGetSource p source s
  | .setPrefill p source target => Sys2Proof.Machine.execSetPrefill p source target s
  | .setGroups p source groupA groupB => Sys2Proof.Machine.execSetGroups p source groupA groupB s
  | .clearSourceCounters p source => Sys2Proof.Machine.execClearSourceCounters p source s
  | .getClock p => Sys2Proof.Machine.execGetClock p s
  | .setClockMode p mode => Sys2Proof.Machine.execSetClockMode p mode s
  | .zonePowerOn p zone code => Sys2Proof.Machine.execZonePowerOn p zone code s
  | .zonePowerOff p zone => Sys2Proof.Machine.execZonePowerOff p zone s
  | .selectSource p zone source => Sys2Proof.Machine.execSelectSource p zone source s
  | .setVolume p zone index => Sys2Proof.Machine.execSetVolume p zone index s
  | .stepVolume p zone step => Sys2Proof.Machine.execStepVolume p zone step s
  | .setMute p zone code => Sys2Proof.Machine.execSetMute p zone code s
  | .setMaxVolume p zone index => Sys2Proof.Machine.execSetMaxVolume p zone index s
  | .setLipsync p zone ms => Sys2Proof.Machine.execSetLipsync p zone ms s
  | .getZone p zone => Sys2Proof.Machine.execGetZone p zone s
  | .setDecodeMode p mode autoMatrix => Sys2Proof.Machine.execSetDecodeMode p mode autoMatrix s
  | .getDecode p => Sys2Proof.Machine.execGetDecode p s
  | .setSpeaker p position present size distance trim => Sys2Proof.Machine.execSetSpeaker p position present size distance trim s
  | .setSub p present distance trim => Sys2Proof.Machine.execSetSub p present distance trim s
  | .setCrossover p setting => Sys2Proof.Machine.execSetCrossover p setting s
  | .getLayout p => Sys2Proof.Machine.execGetLayout p s
  | .getDelay p => Sys2Proof.Machine.execGetDelay p s
  | .assignLane p lane target => Sys2Proof.Machine.execAssignLane p lane target s
  | .getLane p lane => Sys2Proof.Machine.execGetLane p lane s
  | .clearLaneFault p lane counters => Sys2Proof.Machine.execClearLaneFault p lane counters s
  | .getThermal p => Sys2Proof.Machine.execGetThermal p s
  | .setBandPlan p fmStep amStep => Sys2Proof.Machine.execSetBandPlan p fmStep amStep s
  | .tune p zone band freqHigh freqLow => Sys2Proof.Machine.execTune p zone band freqHigh freqLow s
  | .seek p zone direction => Sys2Proof.Machine.execSeek p zone direction s
  | .scan p zone band => Sys2Proof.Machine.execScan p zone band s
  | .cancelRadio p zone => Sys2Proof.Machine.execCancelRadio p zone s
  | .storePresetExplicit p index mode band freqHigh freqLow => Sys2Proof.Machine.execStorePresetExplicit p index mode band freqHigh freqLow s
  | .storePresetCurrent p index band freqHigh freqLow => Sys2Proof.Machine.execStorePresetCurrent p index band freqHigh freqLow s
  | .recallPreset p zone index => Sys2Proof.Machine.execRecallPreset p zone index s
  | .clearPreset p index => Sys2Proof.Machine.execClearPreset p index s
  | .getPreset p index => Sys2Proof.Machine.execGetPreset p index s
  | .getStationList p first => Sys2Proof.Machine.execGetStationList p first s
  | .getRadio p => Sys2Proof.Machine.execGetRadio p s
  | .setRadioOptions p follow forcedMono fmLevel fmNoise amLevel turnaround => Sys2Proof.Machine.execSetRadioOptions p follow forcedMono fmLevel fmNoise amLevel turnaround s
  | .getStationData p => Sys2Proof.Machine.execGetStationData p s
  | .packetArrival input words => Sys2Proof.Machine.execPacketArrival input words s
  | .serialFrameArrival input left right valid status blockStart => Sys2Proof.Machine.execSerialFrameArrival input left right valid status blockStart s
  | .outputSamplePeriod => Sys2Proof.Machine.execOutputSamplePeriod s
  | .outputBlockStart => Sys2Proof.Machine.execOutputBlockStart s
  | .pendingIntakeChange source => Sys2Proof.Machine.execPendingIntakeChange source s
  | .sourceAbsent source => Sys2Proof.Machine.execSourceAbsent source s
  | .slipLimitRestart source => Sys2Proof.Machine.execSlipLimitRestart source s
  | .fadeOutEnd zone => Sys2Proof.Machine.execFadeOutEnd zone s
  | .fadeInEnd zone => Sys2Proof.Machine.execFadeInEnd zone s
  | .zoneNoSignal zone => Sys2Proof.Machine.execZoneNoSignal zone s
  | .faultLayoutAdoption => Sys2Proof.Machine.execFaultLayoutAdoption s
  | .measurementIntervalEnd => Sys2Proof.Machine.execMeasurementIntervalEnd s
  | .holdoverExpiry => Sys2Proof.Machine.execHoldoverExpiry s
  | .relayClosed lane => Sys2Proof.Machine.execRelayClosed lane s
  | .releaseRampEnd lane => Sys2Proof.Machine.execReleaseRampEnd lane s
  | .relayOpened lane => Sys2Proof.Machine.execRelayOpened lane s
  | .faultInputAsserted lane level => Sys2Proof.Machine.execFaultInputAsserted lane level s
  | .retryEnd lane => Sys2Proof.Machine.execRetryEnd lane s
  | .tripHistoryExpiry lane => Sys2Proof.Machine.execTripHistoryExpiry lane s
  | .senseConversion channel code => Sys2Proof.Machine.execSenseConversion channel code s
  | .temperatureUpdate => Sys2Proof.Machine.execTemperatureUpdate s
  | .fanDutyAdoption => Sys2Proof.Machine.execFanDutyAdoption s
  | .fanTachPulse => Sys2Proof.Machine.execFanTachPulse s
  | .fanWindowEnd => Sys2Proof.Machine.execFanWindowEnd s
  | .activeEntry => Sys2Proof.Machine.execActiveEntry s
  | .powerOnDelayEnd => Sys2Proof.Machine.execPowerOnDelayEnd s
  | .standbyEntry => Sys2Proof.Machine.execStandbyEntry s
  | .linkMessageSend => Sys2Proof.Machine.execLinkMessageSend s
  | .setFreqReply => Sys2Proof.Machine.execSetFreqReply s
  | .getQualityReply level noise flags => Sys2Proof.Machine.execGetQualityReply level noise flags s
  | .getDataReply words => Sys2Proof.Machine.execGetDataReply words s
  | .setBlendReply => Sys2Proof.Machine.execSetBlendReply s
  | .statusReply status => Sys2Proof.Machine.execStatusReply status s
  | .linkAttemptFailed => Sys2Proof.Machine.execLinkAttemptFailed s
  | .settleEnd => Sys2Proof.Machine.execSettleEnd s
  | .followSettleEnd => Sys2Proof.Machine.execFollowSettleEnd s
  | .followWaitEnd => Sys2Proof.Machine.execFollowWaitEnd s
  | .dataPollDue => Sys2Proof.Machine.execDataPollDue s
  | .qualityPollDue => Sys2Proof.Machine.execQualityPollDue s
  | .linkProbe => Sys2Proof.Machine.execLinkProbe s
  | .followTrigger => Sys2Proof.Machine.execFollowTrigger s
  | .selectLineAsserted p => Sys2Proof.Machine.execSelectLineAsserted p s
  | .selectReleasedBeforeWord0 p => Sys2Proof.Machine.execSelectReleasedBeforeWord0 p s

end Sys2Proof.Machine
end

