-- ==== Sys2Proof/Machine/LinkBytes.lean ====
section
/-! DEFINITION. The tuner link's receiving side (R147, 12.6): which characters on the line belong to the reply to an
attempt, when a reply is complete, which replies the unit accepts, and the command of the table that the outcome of an
attempt is. The commands themselves are in Sys2Proof/Machine/RadioCommands.lean. -/

namespace Sys2Proof.Machine

/-- A character on the tuner link: when its start bit begins, in bit times from the start bit of the message's first
character, and its byte (R147). -/
structure LinkCharacter where
  start : Nat
  byte : Byte
deriving DecidableEq, Repr

/-- R147: the bit times that a character lasts: a start bit, eight data bits and a stop bit. -/
def characterBits : Nat := 10

/-- R147: the bit times, three characters, within which the next character of a reply must begin. -/
def deadlineBits : Nat := 30

/-- R147: when the part releases the line: after the last stop bit of its message, and the turnaround. -/
def LinkMessage.release (m : LinkMessage) (turnaround : Nat) : Nat := characterBits * m.bytes.length + turnaround

/-- R147: the bytes received before a deadline is missed; `since` is when the line was released, and after a character
when its stop bit ended. -/
def inTime (since : Nat) : List LinkCharacter → List Byte
  | [] => []
  | c :: rest => if c.start ≤ since + deadlineBits then c.byte :: inTime (c.start + characterBits) rest else []

/-- R147: the bytes of the reply to an attempt that releases the line at `release`: a character that begins while the
part drives the line is ignored, and a missed deadline ends the attempt. -/
def heardBytes (release : Nat) (line : List LinkCharacter) : List Byte :=
  inTime release (line.filter fun c => decide (release ≤ c.start))

/-- A reply that is complete: its kind byte, its payload and its check byte (R147). -/
structure LinkReply where
  kind : Byte
  payload : List Byte
  check : Byte
deriving DecidableEq, Repr

/-- R147: the complete reply at the head of the bytes received, as its length byte says; what follows it is ignored. -/
def completeReply : List Byte → Option LinkReply
  | kind :: length :: rest =>
    match rest.drop length.toNat with
    | check :: _ => some ⟨kind, rest.take length.toNat, check⟩
    | [] => none
  | _ => none

/-- 12.6, R194: whether a reply to a message may have a length. -/
def LinkMessage.mayReply (m : LinkMessage) (length : Nat) : Bool :=
  match m with
  | .setFreq _ | .setBlend _ => decide (length = 0)
  | .getQuality => decide (length = 3)
  | .getData => decide (length ≤ 24) && decide (length % 4 = 0)
  | .status => decide (length = 2)

/-- R147: whether a complete reply is a success of an attempt: its kind is the message's, its length is one that this
reply may have, and its bytes sum to 0 modulo 256. -/
def LinkReply.answers (r : LinkReply) (m : LinkMessage) : Bool :=
  decide (r.kind.toNat = m.code) && m.mayReply r.payload.length &&
    decide ((r.kind.toNat + r.payload.length + (r.payload.map BitVec.toNat).sum + r.check.toNat) % 256 = 0)

/-- 12.6: the station data words of a payload, four bytes each, the most significant first. -/
def dataWords : List Byte → List CodeWord
  | a :: b :: c :: d :: rest => (a ++ b ++ c ++ d) :: dataWords rest
  | _ => []

/-- 12.6: the command that a successful reply to a message is; a STATUS reply's two bytes enter no record (R194). -/
def LinkMessage.replyCommand (m : LinkMessage) (payload : List Byte) : Instr :=
  match m with
  | .setFreq _ => .setFreqReply
  | .getQuality => .getQualityReply (payload.getD 0 0) (payload.getD 1 0) (payload.getD 2 0)
  | .getData => .getDataReply (dataWords payload)
  | .setBlend _ => .setBlendReply
  | .status => .statusReply (payload.getD 0 0 ++ payload.getD 1 0)

/-- R147: what an attempt that sent a message with a turnaround comes to, for the characters on the line after it: the
reply's command where it succeeds, and LINK_ATTEMPT_FAILED otherwise (notes/assumptions/18.md). -/
def decodeReply (m : LinkMessage) (turnaround : Nat) (line : List LinkCharacter) : Instr :=
  match completeReply (heardBytes (m.release turnaround) line) with
  | some r => if r.answers m then m.replyCommand r.payload else .linkAttemptFailed
  | none => .linkAttemptFailed

/-- R147: what the present attempt of the exchange in flight comes to; with no exchange in flight the part listens to
nothing. -/
def Hub.linkOutcome (line : List LinkCharacter) (h : Hub) : Option Instr :=
  h.radio.exchange.map fun e => decodeReply e.message e.turnaround line

end Sys2Proof.Machine
end

