-- ==== Sys2Proof/WellFormed.lean ====
section
/-! DEFINITION. Which commands a sender can produce. The check concerns the form of a command alone: a request whose
parameter words are out of range is well-formed, and the part answers it (R174). -/

namespace Sys2Proof

/-- A command is well-formed when something outside the part can send it: a fetch frame has its word 0; a bad
request fails R170; a ZONE_POWER sent as on does not carry the off code, nor an explicit STORE_PRESET mode 1; a
packet has one to five words; a GET_DATA reply has at most six words. -/
def Instr.wellFormed : Instr → Bool
  | .fetchFrame _ _ words => decide (1 ≤ words)
  | .badRequest _ kind declared params =>
    decide (kind ≠ 0) && (frameCheck kind.toNat declared.toNat params.length).isSome
  | .zonePowerOn _ _ code => decide (code ≠ 0)
  | .storePresetExplicit _ _ mode _ _ _ => decide (mode ≠ 1)
  | .packetArrival _ words => decide (1 ≤ words.length) && decide (words.length ≤ 5)
  | .getDataReply words => decide (words.length ≤ 6)
  | .powerOnReset | .resetPin _ | .ignoringRelease _ | .identify _ | .getResetCause _ | .softReset _ => true
  | .enterStandby _ | .wake _ | .setWakeSense _ _ | .subscribe _ _ | .readNotices _ | .getSource _ _ => true
  | .setPrefill _ _ _ | .setGroups _ _ _ _ | .clearSourceCounters _ _ | .getClock _ | .setClockMode _ _ => true
  | .zonePowerOff _ _ | .selectSource _ _ _ | .setVolume _ _ _ | .stepVolume _ _ _ | .setMute _ _ _ => true
  | .setMaxVolume _ _ _ | .setLipsync _ _ _ | .getZone _ _ | .setDecodeMode _ _ _ | .getDecode _ => true
  | .setSpeaker _ _ _ _ _ _ | .setSub _ _ _ _ | .setCrossover _ _ | .getLayout _ | .getDelay _ => true
  | .assignLane _ _ _ | .getLane _ _ | .clearLaneFault _ _ _ | .getThermal _ | .setBandPlan _ _ _ => true
  | .tune _ _ _ _ _ | .seek _ _ _ | .scan _ _ _ | .cancelRadio _ _ | .storePresetCurrent _ _ _ _ _ => true
  | .recallPreset _ _ _ | .clearPreset _ _ | .getPreset _ _ | .getStationList _ _ | .getRadio _ => true
  | .setRadioOptions _ _ _ _ _ _ _ | .getStationData _ | .serialFrameArrival _ _ _ _ _ _ => true
  | .outputSamplePeriod | .outputBlockStart | .pendingIntakeChange _ | .sourceAbsent _ => true
  | .slipLimitRestart _ | .fadeOutEnd _ | .fadeInEnd _ | .zoneNoSignal _ | .faultLayoutAdoption => true
  | .measurementIntervalEnd | .holdoverExpiry | .relayClosed _ | .releaseRampEnd _ | .relayOpened _ => true
  | .faultInputAsserted _ _ | .retryEnd _ | .tripHistoryExpiry _ | .senseConversion _ _ => true
  | .temperatureUpdate | .fanDutyAdoption | .fanTachPulse | .fanWindowEnd | .activeEntry => true
  | .powerOnDelayEnd | .standbyEntry | .linkMessageSend | .setFreqReply | .getQualityReply _ _ _ => true
  | .setBlendReply | .statusReply _ | .linkAttemptFailed | .settleEnd | .followSettleEnd => true
  | .followWaitEnd | .dataPollDue | .qualityPollDue | .linkProbe | .followTrigger => true
  | .selectLineAsserted _ | .selectReleasedBeforeWord0 _ => true

end Sys2Proof
end

