-- ==== Sys2Proof/Safety.lean ====
section
/-! DEFINITION. What a safe run is and the terms in which statements speak of a step: what stays within its bounds in
every state, when a port listens, what a request leaves behind, and when nothing found waits to be taken. -/

namespace Sys2Proof.Machine

/-! ### Bounds -/

/-- R182: a notice queue holds at most 16 notices, no two of the same kind and object. -/
def PortRecord.queueOk (p : PortRecord) : Prop :=
  p.queue.length ≤ Config.queueNotices ∧ p.queue.Pairwise fun m n => m.sameThing n = false

/-- R182 at each of the three ports. -/
def State.queuesOk (s : State) : Prop := s.ports.a.queueOk ∧ s.ports.b.queueOk ∧ s.ports.c.queueOk

/-- R4: an intake buffer holds at most 64 frames. -/
def Source.bufferOk (x : Source) : Prop := x.buffer.length ≤ Config.bufferFrames

/-- R4 at each of the eight sources. -/
def State.buffersOk (s : State) : Prop := ∀ i : SourceId, s.sources[i].bufferOk

/-- No notice waits to be delivered, as between any two steps. -/
def State.delivered (s : State) : Prop := s.hub.outbox = []

/-- The sample range: the signed 24-bit integers (00_scope.md, Samples and frames). -/
def inSampleRange (x : Int) : Prop := -8388608 ≤ x ∧ x ≤ 8388607

/-- The settings of a zone record: what controllers write and no event of the audio path changes. -/
structure ZoneSettings where
  power : Bool
  selected : SourceId
  volume : Nat
  maxVolume : Nat
  mute : Bool
  lipRequested : Nat
deriving DecidableEq, Repr

/-- The settings of a zone record. -/
def Zone.settings (x : Zone) : ZoneSettings :=
  ⟨x.power, x.selected, x.volume, x.maxVolume, x.mute, x.lipRequested⟩

/-- The settings of the three zones. -/
def settingsOf (t : PerZone Zone) : PerZone ZoneSettings := ⟨t.main.settings, t.z2.settings, t.z3.settings⟩

/-- 3.1, R51, R58 to R60: a volume index never exceeds its zone's maximum, a maximum never exceeds 184, and a lip-sync
request never exceeds 500 ms. -/
def ZoneSettings.ok (x : ZoneSettings) : Prop := x.volume ≤ x.maxVolume ∧ x.maxVolume ≤ 184 ∧ x.lipRequested ≤ 500

/-- The bounds of the settings of each zone. -/
def State.settingsOk (s : State) : Prop :=
  s.hub.zones.main.settings.ok ∧ s.hub.zones.z2.settings.ok ∧ s.hub.zones.z3.settings.ok

/-- What the controllers write in the renderer record: the layout table, the trims and the crossover setting. -/
structure LayoutTables where
  entries : Vector PositionEntry 7
  sub : SubEntry
  trimZ2 : Int
  trimZ3 : Int
  crossover : Nat
deriving DecidableEq, Repr

/-- The layout tables of a renderer record. -/
def Renderer.tables (r : Renderer) : LayoutTables := ⟨r.entries, r.sub, r.trimZ2, r.trimZ3, r.crossover⟩

/-- A step that answers neither a fault nor a refusal. -/
def State.goesOn (s : State) : Prop := ∃ t, step s = .next t

/-- A step keeps a property of states. -/
def keptByEveryStep (inv : State → Prop) : Prop := ∀ s t : State, inv s → step s = .next t → inv t

/-! ### When a step does what its rule says -/

/-- R168, R187: a port that is not IGNORING its select period, of a part that is not kept in reset. -/
def State.listens (s : State) (p : Port) : Prop :=
  (s.ports.get p).receive ≠ .ignoring ∧ s.hub.standby.inReset = false

/-- A state in which an event acts: no notice waits to be delivered, as between any two steps, and the part is not kept in
reset by its reset pin (R187). -/
def State.ready (s : State) : Prop := s.delivered ∧ s.hub.standby.inReset = false

/-- Nothing waits to happen before time moves on: no event found is untaken, the link carries no further message, and
STANDBY is not to be entered (notes/assumptions/6.md). -/
def State.settled (s : State) : Prop :=
  s.hub.due = [] ∧ (s.hub.radio.exchange.isSome = true ∨ s.hub.radio.nextMessage = none) ∧ s.hub.standbyReached = false

/-! ### What a select period leaves behind -/

/-- R169, R170, R173: the commands that are the release of port `p`'s select line: that of a request frame, of a frame that
fails a check, of a fetch frame, out of IGNORING, and before word 0 is whole. -/
def releasesSelect (i : Instr) (p : Port) : Prop :=
  (∃ kind params, i.frame = some (p, kind, params)) ∨ (∃ kind declared params, i = .badRequest p kind declared params) ∨
    (∃ low words, i = .fetchFrame p low words) ∨ i = .ignoringRelease p ∨ i = .selectReleasedBeforeWord0 p

/-- From `s` to `t` nothing but the record of port `p` changes. -/
def State.onlyPort (s t : State) (p : Port) : Prop :=
  t.sources = s.sources ∧ t.hub = s.hub ∧ (∀ q, q ≠ p → t.ports.get q = s.ports.get q) ∧ t.freeIndex = s.freeIndex ∧
    t.pending = s.pending

/-- Two port records with the same subscriptions, counters and notice queue. -/
def PortRecord.sameStanding (x y : PortRecord) : Prop :=
  y.subscriptions = x.subscriptions ∧ y.run = x.run ∧ y.refused = x.refused ∧ y.discarded = x.discarded ∧
    y.queue = x.queue ∧ y.lost = x.lost

/-! ### What a request leaves behind -/

/-- R171, R172: what a request that was run leaves in the record of its port, `x` being the record as the request's
rule leaves it: a reply in the slot, requests run advanced, an unread reply discarded and counted, and the queue, the
subscriptions and the other counters as they were. -/
def PortRecord.answeredBy (x y : PortRecord) (index : Nat) (status : Status) (data : ReplyData) : Prop :=
  y.receive = .idle ∧ y.slot = some ⟨status, x.slot.isSome, data, replyWords index data⟩ ∧ y.run = bump x.run ∧
    y.discarded = (if x.slot.isSome then bump x.discarded else x.discarded) ∧ y.refused = x.refused ∧
    y.subscriptions = x.subscriptions ∧ y.queue = x.queue ∧ y.lost = x.lost

/-- R171, R172, R180: from `s` to `t` port `p` is answered, its record standing at `x` after the request's rule, the
two other ports take the notices of the request and nothing else, and the waiting commands stay. -/
def State.answers (s t : State) (p : Port) (x : PortRecord) (status : Status) (data : ReplyData)
    (notices : List Notice) : Prop :=
  x.answeredBy (t.ports.get p) s.freeIndex status data ∧
    (∀ q, q ≠ p → t.ports.get q = deliverAll notices false (s.ports.get q)) ∧
    t.freeIndex = s.freeIndex + 1 ∧ t.pending = s.pending

/-- A request that changes no block and no other port: port `p` is answered and all else stays. -/
def State.answersOnly (s t : State) (p : Port) (status : Status) (data : ReplyData) : Prop :=
  s.answers t p (s.ports.get p) status data [] ∧ t.sources = s.sources ∧ t.hub = s.hub

/-- The requests whose parameter word `n` is an identifier or a code that lies outside its set, all words before it
being taken: the zone, source, lane, preset, band, direction, mode and on/off codes of R175. -/
def badCode (i : Instr) (n : Nat) : Prop :=
  let zone (w : Word) := w.toNat < 3
  let source (w : Word) := w.toNat < 8
  let lane (w : Word) := w.toNat < 11
  let preset (w : Word) := w.toNat < 40
  let flag (w : Word) := w.toNat < 2
  match i with
  | .setWakeSense _ w | .subscribe _ w => n = 1 ∧ 256 ≤ w.toNat
  | .getSource _ w | .clearSourceCounters _ w | .setPrefill _ w _ => n = 1 ∧ ¬ source w
  | .setGroups _ w a b =>
    (n = 1 ∧ 2 ≤ w.toNat) ∨ (n = 2 ∧ w.toNat < 2 ∧ ¬ (1 ≤ a.toNat ∧ a.toNat ≤ 4)) ∨
      (n = 3 ∧ w.toNat < 2 ∧ (1 ≤ a.toNat ∧ a.toNat ≤ 4) ∧ (¬ (1 ≤ b.toNat ∧ b.toNat ≤ 4) ∨ a = b))
  | .setClockMode _ w => n = 1 ∧ ¬ flag w
  | .zonePowerOn _ w code => (n = 1 ∧ ¬ zone w) ∨ (n = 2 ∧ zone w ∧ code ≠ 1)
  | .zonePowerOff _ w | .setVolume _ w _ | .stepVolume _ w _ | .setMaxVolume _ w _ | .setLipsync _ w _ | .getZone _ w
  | .cancelRadio _ w => n = 1 ∧ ¬ zone w
  | .selectSource _ w x => (n = 1 ∧ ¬ zone w) ∨ (n = 2 ∧ zone w ∧ ¬ source x)
  | .setMute _ w x | .seek _ w x | .scan _ w x | .tune _ w x _ _ => (n = 1 ∧ ¬ zone w) ∨ (n = 2 ∧ zone w ∧ ¬ flag x)
  | .setDecodeMode _ w x => (n = 1 ∧ 4 ≤ w.toNat) ∨ (n = 2 ∧ w.toNat < 4 ∧ ¬ flag x)
  | .setSpeaker _ w x y _ _ =>
    (n = 1 ∧ 9 ≤ w.toNat) ∨ (n = 2 ∧ w.toNat < 7 ∧ ¬ flag x) ∨ (n = 3 ∧ w.toNat < 7 ∧ flag x ∧ ¬ flag y)
  | .setSub _ w _ _ => n = 1 ∧ ¬ flag w
  | .setCrossover _ w => n = 1 ∧ 5 ≤ w.toNat
  | .assignLane _ w x => (n = 1 ∧ ¬ lane w) ∨ (n = 2 ∧ lane w ∧ 12 ≤ x.toNat)
  | .getLane _ w => n = 1 ∧ ¬ lane w
  | .clearLaneFault _ w x => (n = 1 ∧ ¬ lane w) ∨ (n = 2 ∧ lane w ∧ ¬ flag x)
  | .setBandPlan _ w x => (n = 1 ∧ 3 ≤ w.toNat) ∨ (n = 2 ∧ w.toNat < 3 ∧ ¬ flag x)
  | .recallPreset _ w x => (n = 1 ∧ ¬ zone w) ∨ (n = 2 ∧ zone w ∧ ¬ preset x)
  | .storePresetExplicit _ w m b _ _ =>
    (n = 1 ∧ ¬ preset w) ∨ (n = 2 ∧ preset w ∧ 2 ≤ m.toNat) ∨ (n = 3 ∧ preset w ∧ m = 0 ∧ ¬ flag b)
  | .storePresetCurrent _ w _ _ _ | .clearPreset _ w | .getPreset _ w => n = 1 ∧ ¬ preset w
  | .getStationList _ w => n = 1 ∧ 48 ≤ w.toNat
  | .setRadioOptions _ w x _ _ _ _ => (n = 1 ∧ ¬ flag w) ∨ (n = 2 ∧ flag w ∧ ¬ flag x)
  | _ => False

/-! ### What an event leaves behind -/

/-- R180: from `s` to `t` every port takes the notices of an event and nothing else, and the waiting commands and the
count of free replies stay. -/
def State.tells (s t : State) (notices : List Notice) : Prop :=
  (∀ q, t.ports.get q = deliverAll notices false (s.ports.get q)) ∧ t.freeIndex = s.freeIndex ∧ t.pending = s.pending

/-! ### What a change of a source leads to in the other blocks -/

/-- R56, R32, R41, R36: from `h` to `g` source `i` has entered RUNNING. A zone that waits for it fades in from silence and
posts ZONE_STATE, and a clock that follows it acquires it, from the nominal period word out of FREE and from the frozen
one out of HOLDOVER, and posts CLOCK_STATE. No other zone and no other block changes. -/
def Hub.tookEntry (h g : Hub) (i : SourceId) (notices : List Notice) : Prop :=
  let acquired (period : Nat) : Clock :=
    { h.clock with state := .acquiring, period := period, good := 0, holdover := 0, partialInterval := true }
  (∀ z, (h.zone z).current = some i → (h.zone z).state = .waiting →
    g.zone z = { h.zone z with state := .fadingIn, gain := -1, noSignal := 0, noSignalReported := false } ∧
      zoneStateNotice z (g.zone z) ∈ notices) ∧
  (∀ z, ¬ ((h.zone z).current = some i ∧ (h.zone z).state = .waiting) → g.zone z = h.zone z) ∧
  (h.clock.reference = some i → h.clock.state = .free → g.clock = acquired 33554432) ∧
  (h.clock.reference = some i → h.clock.state = .holdover → h.clock.holdover < 8 → g.clock = acquired h.clock.period) ∧
  (¬ (h.clock.reference = some i ∧ (h.clock.state = .free ∨ h.clock.state = .holdover)) → g.clock = h.clock) ∧
  (g.clock ≠ h.clock → clockStateNotice g.clock ∈ notices) ∧
  g = { h with zones := g.zones, clock := g.clock, due := g.due }

/-- R32: a clock whose reference has left RUNNING: in HOLDOVER, its period word frozen, out of ACQUIRING and LOCKED. -/
def Clock.heldOver (c : Clock) : Clock :=
  if c.state = .acquiring ∨ c.state = .locked then { c with state := .holdover, holdover := 0 } else c

/-- R55, R32, R31, R41, R36: from `h` to `g` source `i` has left RUNNING, the sources standing at `src` after it. A zone
that plays it or fades it in waits for it anew, in silence; one that waits goes on waiting; one that fades it out ends its
fade at once as R54 says; and a zone with another source keeps its state. (A LAYOUT item that such a fade's end applies,
which may bring another zone a new grant and a fade under R97, is left out.) A clock that follows it is in HOLDOVER, or
follows what the main zone's fade has made current. -/
def Hub.tookDeparture (h g : Hub) (src : Vector Source 8) (i : SourceId) (notices : List Notice) : Prop :=
  let main := h.zones.main
  let c := h.clock
  let follows := c.running = true ∧ c.mode = .auto ∧ c.reference = some i
  (∀ z, (h.zone z).current = some i →
    ((h.zone z).state = .playing ∨ (h.zone z).state = .fadingIn →
      (g.zone z).state = .waiting ∧ (g.zone z).current = some i ∧ (g.zone z).gain = -1 ∧ (g.zone z).noSignal = 0 ∧
        (g.zone z).noSignalReported = false ∧ zoneStateNotice z (g.zone z) ∈ notices) ∧
    ((h.zone z).state = .waiting →
      (g.zone z).state = .waiting ∧ (g.zone z).current = some i ∧ (g.zone z).noSignal = (h.zone z).noSignal)) ∧
  ((∀ z, (h.zone z).pending.layout = false) → ∀ z, let x := h.zone z
    (x.current = some i → ∀ k, x.state = .fadingOut k →
      (g.zone z).gain = -1 ∧ (g.zone z).pending = ⟨false, false, false⟩ ∧
      (k = .switch → (g.zone z).current = some x.selected ∧
        (g.zone z).state = (if src[x.selected].state = .running then .fadingIn else .waiting)) ∧
      (k = .reconfigure → (g.zone z).current = some i ∧ (g.zone z).state = .waiting) ∧
      (k = .powerOff → (g.zone z).current = none ∧ (g.zone z).state = .off)) ∧
    (x.current ≠ some i → (g.zone z).state = x.state ∧ (g.zone z).current = x.current ∧ (g.zone z).gain = x.gain ∧
      (g.zone z).noSignal = x.noSignal)) ∧
  (¬ (main.current = some i ∧ ∃ k, main.state = .fadingOut k) →
    g.clock = if c.reference = some i then c.heldOver else c) ∧
  (main.current = some i → main.state = .fadingOut .reconfigure → follows → g.clock = c.heldOver) ∧
  (main.current = some i → main.state = .fadingOut .switch → follows →
    (src[main.selected].state ≠ .running → g.clock = { c.heldOver with reference := some main.selected }) ∧
    (src[main.selected].state = .running → (c.state = .holdover → c.holdover < 8) →
      g.clock =
        { c with
          reference := some main.selected, state := .acquiring, good := 0, holdover := 0, partialInterval := true
          period := if c.state = .free then 33554432 else c.period })) ∧
  (main.current = some i → main.state = .fadingOut .powerOff → c.reference = none → g.clock = c) ∧
  (g.clock ≠ c → clockStateNotice g.clock ∈ notices)

/-- R70, R87: the decoder and the renderer are as they were, where no fade of the main zone ends by the departure of
source `i` and no other zone holds an item of theirs. -/
def Hub.keepsAudio (h g : Hub) (i : SourceId) : Prop :=
  ¬ (h.zones.main.current = some i ∧ ∃ k, h.zones.main.state = .fadingOut k) →
    (∀ z, z ≠ .main → (h.zone z).pending.decode = false ∧ (h.zone z).pending.layout = false) →
      g.decoder = h.decoder ∧ g.renderer = h.renderer

/-! ### The tuner holder -/

/-- R133: from `h` to `g` the tuner holder has been derived again: a holder that is on with TUN selected stays; otherwise
it is the first such zone of MAIN, Z2 and Z3, or none; and a change posts RADIO_HOLDER. -/
def Hub.derivesHolder (h g : Hub) (notices : List Notice) : Prop :=
  let wants (z : ZoneId) : Prop := (g.zone z).power = true ∧ (g.zone z).selected.val = 6
  (∀ z, h.radio.holder = some z → wants z → g.radio.holder = some z) ∧
  ((∀ z, h.radio.holder = some z → ¬ wants z) →
    (wants .main → g.radio.holder = some .main) ∧
    (¬ wants .main → wants .z2 → g.radio.holder = some .z2) ∧
    (¬ wants .main → ¬ wants .z2 → wants .z3 → g.radio.holder = some .z3) ∧
    (¬ wants .main → ¬ wants .z2 → ¬ wants .z3 → g.radio.holder = none)) ∧
  (g.radio.holder ≠ h.radio.holder → radioHolderNotice g.radio.holder ∈ notices)

/-! ### The adoption of a layout -/

/-- R87: from `r` to `q` the layout `l` has come into force. A distance line keeps its samples where its length stays, and
else has its new length and holds zeros; a bass filter keeps its state where its position stays bass-managed, and is 0
where its position joins or leaves the set. -/
def Renderer.adopted (r q : Renderer) (l : Layout) : Prop :=
  q.inForce = l ∧
  (∀ p : Position,
    q.lines[p] = (if l.delays[p] = r.inForce.delays[p] then r.lines[p] else List.replicate l.delays[p] 0) ∧
    (l.bass.getLsbD p.val = true → r.inForce.bass.getLsbD p.val = true → q.filters[p] = r.filters[p]) ∧
    (l.bass.getLsbD p.val ≠ r.inForce.bass.getLsbD p.val → q.filters[p] = 0)) ∧
  q.subLine = (if l.subDelay = r.inForce.subDelay then r.subLine else List.replicate l.subDelay 0)

/-- R86, R87: the notices of an adoption that changes the layout in force. -/
def Renderer.tellsAdoption (r q : Renderer) (notices : List Notice) : Prop :=
  q.inForce ≠ r.inForce →
    layoutEffectiveNotice q ∈ notices ∧
      (r.inForce.valid = true → q.inForce.valid = false → layoutInvalidNotice q.inForce ∈ notices)

/-- R86, R50, R87: from `h` to `g` a controller has brought the derivation to `l`. A derived layout that changes posts
LAYOUT_EFFECTIVE. Where it equals the one in force, or an item is pending already, nothing more is done; otherwise the
LAYOUT item is applied at once while the main zone is OFF or WAITING, sends an audible one into FADING_OUT with purpose
RECONFIGURE from its present gain, and joins the set of one that fades out. -/
def Hub.raisesLayout (h g : Hub) (l : Layout) (notices : List Notice) : Prop :=
  let r := h.renderer
  let q := g.renderer
  let x := h.zones.main
  let y := g.zones.main
  let stays := q.inForce = r.inForce ∧ q.lines = r.lines ∧ q.subLine = r.subLine ∧ q.filters = r.filters
  q.derived = l ∧
  (l ≠ r.derived →
    layoutEffectiveNotice { r with itemPending := r.itemPending || decide (l ≠ r.inForce) } ∈ notices) ∧
  (l = r.inForce ∨ r.itemPending = true → q.itemPending = r.itemPending ∧ stays) ∧
  (l ≠ r.inForce → r.itemPending = false →
    (x.state = .off ∨ x.state = .waiting →
      q.itemPending = false ∧ r.adopted q l ∧ r.tellsAdoption q notices ∧ y.state = x.state) ∧
    (x.state = .playing ∨ x.state = .fadingIn →
      y.state = .fadingOut .reconfigure ∧ y.gain = x.gain ∧ y.pending.layout = true ∧ q.itemPending = true ∧ stays) ∧
    (∀ k, x.state = .fadingOut k →
      y.state = .fadingOut k ∧ y.gain = x.gain ∧ y.pending.layout = true ∧ q.itemPending = true ∧ stays))

/-! ### What a zone's change leads to in the clock and the decoder -/

/-- R30: the reference that the mode and the main zone give while the Sample Clock Unit runs. -/
def Hub.referenceWanted (h : Hub) : Option SourceId :=
  let main := h.zones.main
  if h.clock.mode = .forcedFree ∨ main.state = .off ∨ main.state = .fadingOut .powerOff then none else main.current

/-- R30, R31, R36: from `h` to `g` the reference has been derived again, the sources standing at `src`. While the unit is
stopped, and where the reference stays, the clock stays; a change is taken by the table of R31 and posts CLOCK_STATE. -/
def Hub.followsMain (h g : Hub) (src : Vector Source 8) (notices : List Notice) : Prop :=
  let c := h.clock
  let r := g.referenceWanted
  (c.running = false ∨ r = c.reference → g.clock = c) ∧
  (c.running = true → r ≠ c.reference → clockStateNotice g.clock ∈ notices ∧
    (r = none →
      (c.state = .free → g.clock = { c with reference := none }) ∧
      (c.state ≠ .free →
        g.clock =
          { c with
            reference := none, state := .free, period := 33554432, good := 0, holdover := 0, partialInterval := false })) ∧
    ∀ i, r = some i →
      (src[i].state = .running →
        (c.state = .free →
          g.clock =
            { c with
              reference := r, state := .acquiring, period := 33554432, good := 0, holdover := 0
              partialInterval := true }) ∧
        (c.state ≠ .free → (c.state = .holdover → c.holdover < 8) →
          g.clock =
            { c with reference := r, state := .acquiring, good := 0, holdover := 0, partialInterval := true })) ∧
      (src[i].state ≠ .running →
        (c.state = .free ∨ c.state = .holdover → g.clock = { c with reference := r }) ∧
        (c.state = .acquiring ∨ c.state = .locked →
          g.clock = { c with reference := r, state := .holdover, holdover := 0 })))

/-- R36: the notice of a change of reference. -/
def Hub.clockNotices (h g : Hub) : List Notice :=
  if g.clock.reference = h.clock.reference then [] else [clockStateNotice g.clock]

/-- R69: the mode and reason that the table gives for a decode source with a channel set. -/
def Decoder.tablePair (d : Decoder) (set : Channels) : DecodePair :=
  match d.requested, decide (set &&& 0xFC ≠ 0) with
  | .auto, false => if d.autoMatrix then ⟨.matrix, .auto⟩ else ⟨.direct, .auto⟩
  | .auto, true => ⟨.direct, .auto⟩
  | .direct, _ => ⟨.direct, .asRequested⟩
  | .matrix, false => ⟨.matrix, .asRequested⟩
  | .matrix, true => ⟨.direct, .matrixNeedsStereo⟩
  | .fold2, false => ⟨.direct, .fold2NeedsMultichannel⟩
  | .fold2, true => ⟨.fold2, .asRequested⟩

/-- R71: from `d` to `e` a pair has been adopted: a change of mode puts the steering state, the sums and the coefficients at
zero steering, and without one they stay. -/
def Decoder.adopts (d e : Decoder) (pair : DecodePair) : Prop :=
  e.active = pair ∧
  (pair.mode ≠ d.active.mode →
    e.dLr = 0 ∧ e.dCs = 0 ∧ e.sums = ⟨0, 0, 0, 0⟩ ∧ e.lastRaw = none ∧
      e.steering = ⟨8192, 8192, 0, 32768, 32768⟩) ∧
  (pair.mode = d.active.mode →
    e.dLr = d.dLr ∧ e.dCs = d.dCs ∧ e.sums = d.sums ∧ e.lastRaw = d.lastRaw ∧ e.steering = d.steering)

/-- R70, R69: from `d` to `e` the source `i` with a channel set has been handed over: the table's pair is derived and adopted
at once, and a DECODE item that is pending stays so. -/
def Decoder.handedOver (d e : Decoder) (i : SourceId) (set : Channels) : Prop :=
  e.source = some i ∧ e.derived = d.tablePair set ∧ d.adopts e (d.tablePair set) ∧ e.itemPending = d.itemPending ∧
    e.requested = d.requested ∧ e.autoMatrix = d.autoMatrix

/-- R71: the notice of an adoption, made while a DECODE item was pending or not. -/
def Decoder.adoptionNotices (d e : Decoder) (item : Bool) : List Notice :=
  if e.active = d.active then [] else [decodeActiveNotice { e with itemPending := item }]

/-- R54: whether the end of a fade-out for a purpose makes the selected source current anew. -/
def Zone.switches (x : Zone) (k : Purpose) : Prop := k = .switch ∧ x.current ≠ some x.selected

/-- R53, R54, R70, R71: from `h` to `g` the end of the main zone's fade-out for the purpose `k` has been taken by the
decoder: a SWITCH hands over the selected source where it becomes current, POWER_OFF takes the decode source away, and a
pending DECODE item adopts the derived pair and is pending no longer. -/
def Hub.decodesAfterFade (h g : Hub) (src : Vector Source 8) (k : Purpose) : Prop :=
  let x := h.zones.main
  let d := h.decoder
  let e := g.decoder
  (x.switches k →
    e.source = some x.selected ∧ e.derived = d.tablePair src[x.selected].channels ∧
      d.adopts e (d.tablePair src[x.selected].channels)) ∧
  (¬ x.switches k →
    e.source = (if k = .powerOff then none else d.source) ∧ e.derived = d.derived ∧
      d.adopts e (if x.pending.decode then d.derived else d.active)) ∧
  e.itemPending = (d.itemPending && !x.pending.decode) ∧ e.requested = d.requested ∧ e.autoMatrix = d.autoMatrix

/-- R53, R71: the DECODE_ACTIVE of that end; a handover comes before the pending set is applied. -/
def Hub.fadeDecodeNotices (h g : Hub) (k : Purpose) : List Notice :=
  h.decoder.adoptionNotices g.decoder
    (if k = .switch ∧ h.zones.main.current ≠ some h.zones.main.selected then h.decoder.itemPending else false)

/-- R53, R54, R70, R71, R87: from `h` to `g` source `i` has left RUNNING while the main zone, whose current source it was,
faded it out: the fade has ended with its handover, its DECODE item and its LAYOUT item. (Items that another zone holds, which
would be applied as well, are left out.) -/
def Hub.tookMainFade (h g : Hub) (src : Vector Source 8) (i : SourceId) : Prop :=
  ∀ k, h.zones.main.current = some i → h.zones.main.state = .fadingOut k →
    (∀ z, z ≠ .main → (h.zone z).pending.decode = false ∧ (h.zone z).pending.layout = false) →
      h.decodesAfterFade g src k ∧
        g.renderer.inForce = (if h.zones.main.pending.layout then h.renderer.derived else h.renderer.inForce)

/-- R74, R89, R53: the layout in force governs the output block that begins, and back-fill is decided for it. -/
def Hub.blockDecided (g : Hub) (src : Vector Source 8) : Prop :=
  let set : Channels := match g.decoder.source with | none => 0 | some i => src[i].channels
  let fills (k : Nat) : Bool :=
    g.renderer.inForce.present.getLsbD k &&
      decide (g.decoder.active.mode = .matrix ∨ (g.decoder.active.mode = .direct ∧ set &&& 0xC0 = 0))
  g.renderer.governing = g.renderer.inForce ∧ g.decoder.backfillL = fills 5 ∧ g.decoder.backfillR = fills 6

/-- R53, R74: where source `i` leaves RUNNING at the start of a block in the course of the main zone's fade-out, layout and
back-fill are decided for that block after the fade has ended. -/
def Hub.decidedAfterFade (h g : Hub) (src : Vector Source 8) (i : SourceId) : Prop :=
  ∀ k, h.zones.main.current = some i → h.zones.main.state = .fadingOut k → g.blockDecided src

/-- R41, R90: from `r` to `q` every distance line holds zeros over its length and every bass filter state is 0; nothing else
changes, but that the layout which governs may be decided again. -/
def Renderer.cleared (r q : Renderer) : Prop :=
  q = { r with
    governing := q.governing
    lines := Vector.ofFn fun p => List.replicate r.inForce.delays[p] 0
    subLine := List.replicate r.inForce.subDelay 0
    filters := Vector.replicate 7 0 }

/-! ### Grants -/

/-- R96: in `g` the grants are those of the requests, in the order DIST, MAIN, Z2, Z3, out of 196,608 cells. -/
def Hub.granted (g : Hub) : Prop :=
  let dist := max g.renderer.derived.cells g.renderer.inForce.cells
  let main := g.zones.main
  let z2 := g.zones.z2
  let z3 := g.zones.z3
  main.lipGranted = (if main.power then min main.lipRequested ((196608 - dist) / 384) else 0) ∧
  z2.lipGranted = (if z2.power then min z2.lipRequested ((196608 - dist - 384 * main.lipGranted) / 96) else 0) ∧
  z3.lipGranted =
    (if z3.power then
      min z3.lipRequested ((196608 - dist - 384 * main.lipGranted - 96 * z2.lipGranted) / 96)
     else 0) ∧
  (dist ≤ 196608 → dist + 384 * main.lipGranted + 96 * z2.lipGranted + 96 * z3.lipGranted ≤ 196608)

/-- R98: a zone whose lip-sync in effect exceeded its grant has given the cells up. -/
def Zone.squeezed (x y : Zone) : Prop :=
  x.lipGranted < x.lipEffect ∧
    y = { x with
      lipEffect := x.lipGranted
      line := List.replicate (48 * x.lipGranted) Frame.zero
      pending := { x.pending with lipsync := false } }

/-- R52, R50, R97: from `x` to `y` zone `z` has been handed its grant. A new one posts LIPSYNC_GRANTED; a silent zone adopts it
at once, an audible one enters FADING_OUT with purpose RECONFIGURE with a LIPSYNC item pending, and one that fades out goes on
with the item pending (unless R98 has applied it already). A grant that stays leaves a zone that is not silent as it was, but
for R98. -/
def Zone.tookGrant (x y : Zone) (z : ZoneId) (notices : List Notice) : Prop :=
  let held := y.pending.lipsync = true ∨ y.lipEffect = y.lipGranted
  y.settings = x.settings ∧ y.current = x.current ∧ y.gain = x.gain ∧
  (x.state = .off ∨ x.state = .waiting → y.state = x.state ∧ y.noSignal = x.noSignal) ∧
  (y.lipGranted = x.lipGranted → x.state ≠ .off → x.state ≠ .waiting → y = x ∨ x.squeezed y) ∧
  (y.lipGranted ≠ x.lipGranted → lipsyncNotice z y ∈ notices ∧
    (x.state = .off ∨ x.state = .waiting → y.lipEffect = y.lipGranted) ∧
    (x.state = .playing ∨ x.state = .fadingIn →
      y.state = .fadingOut .reconfigure ∧ held ∧ zoneStateNotice z y ∈ notices) ∧
    (∀ k, x.state = .fadingOut k → y.state = .fadingOut k ∧ held))

/-! ### The relays -/

/-- R110, R111: a lane after its closing conditions have been examined and found to hold or not. -/
def Lane.follows (x : Lane) (hold : Bool) : Lane :=
  match x.relay, hold with
  | .open, true => { x with relay := .closing, timer := 0 }
  | .closing, false => { x with relay := .opening, timer := 0, ramp := none }
  | .closed, false => { x with ramp := if x.ramp.isSome then x.ramp else some 0 }
  | _, _ => x

/-- R110, R128: one LANE_STATE, in lane order, for each lane whose relay state has changed from `h` to `g`. -/
def Hub.relayNotices (h g : Hub) : List Notice :=
  ((List.finRange 11).filter fun l => decide (g.lanes[l].relay ≠ h.lanes[l].relay)).map fun l =>
    laneStateNotice l g.lanes[l]

/-- R110, R111: from `h` to `g` the closing conditions of every lane have been examined, as they stand in `g`. (No fault input
is asserted: a relay that closes would trip at once.) -/
def Hub.relaysFollow (h g : Hub) : Prop := ∀ l : LaneId, g.lanes[l] = h.lanes[l].follows (g.closing l).all

/-- R111, R109: from `h` to `g` every relay has been opened at once: a lane that was not OPEN is, with zero output and its
pending assignment applied, and posts LANE_STATE; where no assignment was pending nothing else changes in the renderer. -/
def Hub.opensAll (h g : Hub) (notices : List Notice) : Prop :=
  (∀ l : LaneId, let x := h.lanes[l]
    (x.relay = .open → g.lanes[l] = x) ∧
    (x.relay ≠ .open →
      g.lanes[l] =
          { x with
            relay := .open, timer := 0, ramp := none, assignment := x.pending.getD x.assignment, pending := none } ∧
        g.renderer.laneOut[l] = 0 ∧ laneStateNotice l g.lanes[l] ∈ notices)) ∧
  ((∀ l : LaneId, h.lanes[l].relay ≠ .open → h.lanes[l].pending = none) →
    notices = h.relayNotices g ∧ g.renderer = { h.renderer with laneOut := g.renderer.laneOut })

/-- R119 to R122, R110, R111, R128: from `h` to `g` the working temperature `working` has been judged: the ceiling target, the
thermal trip and the requested duty follow it, THERMAL is posted where the target or the trip changes, and then a trip that
starts opens every relay at once and one that ends has every lane examined. -/
def Hub.judged (h g : Hub) (working : Option Int) (notices : List Notice) : Prop :=
  let v := h.protection
  let u := g.protection
  u.thermal.working = working ∧
  (working = none → u.thermal.ceilingTarget = 184 ∧ u.thermal.trip = v.thermal.trip ∧ u.fan.requested = 0) ∧
  (∀ d : Int, working = some d →
    (d ≤ 79 → u.thermal.ceilingTarget = 184) ∧
    (80 ≤ d → d ≤ 89 → (u.thermal.ceilingTarget : Int) = 184 - 4 * (d - 79)) ∧
    (90 ≤ d → u.thermal.ceilingTarget = 144) ∧
    u.thermal.trip = (if v.thermal.trip then decide (70 ≤ d) else decide (90 ≤ d)) ∧
    (d < 45 → u.fan.requested = 0) ∧
    (45 ≤ d → d ≤ 74 → (u.fan.requested : Int) = 307 + (d - 45) * 716 / 30) ∧
    (75 ≤ d → u.fan.requested = 1023)) ∧
  ∃ relays,
    notices =
      (if u.thermal.ceilingTarget = v.thermal.ceilingTarget ∧ u.thermal.trip = v.thermal.trip then []
       else [thermalNotice u]) ++ relays ∧
    (v.thermal.trip = u.thermal.trip → relays = [] ∧ g.lanes = h.lanes ∧ g.renderer = h.renderer ∧ g.zones = h.zones) ∧
    (v.thermal.trip = false → u.thermal.trip = true → h.opensAll g relays) ∧
    (v.thermal.trip = true → u.thermal.trip = false → (∀ l : LaneId, h.lanes[l].faultInput = false) →
      h.relaysFollow g ∧ relays = h.relayNotices g ∧ g.renderer = h.renderer ∧ g.zones = h.zones)

/-- R86, R87: from `h` to `g` a fault has brought the derivation to what the tables and the lanes give. A derived layout that
changes posts LAYOUT_EFFECTIVE; while the Sample Clock Unit runs its adoption waits for the next output block start, and
while it is stopped it is made at once. -/
def Hub.derivesForFault (h g : Hub) (notices : List Notice) : Prop :=
  let r := h.renderer
  let q := g.renderer
  let l := deriveLayoutOf r.entries r.sub r.crossover g.lanes
  q.derived = l ∧ q.itemPending = r.itemPending ∧ (l ≠ r.derived → layoutEffectiveNotice r ∈ notices) ∧
  (h.clock.running = true →
    q.faultAdoption = true ∧ q.inForce = r.inForce ∧ q.lines = r.lines ∧ q.subLine = r.subLine ∧ q.filters = r.filters) ∧
  (h.clock.running = false → q.faultAdoption = r.faultAdoption ∧ r.adopted q l ∧ r.tellsAdoption q notices)

/-! ### The entry to STANDBY -/

/-- R190: from `s` to `t` the part has entered STANDBY and every block has taken its standby effects: Source Intake R21, the
Sample Clock Unit R29, the Surround Decoder R67, the Speaker Renderer R83, the Lane Supervisor R106 and R117, the Radio
Unit R149 and the Station Data Decoder R154. What controllers have written stays. -/
def State.inStandby (s t : State) : Prop :=
  let d := s.hub.decoder
  let r := s.hub.renderer
  let q := t.hub.renderer
  t.hub.standby =
      { s.hub.standby with power := .standby, wakingCount := t.hub.standby.wakingCount, delay := t.hub.standby.delay
                           reported := 0, enteringPort := none } ∧
  t.hub.due = [] ∧ t.hub.clock.running = false ∧ t.hub.clock.state = .free ∧ t.hub.clock.reference = none ∧
  t.hub.clock.period = 33554432 ∧ t.hub.clock.good = 0 ∧ t.hub.clock.holdover = 0 ∧
  t.hub.clock.mode = s.hub.clock.mode ∧
  (∀ i : SourceId, t.sources[i].state = .absent ∧ t.sources[i].change = none ∧
    t.sources[i].adopted = s.sources[i].adopted ∧ t.sources[i].counters = s.sources[i].counters ∧
    t.sources[i].prefill = s.sources[i].prefill ∧ t.sources[i].channels = s.sources[i].channels ∧
    t.sources[i].maskA = s.sources[i].maskA ∧ t.sources[i].maskB = s.sources[i].maskB ∧
    t.sources[i].groupA = s.sources[i].groupA ∧ t.sources[i].groupB = s.sources[i].groupB ∧
    (s.sources[i].state ≠ .absent → t.sources[i].buffer = [])) ∧
  t.hub.decoder =
    { d with
      source := t.hub.decoder.source, dLr := 0, dCs := 0, sums := ⟨0, 0, 0, 0⟩, lastRaw := none
      steering := ⟨8192, 8192, 0, 32768, 32768⟩ } ∧
  q.inForce = (if r.faultAdoption then r.derived else r.inForce) ∧ q.derived = r.derived ∧ q.faultAdoption = false ∧
  q.itemPending = r.itemPending ∧ q.clips = r.clips ∧ q.tables = r.tables ∧
  (∀ p : Position, q.filters[p] = 0 ∧ q.lines[p] = List.replicate q.inForce.delays[p] 0) ∧
  q.subLine = List.replicate q.inForce.subDelay 0 ∧
  t.hub.radio.state = .off ∧ t.hub.radio.op = none ∧ t.hub.radio.exchange = none ∧ t.hub.radio.mute = false ∧
  t.hub.radio.held = s.hub.radio.held ∧ t.hub.radio.presets = s.hub.radio.presets ∧
  t.hub.radio.stations = s.hub.radio.stations ∧ t.hub.station.freq = none ∧ t.hub.station.code = none ∧
  t.hub.station.corrected = s.hub.station.corrected ∧
  (∀ l : LaneId, t.hub.lanes[l].relay = .open ∧ t.hub.lanes[l].trips = [] ∧ t.hub.lanes[l].dcWindow = [] ∧
    t.hub.lanes[l].fault = (if s.hub.lanes[l].fault = .retry then .ok else s.hub.lanes[l].fault) ∧
    t.hub.lanes[l].assignment = s.hub.lanes[l].assignment ∧ t.hub.lanes[l].clips = s.hub.lanes[l].clips ∧
    t.hub.lanes[l].tripCount = s.hub.lanes[l].tripCount) ∧
  t.hub.protection =
    { s.hub.protection with
      nextChannel := none
      thermal := { s.hub.protection.thermal with updateCount := 0 }
      fan :=
        { s.hub.protection.fan with requested := 0, windowPos := 0, pulses := 0, stallRun := 0, dutyHeld := true } }

/-! ### The station list and the characters of a station -/

/-- R142: list order: FM before AM, and ascending frequency within a band. -/
def Freq.precedes (a b : Freq) : Prop := (a.band = .fm ∧ b.band = .am) ∨ (a.band = b.band ∧ a.khz < b.khz)

/-- R142: the list `new` is `list` with the entry `e` inserted before the first entry that it precedes, or at the end; the
entries before it and after it stand in the order in which they stood. -/
def placedIn (e : StationEntry) (list new : List StationEntry) : Prop :=
  ∃ before after, list = before ++ after ∧ new = before ++ e :: after ∧ (∀ a ∈ before, ¬ e.freq.precedes a.freq) ∧
    ∀ a ∈ after.head?, e.freq.precedes a.freq

/-- R142: `a` is the weakest entry of `list`, the first of those with the lowest level at discovery, and `rest` the list
without it, in its order. -/
def weakestOf (list : List StationEntry) (a : StationEntry) (rest : List StationEntry) : Prop :=
  ∃ before after, list = before ++ a :: after ∧ rest = before ++ after ∧ (∀ c ∈ before, a.level < c.level) ∧
    ∀ c ∈ after, a.level ≤ c.level

/-- R158, 8.1: the twelve characters of the name that six confirmed segments spell: segment `i` holds the characters `2i`
and `2i + 1`, the high byte of its value first. -/
def spells (segments : Vector NameSegment 6) (name : List Byte) : Prop :=
  name.length = 12 ∧
    ∀ i : Fin 6, ∃ v : BitVec 16, segments[i].confirmed = some v ∧
      name[2 * i.val]? = some (BitVec.ofNat 8 (v.toNat / 256)) ∧
      name[2 * i.val + 1]? = some (BitVec.ofNat 8 (v.toNat % 256))

/-- R159, 8.1: character `k` of the text under assembly, the high byte of segment `k / 2` where `k` is even and the low byte
where it is odd; none where that segment has not been received. -/
def textCharacter (segments : Vector (Option (BitVec 16)) 24) (k : Nat) : Option Byte :=
  (segments.toList.getD (k / 2) none).map fun v => BitVec.ofNat 8 (if k % 2 = 0 then v.toNat / 256 else v.toNat % 256)

/-- R159: the complete text of the segments received: the characters from the first on, each received and none the end
character 0x0D, up to and not including an end character received, or all 48 of them. -/
def completes (segments : Vector (Option (BitVec 16)) 24) (text : List Byte) : Prop :=
  (∀ k c, text[k]? = some c → textCharacter segments k = some c ∧ c ≠ 0x0D) ∧
    (text.length = 48 ∨ textCharacter segments text.length = some 0x0D)

/-! ### What moving the radio leaves behind -/

/-- R134: a zone that may move the radio: the part is ACTIVE, the zone is on with TUN selected, and it is the holder. -/
def Hub.mayMove (h : Hub) (z : ZoneId) : Prop :=
  h.standby.power = .active ∧ (h.zone z).power = true ∧ (h.zone z).selected.val = 6 ∧ h.radio.holder = some z

/-- R138, R141: the notice of a search that something ends early, carrying a seek's start frequency or the entries of a
scan's band. -/
def Radio.endNotices (r : Radio) (outcome : SearchOutcome) : List Notice :=
  match r.op.map Operation.kind with
  | some (.seek z _ start _ _) => [seekDoneNotice z outcome start]
  | some (.scan z b _) => [scanDoneNotice z outcome (r.stations.filter fun e => decide (e.freq.band = b)).length]
  | _ => []

/-- R164 to R166: the back-off after the operation in flight has ended: 10,000 where it was a follow check. -/
def Hub.backOffAfter (h : Hub) : Nat :=
  match h.radio.op.map Operation.kind with
  | some (.follow _ _ _ _ _) => 10000
  | _ => h.station.backOff

/-- R132, R150, R162: the hub as it enters, or goes on in, a muted radio state with an operation, the rest of the radio
record standing at `r`: no poll waits, no weak run is active, and an exchange in flight belongs to no step. -/
def Hub.operates (h : Hub) (r : Radio) (state : RadioState) (op : Operation) (backOff : Nat) : Hub :=
  { h with
    radio :=
      { r with
        state := state
        op := some op
        mute := true
        dataWaiting := false
        qualityWaiting := false
        exchange := r.exchange.map fun e => { e with use := if e.use = .step then .stale else e.use } }
    station := { h.station with weakRun := none, backOff := backOff } }

/-- A reply of the tuner link of the kind `kind` (12.6) that ends the exchange in flight, which was for `use`. -/
def Hub.awaits (h : Hub) (kind : Nat) (use : ExchangeUse) : Prop :=
  ∃ e, h.radio.exchange = some e ∧ e.message.code = kind ∧ e.use = use

end Sys2Proof.Machine
end

