-- ==== Sys2Proof/Certificates/Slice0/Obligations.lean ====
section
/-! DEFINITION. The statements about the model, for the provers. A statement that rests on a choice of the model and not
on the spec alone names the log entry of that choice in its docstring. A request is stated at a port that `listens`, in
a state whose notices are delivered, as between any two steps; an event is stated in a `ready` state, which is one that the
reset pin does not keep in reset too (R187), and an event that a clock or a count produces where it has been found (`Due`),
which is how the model keeps time (notes/assumptions/6.md). -/

open Sys2Proof Sys2Proof.Machine

/-! ### The step and the frame of a request -/

/-- A step takes the command at the front of the queue and is exec of it with the queue's rest. With no command waiting
the part idles; while the Sample Clock Unit is stopped and the part is not kept in reset one crystal period then passes for
the fan drive (R123), whose counter runs 0 to 1,023 and back to 1, and which takes the requested duty at 0 (the idle step is
the model's choice, notes/assumptions/1.md, 10.md, 58.md). -/
def Obligations.StepRunsFrontCommand : Prop :=
  (∀ (c : Instr) (s : State), step { s with pending := c :: s.pending } = exec c s) ∧
    (∀ s : State, s.pending = [] → s.hub.clock.running = true ∨ s.hub.standby.inReset = true → step s = .next s) ∧
    ∀ s : State, s.pending = [] → s.hub.clock.running = false → s.hub.standby.inReset = false →
      let f := s.hub.protection.fan
      let goes (g : Fan) : Prop :=
        step s = .next { s with hub := { s.hub with protection := { s.hub.protection with fan := g } } }
      (f.rising = true → f.pwm < 1023 → goes { f with pwm := f.pwm + 1 }) ∧
        (f.rising = true → f.pwm = 1023 → goes { f with pwm := 1022, rising := false }) ∧
        (f.rising = false → 2 ≤ f.pwm → f.pwm ≤ 1023 → goes { f with pwm := f.pwm - 1 }) ∧
        (f.rising = false → f.pwm = 1 → goes { f with pwm := 0, rising := true, duty := f.requested })

/-- No command ends in a fault or a refusal, in any state, and no command touches the queue of waiting commands; and nothing
but the reset pin itself brings the part into being kept in reset or out of it (R187). The queue is the model's own, and a
reset leaves it (notes/assumptions/1.md, 32.md); that a command nothing outside can send goes on too
(notes/assumptions/34.md), and that a power-on reset leaves the reset pin's level (notes/assumptions/58.md), are the model's
choice. -/
def Obligations.EveryCommandGoesOn : Prop :=
  ∀ (c : Instr) (s : State), ∃ t, exec c s = .next t ∧ t.pending = s.pending ∧
    ((∀ asserted, c ≠ .resetPin asserted) → t.hub.standby.inReset = s.hub.standby.inReset)

/-- R170, 9.5, 12.2: the frame of every well-formed request, with every parameter word, decodes to that request. Which
row a frame of ZONE_POWER or of STORE_PRESET is, each having two rows with one kind code, is the model's choice
(notes/assumptions/33.md). -/
def Obligations.FrameDecodesToItsRequest : Prop :=
  ∀ (i : Instr) (p : Port) (kind : Nat) (params : List Word),
    i.wellFormed = true → i.frame = some (p, kind, params) →
      decodeFrame p (requestWord0 kind params.length :: params) = i

/-- R169, R170, R173: whatever words a select period brings, the command that its release is has a well-formed
meaning; a request decoded from them has exactly them as its frame; and the others are a release before word 0, a
fetch frame where the kind code is 0, and a bad request where a check of R170 fails. -/
def Obligations.EveryFrameIsOneCommand : Prop :=
  ∀ (p : Port) (words : List Word),
    (decodeFrame p words).wellFormed = true ∧
      (∀ q kind params, (decodeFrame p words).frame = some (q, kind, params) →
        q = p ∧ words = requestWord0 kind params.length :: params) ∧
      ((decodeFrame p words).frame = none →
        (words = [] ∧ decodeFrame p words = .selectReleasedBeforeWord0 p) ∨
        (∃ w params, words = w :: params ∧ w.toNat / 256 = 0 ∧
          decodeFrame p words = .fetchFrame p (w.setWidth 8) words.length) ∨
        ∃ w params, words = w :: params ∧ (frameCheck (w.toNat / 256) (w.toNat % 256) params.length).isSome = true ∧
          decodeFrame p words = .badRequest p (BitVec.ofNat 8 (w.toNat / 256)) (w.setWidth 8) params)

/-! ### Invariants that every step keeps -/

/-- R182: no step makes a notice queue longer than 16 entries or gives it two entries of one kind and object. -/
def Obligations.EveryStepKeepsNoticeQueues : Prop := keptByEveryStep State.queuesOk

/-- R4: no step makes an intake buffer longer than 64 frames. -/
def Obligations.EveryStepKeepsIntakeBuffers : Prop := keptByEveryStep State.buffersOk

/-- R51, R58 to R60: no step brings a zone's volume index above its maximum, its maximum above 184 or its lip-sync
request above 500 ms. -/
def Obligations.EveryStepKeepsZoneSettings : Prop := keptByEveryStep State.settingsOk

/-- R180, R171: every step delivers the notices it posts. The notices that an event's effect posts are offered to every
port in the order they were posted, and those of a request's rule to every port but the requesting one; and none waits
after a step where none waited before. An event that comes while the part is kept in reset has no effect (R187). The list
the notices stand in until the step's end is the model's own (notes/assumptions/4.md), and so is the reading of what being
kept in reset means (notes/assumptions/58.md). -/
def Obligations.EveryStepDeliversItsNotices : Prop :=
  keptByEveryStep State.delivered ∧
    (∀ (f : State → State) (s : State), s.hub.standby.inReset = true → event f s = .next s) ∧
    (∀ (f : State → State) (s : State), s.hub.standby.inReset = false → ∃ t, event f s = .next t ∧
      t = { f s with ports := t.ports, hub := { (f s).hub with outbox := [] } } ∧
        ∀ q, t.ports.get q = (f s).hub.outbox.foldl (fun x n => x.deliver n) ((f s).ports.get q)) ∧
    ∀ (p : Port) (kind : Nat) (params : List Word) (rule : State → State × Answer) (s : State), s.listens p →
      ∃ t u, request p kind params rule s = .next t ∧ u.sources = s.sources ∧ u.hub = s.hub ∧
        (∀ q, q ≠ p → u.ports.get q = s.ports.get q) ∧ t.sources = (rule u).1.sources ∧
        t.hub = { (rule u).1.hub with outbox := [] } ∧
        ∀ q, q ≠ p → t.ports.get q = (rule u).1.hub.outbox.foldl (fun x n => x.deliver n) ((rule u).1.ports.get q)

/-- The invariants above hold right after a reset. -/
def Obligations.InvariantsHoldAtReset : Prop :=
  State.reset.queuesOk ∧ State.reset.buffersOk ∧ State.reset.settingsOk ∧ State.reset.delivered

/-! ### The control ports (chapter 9) -/

/-- R168: at a port in IGNORING the release of the select line, whatever frame it ends, has no effect but to return
the port to IDLE; and so it is at every port while the part is kept in reset (R187). The form of the releases' rows is the
model's reading (notes/assumptions/7.md, 19.md), and so is what being kept in reset means (notes/assumptions/58.md). -/
def Obligations.IgnoringPortRunsNothing : Prop :=
  ∀ (s : State) (p : Port), ¬ s.listens p →
    ∀ i : Instr, releasesSelect i p →
      exec i s = .next (s.setPort p { s.ports.get p with receive := .idle })

/-- R171, R172: a request at a listening port is run whatever it is and is answered by one reply in the port's slot:
the port is IDLE, a reply that stood unread is discarded, counted and flagged, and for every request but SOFT_RESET,
which sets the counters to 0, requests run advances. That a request at an IDLE port takes the select line's assertion
first is the model's choice (notes/assumptions/7.md). The number of data words in the reply, where the spec gives no
layout, is the free value of notes/assumptions/2.md. -/
def Obligations.EveryRequestIsAnswered : Prop :=
  ∀ (i : Instr) (p : Port) (kind : Nat) (params : List Word) (s : State),
    i.frame = some (p, kind, params) → s.listens p → i ≠ .softReset p →
      ∃ t reply, exec i s = .next t ∧ (t.ports.get p).receive = .idle ∧ (t.ports.get p).slot = some reply ∧
        reply.unreadDiscarded = (s.ports.get p).slot.isSome ∧ (t.ports.get p).run = bump (s.ports.get p).run ∧
        (t.ports.get p).refused = (s.ports.get p).refused ∧
        (t.ports.get p).discarded =
          (if (s.ports.get p).slot.isSome then bump (s.ports.get p).discarded else (s.ports.get p).discarded)

/-- R169: the assertion of the select line at an IDLE port that listens, which enters RECEIVING with no word kept or
counted, the reply slot as its out frame and its attention line noted. R168, R169: the releases that end no frame: before word 0 is
whole, where a port that is RECEIVING returns to IDLE, and out of IGNORING; neither runs a request, consumes a reply
or changes anything else. R169, R173: a fetch frame of `words` whole words, word 0 among them, keeps word 0 alone and counts every
word in and out; it consumes the reply that the slot held at assertion if all of it was clocked out, and never runs a
request, places a reply or changes a counter. At a RECEIVING port it ends the period that the assertion began; at an IDLE
port it takes the assertion first, with the slot and the attention line as they stand (the model's choice,
notes/assumptions/7.md).
R173, 9.4, 12.2: the words shifted out: word 0 with the status, UNREAD_DISCARDED, NOTICES_PENDING and the count, the
reply's data words, and zero after them; and the data words of a BAD_REQUEST, of a refusal, of READ_NOTICES and of
IDENTIFY, one for each item of R179's list in its order (notes/assumptions/47.md). R167: a committed text of 48 characters
fills 24 words of GET_STATION_DATA, so its reply has no fewer. The words of a reply whose layout the
spec does not give are free values (notes/assumptions/2.md); what the words of the frame under way read between two
steps is the model's choice (notes/assumptions/19.md). -/
def Obligations.SelectPeriodsStartAndEnd : Prop :=
  ((∀ (s : State) (p : Port), s.listens p → (s.ports.get p).receive = .idle →
      ∃ t, exec (.selectLineAsserted p) s = .next t ∧ s.onlyPort t p ∧
        (s.ports.get p).sameStanding (t.ports.get p) ∧ (t.ports.get p).slot = (s.ports.get p).slot ∧
        (t.ports.get p).receive = .receiving ∧ (t.ports.get p).frame = [] ∧ (t.ports.get p).wordsReceived = 0 ∧
        (t.ports.get p).outSent = 0 ∧ (t.ports.get p).outFrame = (s.ports.get p).slot ∧
        (t.ports.get p).noticesAtAssertion = decide ((s.ports.get p).queue ≠ [])) ∧
   (∀ (s : State) (p : Port),
      exec (.selectReleasedBeforeWord0 p) s = .next (s.setPort p { s.ports.get p with receive := .idle }) ∧
        ((s.ports.get p).receive = .ignoring →
          exec (.ignoringRelease p) s = .next (s.setPort p { s.ports.get p with receive := .idle })))) ∧
  (∀ (s : State) (p : Port) (low : Byte) (words : Nat), s.listens p →
     let x := s.ports.get p
     let out := if x.receive = .receiving then x.outFrame else x.slot
     ∃ t, exec (.fetchFrame p low words) s = .next t ∧ s.onlyPort t p ∧
       let y := t.ports.get p
       x.sameStanding y ∧ y.receive = .idle ∧ y.frame = [low.setWidth 16] ∧ y.wordsReceived = min words 65535 ∧
         y.outSent = min words 65535 ∧ y.outFrame = out ∧
         y.noticesAtAssertion =
           (if x.receive = .receiving then x.noticesAtAssertion else decide (x.queue ≠ [])) ∧
         (out = none → y.slot = x.slot) ∧
         ∀ r, out = some r →
           (r.words.length + 1 ≤ words → y.slot = none) ∧ (words < r.words.length + 1 → y.slot = x.slot)) ∧
  (∀ x : PortRecord,
     (x.outWord 0).toNat / 64 % 2 = (if x.noticesAtAssertion then 1 else 0) ∧
       (x.outFrame = none → (x.outWord 0).toNat / 128 = 0 ∧ (x.outWord 0).toNat % 64 = 0 ∧ ∀ k, x.outWord (k + 1) = 0) ∧
       ∀ r, x.outFrame = some r → r.words.length < 64 →
         (x.outWord 0).toNat / 256 = r.status.code ∧
           (x.outWord 0).toNat / 128 % 2 = (if r.unreadDiscarded then 1 else 0) ∧
           (x.outWord 0).toNat % 64 = r.words.length ∧ (∀ k w, r.words[k]? = some w → x.outWord (k + 1) = w) ∧
           ∀ k, r.words.length ≤ k → x.outWord (k + 1) = 0) ∧
  ∀ index : Nat,
    (replyWords index .none = [] ∧ (∀ state, replyWords index (.powerRefused state) = [BitVec.ofNat 16 state.code]) ∧
      (∀ k r : Nat, replyWords index (.badRequest k r) = [BitVec.ofNat 16 k, BitVec.ofNat 16 r]) ∧
      (∀ n, replyWords index (.wordRefused n) = [BitVec.ofNat 16 n]) ∧
      (replyWords index (.holder none) = [3] ∧ ∀ z, replyWords index (.holder (some z)) = [BitVec.ofNat 16 z.code]) ∧
      (∀ (part revision : Nat) (p : Port) (state : PowerState) (counts : Vector Nat 7) (high low run refused discarded : Nat),
        replyWords index (.identity part revision p state counts high low run refused discarded) =
          [BitVec.ofNat 16 part, BitVec.ofNat 16 revision, BitVec.ofNat 16 p.code, BitVec.ofNat 16 state.code,
            BitVec.ofNat 16 counts[0], BitVec.ofNat 16 counts[1], BitVec.ofNat 16 counts[2], BitVec.ofNat 16 counts[3],
            BitVec.ofNat 16 counts[4], BitVec.ofNat 16 counts[5], BitVec.ofNat 16 counts[6], BitVec.ofNat 16 high,
            BitVec.ofNat 16 low, BitVec.ofNat 16 run, BitVec.ofNat 16 refused, BitVec.ofNat 16 discarded])) ∧
    (∀ (lost : Bool) (left : Nat) (ns : List Notice), ns.length ≤ 10 →
      (replyWords index (.notices ns.length lost left ns)).length = 2 + 3 * ns.length ∧
        (replyWords index (.notices ns.length lost left ns))[0]? =
          some (BitVec.ofNat 16 ns.length ||| if lost then 0x8000 else 0) ∧
        (replyWords index (.notices ns.length lost left ns))[1]? = some (BitVec.ofNat 16 left) ∧
        ∀ k n, ns[k]? = some n →
          (replyWords index (.notices ns.length lost left ns))[2 + 3 * k]? =
              some (BitVec.ofNat 16 (256 * n.kind.code + n.object)) ∧
            (replyWords index (.notices ns.length lost left ns))[3 + 3 * k]? =
              some (BitVec.ofNat 16 (n.value.toNat / 65536)) ∧
            (replyWords index (.notices ns.length lost left ns))[4 + 3 * k]? =
              some (BitVec.ofNat 16 (n.value.toNat % 65536))) ∧
    (∀ (view : StationView) (text : List Byte), view.text = some text → text.length = 48 →
      24 ≤ (replyWords index (.stationData view)).length) ∧
    ∀ d : ReplyData, (replyWords index d).length ≤ 63 ∨ ∃ count lost left ns, d = .notices count lost left ns

/-- R170: a frame that fails a check is not run: BAD_REQUEST with the kind code and the reason of the first check that
fails, coded 0 for UNKNOWN_KIND, 1 for COUNT, 2 for SHORT and 3 for LONG, is placed in the slot, and frames refused
advances; no block changes. That a request at an IDLE port takes the select line's assertion first is the model's
choice (notes/assumptions/7.md). -/
def Obligations.BadRequestIsRefused : Prop :=
  ∀ (s : State) (p : Port) (kind declared : Byte) (params : List Word),
    (Instr.badRequest p kind declared params).wellFormed = true → s.listens p →
      ∃ t reason, exec (.badRequest p kind declared params) s = .next t ∧ t.sources = s.sources ∧ t.hub = s.hub ∧
        (∀ q, q ≠ p → t.ports.get q = s.ports.get q) ∧ t.pending = s.pending ∧ (t.ports.get p).receive = .idle ∧
        (t.ports.get p).slot =
          some ⟨.badRequest, (s.ports.get p).slot.isSome, .badRequest kind.toNat reason,
            [BitVec.ofNat 16 kind.toNat, BitVec.ofNat 16 reason]⟩ ∧
        (t.ports.get p).refused = bump (s.ports.get p).refused ∧ (t.ports.get p).run = (s.ports.get p).run ∧
        (t.ports.get p).discarded =
          (if (s.ports.get p).slot.isSome then bump (s.ports.get p).discarded else (s.ports.get p).discarded) ∧
        (t.ports.get p).queue = (s.ports.get p).queue ∧
        (t.ports.get p).subscriptions = (s.ports.get p).subscriptions ∧
        reason =
          match paramCount kind.toNat with
          | none => 0
          | some n =>
            if 32 < declared.toNat ∨ declared.toNat ≠ n then 1
            else if params.length < declared.toNat then 2
            else 3

/-- R22, R38, R62, R82, R103, R104, R126, R127, R145, R152, R153, R167, R179, R187: the fourteen reading requests
reply OK with what they read and change nothing; IDENTIFY shows its port's counters with itself counted, in sixteen data
words, one for each item of its list, the delay memory size in two, high first (notes/assumptions/47.md). That a request
at an IDLE port takes the select line's assertion first is the model's choice (notes/assumptions/7.md). The number of data
words in the reply, where the spec gives no layout, is the free value of notes/assumptions/2.md. -/
def Obligations.ReadingRequestsChangeNothing : Prop :=
  ∀ (s : State) (p : Port), s.listens p → s.delivered →
    (∀ (w : Word) (i : SourceId), w.toNat = i.val →
      ∃ t, exec (.getSource p w) s = .next t ∧
        s.answersOnly t p .ok (.source (sourceView i s.hub.radio.mute s.sources[i]))) ∧
    (∃ t, exec (.getClock p) s = .next t ∧ s.answersOnly t p .ok (.clock (clockView s.hub.clock))) ∧
    (∀ (w : Word) (z : ZoneId), w.toNat = z.code →
      ∃ t, exec (.getZone p w) s = .next t ∧ s.answersOnly t p .ok (.zone (zoneView (s.hub.zone z)))) ∧
    (∃ t, exec (.getDecode p) s = .next t ∧
      s.answersOnly t p .ok (.decode (decodeView s.hub.decoder) (decoderView s.sources s.hub))) ∧
    (∃ t, exec (.getLayout p) s = .next t ∧ s.answersOnly t p .ok (.layout (layoutView s.hub.renderer))) ∧
    (∃ t, exec (.getDelay p) s = .next t ∧ s.answersOnly t p .ok (.delay (delayView s.hub))) ∧
    (∀ (w : Word) (l : LaneId), w.toNat = l.val →
      ∃ t, exec (.getLane p w) s = .next t ∧ s.answersOnly t p .ok (.lane (laneView l s.hub))) ∧
    (∃ t, exec (.getThermal p) s = .next t ∧ s.answersOnly t p .ok (.thermal (thermalView s.hub.protection))) ∧
    (∀ (w : Word) (i : Fin 40), w.toNat = i.val →
      ∃ t, exec (.getPreset p w) s = .next t ∧ s.answersOnly t p .ok (.preset s.hub.radio.presets[i])) ∧
    (∀ first : Word, first.toNat ≤ 47 →
      ∃ t, exec (.getStationList p first) s = .next t ∧
        s.answersOnly t p .ok
          (.stationList s.hub.radio.stations.length ((s.hub.radio.stations.drop first.toNat).take 6))) ∧
    (∃ t, exec (.getRadio p) s = .next t ∧ s.answersOnly t p .ok (.radio (radioView s.hub.radio))) ∧
    (∃ t, exec (.getStationData p) s = .next t ∧ s.answersOnly t p .ok (.stationData (stationView s.hub))) ∧
    (∃ t, exec (.identify p) s = .next t ∧
      s.answersOnly t p .ok
        (.identity 0x8420 1 p s.hub.standby.power #v[3, 8, 3, 11, 40, 48, 16] 3 0 (bump (s.ports.get p).run)
          (s.ports.get p).refused (s.ports.get p).discarded) ∧
      (t.ports.get p).slot.map (fun r => r.words) =
        some
          (([0x8420, 1, p.code, s.hub.standby.power.code, 3, 8, 3, 11, 40, 48, 16, 3, 0, bump (s.ports.get p).run,
            (s.ports.get p).refused, (s.ports.get p).discarded]).map (BitVec.ofNat 16))) ∧
    ∃ t, exec (.getResetCause p) s = .next t ∧
      s.answersOnly t p .ok (.resetCause s.hub.standby.cause s.hub.standby.port s.hub.standby.power)

/-- R174, R175: an identifier or code outside its set is refused BAD_VALUE with the number of the first word refused,
in every power state and before any other check of the owning rule, and nothing but the port's record changes. That a
request at an IDLE port takes the select line's assertion first is the model's choice (notes/assumptions/7.md). -/
def Obligations.CodesOutsideTheirSetsAreRefused : Prop :=
  ∀ (i : Instr) (p : Port) (kind : Nat) (params : List Word) (n : Nat) (s : State),
    i.frame = some (p, kind, params) → badCode i n → s.listens p → s.delivered →
      ∃ t, exec i s = .next t ∧ s.answersOnly t p .badValue (.wordRefused n)

/-- R186: SUBSCRIBE replaces the subscription set of its own port and of no other. R184: READ_NOTICES returns the
oldest notices of its port, at most ten, removes them, and reports and clears LOST. R191: SET_WAKE_SENSE replaces the
wake- sense set, and candidates reported loses the sources removed from it. That a request at an IDLE port takes the
select line's assertion first is the model's choice (notes/assumptions/7.md). The number of data words in the reply,
where the spec gives no layout, is the free value of notes/assumptions/2.md. -/
def Obligations.SetsAndNoticesOfAPort : Prop :=
  (∀ (s : State) (p : Port) (set : Word), s.listens p → s.delivered → set.toNat < 256 →
     ∃ t, exec (.subscribe p set) s = .next t ∧
       s.answers t p { s.ports.get p with subscriptions := set.setWidth 8 } .ok (.classSet (set.setWidth 8)) [] ∧
       t.sources = s.sources ∧ t.hub = s.hub) ∧
  (∀ (s : State) (p : Port), s.listens p → s.delivered →
     ∃ t, exec (.readNotices p) s = .next t ∧
       s.answers t p { s.ports.get p with queue := (s.ports.get p).queue.drop 10, lost := false } .ok
         (.notices (min 10 (s.ports.get p).queue.length) (s.ports.get p).lost ((s.ports.get p).queue.length - 10)
           ((s.ports.get p).queue.take 10)) [] ∧
       t.sources = s.sources ∧ t.hub = s.hub) ∧
  (∀ (s : State) (p : Port) (set : Word), s.listens p → s.delivered → set.toNat < 256 →
     ∃ t, exec (.setWakeSense p set) s = .next t ∧
       s.answers t p (s.ports.get p) .ok (.sourceSet (set.setWidth 8)) [] ∧ t.sources = s.sources ∧
       t.hub = { s.hub with
         standby := { s.hub.standby with
           wakeSense := set.setWidth 8
           reported := s.hub.standby.reported &&& set.setWidth 8 } })

/-- R180, R182: a notice of a class outside a port's subscription set does not reach its queue; one inside it replaces
the value of the entry of its kind and object where it stands, or else joins the tail of a queue of fewer than 16
entries, or else is dropped: LOST is set and the entries stay. -/
def Obligations.DeliveryToAQueue : Prop :=
  ∀ (n : Notice) (x : PortRecord), x.queueOk →
    (x.subscriptions.getLsbD n.kind.classCode = false → x.deliver n = x) ∧
    (x.subscriptions.getLsbD n.kind.classCode = true →
      (∀ before after m, x.queue = before ++ m :: after → m.kind = n.kind → m.object = n.object →
        x.deliver n = { x with queue := before ++ n :: after }) ∧
      ((∀ m ∈ x.queue, ¬ (m.kind = n.kind ∧ m.object = n.object)) →
        (x.queue.length < 16 → x.deliver n = { x with queue := x.queue ++ [n] }) ∧
        (16 ≤ x.queue.length → x.deliver n = { x with lost := true })))

/-! ### Resets and standby (chapter 11) -/

/-- R168, R181, R187: a power-on reset and a reset on the reset pin put every block at its reset values and the part
in STANDBY with the cause POWER_ON (0) or PIN (1) and no port (3), and STANDBY_ENTERED then stands in every port's
queue. A port whose select period was in progress is IGNORING. The level of a fault input and the queue of waiting
commands are not the part's to reset. R178: SOFT_RESET is the same reset with the cause REQUEST and its port, which
then holds an OK reply, unread nothing, and no notice; the other ports hold STANDBY_ENTERED with the cause 2 and that
port. R187: the reset on the pin is taken at its release. Its assertion keeps the part in reset and changes nothing else;
while it is kept so, no request is run, no arrival, sample period, block start, count, conversion, pulse or link outcome has
an effect and no crystal period passes; a select line's release returns its port to IDLE, its assertion leaves the port
IGNORING, and a fault input takes its level. That the fault inputs' levels and the waiting commands stay is the model's
choice (notes/assumptions/16.md, 32.md), and so are the reset values that notes/assumptions/4.md names and all that the part
does between the pin's assertion and its release beyond being in reset (notes/assumptions/58.md). -/
def Obligations.ResetsPutEveryBlockAtReset : Prop :=
  (∀ (s : State) (c : Instr) (cause : ResetCause) (value : BitVec 32) (held : Bool),
     (c = .powerOnReset ∧ cause = .powerOn ∧ value = 12 ∧ held = s.hub.standby.inReset) ∨
         (c = .resetPin false ∧ cause = .pin ∧ value = 13 ∧ held = false) →
       ∃ t, exec c s = .next t ∧ t.sources = State.reset.sources ∧
         t.hub.standby = ⟨.standby, 0, .notEnded, 0, 0, cause, none, none, held⟩ ∧
         (∀ l : LaneId, t.hub.lanes[l] = { State.reset.hub.lanes[l] with faultInput := s.hub.lanes[l].faultInput }) ∧
         { t.hub with standby := State.reset.hub.standby, lanes := State.reset.hub.lanes } = State.reset.hub ∧
         (∀ q, t.ports.get q =
           { State.reset.ports.get q with
             receive := if (s.ports.get q).receive = .idle then .idle else .ignoring
             queue := [⟨.standbyEntered, 0, value⟩] }) ∧
         t.pending = s.pending) ∧
  (∀ (s : State) (p : Port), s.listens p →
     ∃ t, exec (.softReset p) s = .next t ∧ t.sources = State.reset.sources ∧
       t.hub.standby = ⟨.standby, 0, .notEnded, 0, 0, .request, some p, none, false⟩ ∧
       (∀ l : LaneId, t.hub.lanes[l] = { State.reset.hub.lanes[l] with faultInput := s.hub.lanes[l].faultInput }) ∧
       { t.hub with standby := State.reset.hub.standby, lanes := State.reset.hub.lanes } = State.reset.hub ∧
       t.ports.get p = { State.reset.ports.get p with slot := some ⟨.ok, false, .none, []⟩ } ∧
       (∀ q, q ≠ p → t.ports.get q =
         { State.reset.ports.get q with
           receive := if (s.ports.get q).receive = .idle then .idle else .ignoring
           queue := [⟨.standbyEntered, 0, BitVec.ofNat 32 (2 + 4 * p.code)⟩] }) ∧
       t.pending = s.pending) ∧
  (∀ s : State,
     exec (.resetPin true) s = .next { s with hub := { s.hub with standby := { s.hub.standby with inReset := true } } }) ∧
  (∀ s : State, s.hub.standby.inReset = true →
     (∀ (c : Instr) (p : Port), releasesSelect c p →
       exec c s = .next (s.setPort p { s.ports.get p with receive := .idle })) ∧
     (∀ p : Port,
       exec (.selectLineAsserted p) s =
         .next (s.setPort p
           { s.ports.get p with
             receive := if (s.ports.get p).receive = .idle then .ignoring else (s.ports.get p).receive })) ∧
     (∀ (l : LaneId) (level : Bool),
       exec (.faultInputAsserted l level) s =
         .next { s with
           hub := { s.hub with lanes := s.hub.lanes.set l { s.hub.lanes[l] with faultInput := level } } }) ∧
     (∀ c : Instr, c ≠ .powerOnReset → (∀ asserted, c ≠ .resetPin asserted) →
       (∀ p, ¬ releasesSelect c p ∧ c ≠ .selectLineAsserted p) → (∀ l level, c ≠ .faultInputAsserted l level) →
         exec c s = .next s) ∧
     (s.pending = [] → step s = .next s))

/-- R188, R189, R29: WAKE in each power state. From STANDBY it enters WAKING with the waking count at 0 and starts the
Sample Clock Unit, and while the main zone is OFF the clock record starts from its reset values with the mode kept and one
CLOCK_STATE is posted. In WAKING and ACTIVE it changes nothing, and in ENTERING_STANDBY it is refused. R188, R190:
ENTER_STANDBY in each power state. From WAKING and ACTIVE it is accepted: the waking count is 0, the power-on delay
NOT_ENDED and every zone turned off, and the part is in STANDBY at once or stays in ENTERING_STANDBY while a zone is not
OFF or a relay is not OPEN; the other zone settings, the layout table, the presets and the wake-sense set stay. In STANDBY
and ENTERING_STANDBY nothing changes. Where the part is in STANDBY at once, as it is with every zone OFF or WAITING and
every relay OPEN, every block has taken its standby effects, and STANDBY_ENTERED with STANDBY_REQUEST (3) and the port is
the last notice; it is then one of the request's own, withheld from the requesting port (R171, notes/assumptions/15.md).
The order in which the zones are turned off (notes/assumptions/56.md), that events found and not yet taken are dropped
(notes/assumptions/57.md), that the pending intake change of a source ABSENT already is discarded too
(notes/assumptions/60.md), that back-fill keeps its last decision (notes/assumptions/42.md) and that a fault-caused
adoption which waits is made at once (notes/assumptions/59.md) are the model's choice. -/
def Obligations.PowerRequestsInEveryPowerState : Prop :=
  (∀ (s : State) (p : Port), s.listens p → s.delivered →
     (s.hub.standby.power = .standby →
       ∃ t notices, exec (.wake p) s = .next t ∧
         s.answers t p (s.ports.get p) .accepted (.power .waking) notices ∧ t.sources = s.sources ∧
         t.hub = { s.hub with
           clock := t.hub.clock
           standby := { s.hub.standby with power := .waking, wakingCount := 0 } } ∧
         t.hub.clock.running = true ∧ t.hub.clock.mode = s.hub.clock.mode ∧
         (s.hub.clock.running = false → s.hub.zones.main.state = .off →
           t.hub.clock = { Clock.reset with running := true, mode := s.hub.clock.mode } ∧
             notices = [clockStateNotice t.hub.clock])) ∧
     (s.hub.standby.power = .waking ∨ s.hub.standby.power = .active →
       ∃ t, exec (.wake p) s = .next t ∧ s.answersOnly t p .ok (.power s.hub.standby.power)) ∧
     (s.hub.standby.power = .enteringStandby →
       ∃ t, exec (.wake p) s = .next t ∧ s.answersOnly t p .refusedState .none)) ∧
  (∀ (s : State) (p : Port), s.listens p → s.delivered →
     (s.hub.standby.power = .waking ∨ s.hub.standby.power = .active →
       ∃ t notices, exec (.enterStandby p) s = .next t ∧
         s.answers t p (s.ports.get p) .accepted (.power t.hub.standby.power) notices ∧
         (t.hub.standby.power = .standby ∨
           (t.hub.standby.power = .enteringStandby ∧ (t.hub.allZonesOff && t.hub.allRelaysOpen) = false)) ∧
         t.hub.standby.wakingCount = 0 ∧ t.hub.standby.delay = .notEnded ∧
         t.hub.standby.wakeSense = s.hub.standby.wakeSense ∧ t.hub.standby.cause = s.hub.standby.cause ∧
         (∀ z, (t.hub.zone z).settings = { (s.hub.zone z).settings with power := false }) ∧
         t.hub.renderer.tables = s.hub.renderer.tables ∧ t.hub.radio.presets = s.hub.radio.presets ∧
         (t.hub.standby.power = .standby →
           s.inStandby t ∧
             (∃ before, notices = before ++ [⟨.standbyEntered, 0, BitVec.ofNat 32 (3 + 4 * p.code)⟩]) ∧
             (∀ z, (t.hub.zone z).state = .off) ∧
             t.hub.decoder.source = (if s.hub.zones.main.state = .waiting then none else s.hub.decoder.source)) ∧
         ((∀ z, (s.hub.zone z).state = .off ∨ ((s.hub.zone z).state = .waiting ∧ (s.hub.zone z).power = true)) →
           (∀ l : LaneId, s.hub.lanes[l].relay = .open) → t.hub.standby.power = .standby)) ∧
     (s.hub.standby.power = .standby ∨ s.hub.standby.power = .enteringStandby →
       ∃ t, exec (.enterStandby p) s = .next t ∧ s.answersOnly t p .ok (.power s.hub.standby.power)))

/-- R189, R149: ACTIVE_ENTRY at the 100th block start in WAKING: the part is ACTIVE, SYSTEM_READY is posted with the reset
cause and port, the power-on delay runs from 0, and the radio starts its START sequence, muted. R189, R110:
POWER_ON_DELAY_END at the 2,000th block start: the delay is ENDED, and every lane in OPEN whose closing conditions now
hold enters CLOSING with its timer at 0 (unless its fault input is asserted, which trips it), and one whose conditions do
not hold stays OPEN; with no fault input asserted every lane follows its conditions and one LANE_STATE is posted for each
that closes. That an event acts only once it has been found, and not before (notes/assumptions/6.md), the order of the
lanes (notes/assumptions/73.md), and that the settle count is 0 in STATUS (notes/assumptions/79.md), are the model's
choice. -/
def Obligations.ActiveIsEnteredAndItsDelayEnds : Prop :=
  (∀ s : State, s.ready → Due.active ∈ s.hub.due → s.hub.standby.power = .waking →
     s.hub.standby.wakingCount = 100 →
       ∃ t, exec .activeEntry s = .next t ∧
         s.tells t [⟨.systemReady, 0,
           BitVec.ofNat 32 (s.hub.standby.cause.code + 4 * portField s.hub.standby.port)⟩] ∧
         t.sources = s.sources ∧
         t.hub = { s.hub with
           standby := { s.hub.standby with power := .active, wakingCount := 0, delay := .running 0 }
           radio := t.hub.radio
           station := t.hub.station
           due := s.hub.due.filter fun d => decide (d ≠ .active) } ∧
         t.hub.radio.state = .tuning ∧ t.hub.radio.op = some ⟨.start, .status, 0⟩ ∧ t.hub.radio.mute = true ∧
         t.hub.radio.held = s.hub.radio.held ∧ t.hub.radio.presets = s.hub.radio.presets) ∧
  (∀ s : State, s.ready → Due.powerOnDelayEnd ∈ s.hub.due → s.hub.standby.power = .active →
     s.hub.standby.delay = .running 2000 →
       ∃ t notices, exec .powerOnDelayEnd s = .next t ∧ s.tells t notices ∧ t.sources = s.sources ∧
         t.hub.standby = { s.hub.standby with delay := .ended } ∧
         (∀ l : LaneId, s.hub.lanes[l].relay = .open →
           (({ s.hub with standby := { s.hub.standby with delay := .ended } }.closing l).all = true →
             s.hub.lanes[l].faultInput = false →
               t.hub.lanes[l] = { s.hub.lanes[l] with relay := .closing, timer := 0 }) ∧
           (({ s.hub with standby := { s.hub.standby with delay := .ended } }.closing l).all = false →
             t.hub.lanes[l] = s.hub.lanes[l])) ∧
         ((∀ l : LaneId, s.hub.lanes[l].faultInput = false) →
           s.hub.relaysFollow t.hub ∧ notices = s.hub.relayNotices t.hub ∧ t.hub.renderer = s.hub.renderer ∧
             t.hub.zones = s.hub.zones) ∧
         t.hub.clock = s.hub.clock ∧ t.hub.decoder = s.hub.decoder ∧ t.hub.radio = s.hub.radio ∧
         t.hub.station = s.hub.station ∧ t.hub.protection = s.hub.protection ∧
         settingsOf t.hub.zones = settingsOf s.hub.zones ∧ t.hub.renderer.tables = s.hub.renderer.tables)

/-- R190, R21, R29, R67, R83, R106, R117, R149, R154: STANDBY_ENTRY once every zone is OFF and every relay OPEN: the part
is in STANDBY with candidates reported empty, the clock stopped, every source ABSENT, the steering and the sums of the
decoder at their reset values and its mode kept, the delay lines and the filters of the renderer at zero and the layout in
force kept unless a fault-caused adoption waits, the radio OFF with no exchange and no mute, the station data cleared, the
trip histories and DC windows empty and no lane in RETRY; what controllers have written stays, and STANDBY_ENTERED with
STANDBY_REQUEST (3) and the port is the last notice. That events found and not yet taken are dropped
(notes/assumptions/57.md), that the pending intake change of a source ABSENT already is discarded too
(notes/assumptions/60.md), that back-fill keeps its last decision (notes/assumptions/42.md) and that an adoption which
waits is made at once (notes/assumptions/59.md) are the model's choice. -/
def Obligations.StandbyIsEntered : Prop :=
  ∀ s : State, s.ready → s.hub.standby.power = .enteringStandby →
    (∀ z, (s.hub.zone z).state = .off) → (∀ l : LaneId, s.hub.lanes[l].relay = .open) →
      ∃ t notices, exec .standbyEntry s = .next t ∧
        s.tells t (notices ++ [⟨.standbyEntered, 0, BitVec.ofNat 32 (3 + 4 * portField s.hub.standby.enteringPort)⟩]) ∧
        s.inStandby t ∧ t.hub.decoder.source = s.hub.decoder.source ∧
        t.hub.standby = { s.hub.standby with power := .standby, reported := 0, enteringPort := none } ∧
        t.hub.due = [] ∧ t.hub.clock.running = false ∧ t.hub.clock.state = .free ∧ t.hub.clock.reference = none ∧
        t.hub.clock.period = 33554432 ∧ t.hub.clock.mode = s.hub.clock.mode ∧
        (∀ i : SourceId, t.sources[i].state = .absent ∧ t.sources[i].change = none ∧
          t.sources[i].adopted = s.sources[i].adopted ∧ t.sources[i].counters = s.sources[i].counters ∧
          t.sources[i].prefill = s.sources[i].prefill) ∧
        t.hub.radio.state = .off ∧ t.hub.radio.op = none ∧ t.hub.radio.exchange = none ∧ t.hub.radio.mute = false ∧
        t.hub.radio.held = s.hub.radio.held ∧ t.hub.radio.presets = s.hub.radio.presets ∧
        t.hub.radio.stations = s.hub.radio.stations ∧ t.hub.station.freq = none ∧ t.hub.station.code = none ∧
        t.hub.station.corrected = s.hub.station.corrected ∧
        (∀ l : LaneId, t.hub.lanes[l].relay = .open ∧ t.hub.lanes[l].trips = [] ∧ t.hub.lanes[l].dcWindow = [] ∧
          t.hub.lanes[l].fault = (if s.hub.lanes[l].fault = .retry then .ok else s.hub.lanes[l].fault) ∧
          t.hub.lanes[l].assignment = s.hub.lanes[l].assignment) ∧
        t.hub.protection.fan.requested = 0 ∧ t.hub.protection.fan.duty = s.hub.protection.fan.duty ∧
        settingsOf t.hub.zones = settingsOf s.hub.zones ∧ t.hub.renderer.tables = s.hub.renderer.tables

/-! ### Source Intake (chapter 1) -/

/-- R23: SET_PREFILL writes the nearest of 8, 16 and 32, a value midway going to the larger, and replies CLAMPED where
that differs from the value asked for. A target already held changes nothing else; a new one records RESTART, or joins
the NEW_GROUPS already pending, and while the Sample Clock Unit is stopped the change is taken at once. R26:
CLEAR_SOURCE_COUNTERS sets the ten counters of its source to 0 and changes nothing else. That the OK reply of SET_PREFILL
carries the target too is the model's choice (notes/assumptions/48.md); the number of its data words, where the spec
gives no layout, is the free value of notes/assumptions/2.md. -/
def Obligations.PrefillAndCounterRequests : Prop :=
  (∀ (s : State) (p : Port) (w target : Word) (i : SourceId), s.listens p → s.delivered → w.toNat = i.val →
     let n := if target.toNat < 12 then 8 else if target.toNat < 24 then 16 else 32
     ∃ t notices, exec (.setPrefill p w target) s = .next t ∧
       s.answers t p (s.ports.get p) (if target.toNat = n then .ok else .clamped) (.prefill n) notices ∧
       t.sources[i].prefill = n ∧ (∀ j : SourceId, j ≠ i → t.sources[j] = s.sources[j]) ∧
       (n = s.sources[i].prefill → t.sources = s.sources ∧ t.hub = s.hub) ∧
       (n ≠ s.sources[i].prefill → s.hub.clock.running = true →
         t.hub = s.hub ∧
           t.sources[i] =
             { s.sources[i] with
               prefill := n
               change :=
                 match s.sources[i].change with
                 | some (.newGroups a b) => some (.newGroups a b)
                 | _ => some .restart }) ∧
       (n ≠ s.sources[i].prefill → s.hub.clock.running = false → t.sources[i].change = none) ∧
       t.sources[i].counters = s.sources[i].counters ∧ t.sources[i].adopted = s.sources[i].adopted ∧
       t.hub.lanes = s.hub.lanes ∧ t.hub.protection = s.hub.protection ∧ t.hub.radio = s.hub.radio ∧
       t.hub.station = s.hub.station ∧ t.hub.standby = s.hub.standby ∧
       settingsOf t.hub.zones = settingsOf s.hub.zones ∧ t.hub.renderer.tables = s.hub.renderer.tables) ∧
  (∀ (s : State) (p : Port) (w : Word) (i : SourceId), s.listens p → s.delivered → w.toNat = i.val →
     ∃ t, exec (.clearSourceCounters p w) s = .next t ∧ s.answers t p (s.ports.get p) .ok .none [] ∧
       t.hub = s.hub ∧
       t.sources = s.sources.set i { s.sources[i] with counters := ⟨0, 0, 0, 0, 0, 0, 0, 0, 0, 0⟩ })

/-- R25: SET_GROUPS. A SERIAL source, a group id outside 1 to 4 and equal ids are refused BAD_VALUE. The groups already
selected, with no NEW_GROUPS pending, change nothing; any other pair is recorded as the pending change, in place of any
other, while the Sample Clock Unit runs, and is selected at once while it is stopped. -/
def Obligations.SetGroupsRecordsTheChange : Prop :=
  ∀ (s : State) (p : Port) (w a b : Word) (i : SourceId), s.listens p → s.delivered → w.toNat = i.val →
    (2 ≤ i.val → ∃ t, exec (.setGroups p w a b) s = .next t ∧ s.answersOnly t p .badValue (.wordRefused 1)) ∧
    (i.val < 2 → ¬ (1 ≤ a.toNat ∧ a.toNat ≤ 4) →
      ∃ t, exec (.setGroups p w a b) s = .next t ∧ s.answersOnly t p .badValue (.wordRefused 2)) ∧
    (i.val < 2 → 1 ≤ a.toNat → a.toNat ≤ 4 → ¬ (1 ≤ b.toNat ∧ b.toNat ≤ 4) ∨ a = b →
      ∃ t, exec (.setGroups p w a b) s = .next t ∧ s.answersOnly t p .badValue (.wordRefused 3)) ∧
    (i.val < 2 → 1 ≤ a.toNat → a.toNat ≤ 4 → 1 ≤ b.toNat → b.toNat ≤ 4 → a ≠ b →
      ∃ t notices, exec (.setGroups p w a b) s = .next t ∧ s.answers t p (s.ports.get p) .ok .none notices ∧
        (∀ j : SourceId, j ≠ i → t.sources[j] = s.sources[j]) ∧
        (a.toNat = s.sources[i].groupA → b.toNat = s.sources[i].groupB →
          (∀ c d, s.sources[i].change ≠ some (.newGroups c d)) → t.sources = s.sources ∧ t.hub = s.hub) ∧
        (¬ (a.toNat = s.sources[i].groupA ∧ b.toNat = s.sources[i].groupB) ∨
            (∃ c d, s.sources[i].change = some (.newGroups c d)) →
          (s.hub.clock.running = true →
            t.hub = s.hub ∧ t.sources[i] = { s.sources[i] with change := some (.newGroups a.toNat b.toNat) }) ∧
          (s.hub.clock.running = false →
            t.sources[i].groupA = a.toNat ∧ t.sources[i].groupB = b.toNat ∧ t.sources[i].maskA = 0 ∧
              t.sources[i].maskB = 0 ∧ t.sources[i].channels = 0 ∧ t.sources[i].buffer = [] ∧
              t.sources[i].pendingFrame = none ∧ t.sources[i].change = none ∧
              t.sources[i].counters = s.sources[i].counters)) ∧
        t.hub.lanes = s.hub.lanes ∧ t.hub.protection = s.hub.protection ∧ t.hub.radio = s.hub.radio ∧
        t.hub.station = s.hub.station ∧ t.hub.standby = s.hub.standby)

/-- R24, R3: PENDING_INTAKE_CHANGE takes the pending change of a source. RESTART empties a RUNNING source into PREFILL and
starts a PREFILL source that holds its target; NEW_GROUPS selects the groups, empties the masks and the channel set,
discards the frame under assembly and the buffer, and puts a RUNNING source in PREFILL. R54 to R56, R30 to R32: a source
that leaves RUNNING so has its zones wait, or ends their fades, the main zone's with its handover and its items (R53,
R70), and the clock hold over or follow; one that enters it has them fade in and the clock acquire. R72: a change of the
decode source's channel set derives the pair of R69 anew, which a silent main zone adopts at once. (A main zone that plays
another source than the decode source is left out.) That the row takes the change whenever it is given
(notes/assumptions/25.md), that the DECODE_ACTIVE of a pair adopted at once shows item pending clear
(notes/assumptions/41.md) and the order of the reactions (notes/assumptions/9.md) are the model's choice. -/
def Obligations.PendingIntakeChangeIsTaken : Prop :=
  ∀ (s : State) (i : SourceId), s.ready →
    ∃ t notices, exec (.pendingIntakeChange i) s = .next t ∧ s.tells t notices ∧
      (∀ j : SourceId, j ≠ i → t.sources[j] = s.sources[j]) ∧
      (s.sources[i].change = none → t.sources = s.sources ∧ t.hub = s.hub) ∧
      (s.sources[i].change = some .restart →
        (s.sources[i].state = .running →
          t.sources[i] =
            { s.sources[i] with
              state := .prefill, change := none, buffer := [], corrections := 0, lastRead := none, repeatHead := false } ∧
            sourceStateNotice i t.sources[i] ∈ notices ∧ s.hub.tookDeparture t.hub t.sources i notices ∧
            s.hub.keepsAudio t.hub i ∧ s.hub.tookMainFade t.hub t.sources i) ∧
        (s.sources[i].state = .prefill →
          t.sources[i] =
            { s.sources[i] with
              change := none
              state := if s.sources[i].prefill ≤ s.sources[i].buffer.length then .running else .prefill } ∧
            (s.sources[i].prefill ≤ s.sources[i].buffer.length →
              sourceStateNotice i t.sources[i] ∈ notices ∧ s.hub.tookEntry t.hub i notices) ∧
            (s.sources[i].buffer.length < s.sources[i].prefill → t.hub = s.hub ∧ notices = [])) ∧
        (s.sources[i].state ≠ .running → s.sources[i].state ≠ .prefill →
          t.sources[i] = { s.sources[i] with change := none } ∧ t.hub = s.hub)) ∧
      (∀ a b, s.sources[i].change = some (.newGroups a b) →
        t.sources[i].groupA = a ∧ t.sources[i].groupB = b ∧ t.sources[i].maskA = 0 ∧ t.sources[i].maskB = 0 ∧
          t.sources[i].channels = 0 ∧ t.sources[i].buffer = [] ∧ t.sources[i].pendingFrame = none ∧
          t.sources[i].lastSeq = none ∧ t.sources[i].lastWritten = none ∧ t.sources[i].assembly = .waiting ∧
          t.sources[i].prevBlock = none ∧ t.sources[i].change = none ∧
          t.sources[i].adopted = s.sources[i].adopted ∧ t.sources[i].counters = s.sources[i].counters ∧
          t.sources[i].state = (if s.sources[i].state = .running then .prefill else s.sources[i].state) ∧
          (s.sources[i].state = .running ∨ s.sources[i].channels ≠ 0 →
            sourceStateNotice i t.sources[i] ∈ notices) ∧
          (let main := s.hub.zones.main
           let d := s.hub.decoder
           let pair : DecodePair :=
             match d.requested with
             | .auto => if d.autoMatrix then ⟨.matrix, .auto⟩ else ⟨.direct, .auto⟩
             | .direct => ⟨.direct, .asRequested⟩
             | .matrix => ⟨.matrix, .asRequested⟩
             | .fold2 => ⟨.direct, .fold2NeedsMultichannel⟩
           (s.sources[i].state = .running → d.source ≠ some i ∨ main.current = some i →
             s.hub.tookDeparture t.hub t.sources i notices) ∧
           (s.sources[i].state ≠ .running → d.source ≠ some i → t.hub = s.hub) ∧
           (s.sources[i].state ≠ .running → main.state = .off ∨ main.state = .waiting →
             t.hub.zones = s.hub.zones ∧ t.hub.clock = s.hub.clock) ∧
           (d.source = some i → s.sources[i].channels ≠ 0 → d.itemPending = false →
             main.state = .off ∨ main.state = .waiting ∨
                 (s.sources[i].state = .running ∧ main.current = some i ∧
                   (main.state = .playing ∨ main.state = .fadingIn)) →
               t.hub.decoder.derived = pair ∧ t.hub.decoder.active = pair ∧ t.hub.decoder.itemPending = false ∧
                 (pair ≠ d.active → decodeActiveNotice t.hub.decoder ∈ notices)))) ∧
      t.hub.lanes = s.hub.lanes ∧ t.hub.protection = s.hub.protection ∧ t.hub.radio = s.hub.radio ∧
      t.hub.station = s.hub.station ∧ t.hub.standby = s.hub.standby ∧
      settingsOf t.hub.zones = settingsOf s.hub.zones ∧ t.hub.renderer.tables = s.hub.renderer.tables

/-- R13, R14, R3: the events of a source at an output block start. SOURCE_ABSENT, at an absence count of 8, puts the
source in ABSENT with its buffer, its assembly and its counts gone and its record and counters kept. SLIP_LIMIT_RESTART,
at 24 corrections in a row, empties a RUNNING source into PREFILL and counts the restart. Either posts SOURCE_STATE. R54,
R55, R30 to R32: where it takes the source out of RUNNING, the zones that play it or fade it in wait for it, their
fades-out of it end at once, and the clock that follows it holds over, or follows what the main zone then has; the decoder
and the renderer stay unless a fade of the main zone ended, which takes its handover, its DECODE item and its LAYOUT item
with it (R53, R70, R87) and decides layout and back-fill for the block that begins, also where the main zone is then sent
into a fade again; and where the source was not in RUNNING nothing else changes. That an event acts only once it has been
found, and not before (notes/assumptions/6.md), the order of the reactions (notes/assumptions/9.md) and that the end of
the main zone's fade decides anew what governs the block that begins (notes/assumptions/37.md), with back-fill by the
empty channel set where there is then no decode source (notes/assumptions/43.md), are the model's choice. -/
def Obligations.SourcesLeaveByAbsenceOrSlips : Prop :=
  ∀ (s : State) (i : SourceId), s.ready →
    (Due.sourceAbsent i ∈ s.hub.due → s.sources[i].state ≠ .absent → s.sources[i].absence = 8 →
      ∃ t notices, exec (.sourceAbsent i) s = .next t ∧ s.tells t notices ∧
        (∀ j : SourceId, j ≠ i → t.sources[j] = s.sources[j]) ∧
        t.sources[i] =
          { s.sources[i] with
            state := .absent, buffer := [], corrections := 0, absence := 0, arrival := false, entryInterval := false
            arrivals := 0, badRun := 0, goodRun := 0, lastSeq := none, pendingFrame := none, lastWritten := none
            lastRead := none, repeatHead := false, assembly := .waiting, prevBlock := none } ∧
        sourceStateNotice i t.sources[i] ∈ notices ∧
        (s.sources[i].state = .running →
          s.hub.tookDeparture t.hub t.sources i notices ∧ s.hub.keepsAudio t.hub i ∧
          s.hub.tookMainFade t.hub t.sources i ∧ s.hub.decidedAfterFade t.hub t.sources i) ∧
        (s.sources[i].state ≠ .running →
          notices = [sourceStateNotice i t.sources[i]] ∧ t.hub = { s.hub with due := t.hub.due }) ∧
        t.hub.lanes = s.hub.lanes ∧ t.hub.protection = s.hub.protection ∧ t.hub.radio = s.hub.radio ∧
        t.hub.station = s.hub.station ∧ t.hub.standby = s.hub.standby ∧
        settingsOf t.hub.zones = settingsOf s.hub.zones ∧ t.hub.renderer.tables = s.hub.renderer.tables) ∧
    (Due.slipRestart i ∈ s.hub.due → s.sources[i].state = .running → s.sources[i].corrections = 24 →
      ∃ t notices, exec (.slipLimitRestart i) s = .next t ∧ s.tells t notices ∧
        (∀ j : SourceId, j ≠ i → t.sources[j] = s.sources[j]) ∧
        t.sources[i] =
          { s.sources[i] with
            state := .prefill, buffer := [], corrections := 0, lastRead := none, repeatHead := false
            counters :=
              { s.sources[i].counters with slipRestarts := bump s.sources[i].counters.slipRestarts } } ∧
        sourceStateNotice i t.sources[i] ∈ notices ∧ s.hub.tookDeparture t.hub t.sources i notices ∧
        s.hub.keepsAudio t.hub i ∧ s.hub.tookMainFade t.hub t.sources i ∧
        s.hub.decidedAfterFade t.hub t.sources i ∧ t.hub.lanes = s.hub.lanes ∧
        t.hub.protection = s.hub.protection ∧ t.hub.radio = s.hub.radio ∧ t.hub.station = s.hub.station ∧
        t.hub.standby = s.hub.standby ∧ settingsOf t.hub.zones = settingsOf s.hub.zones ∧ t.hub.renderer.tables = s.hub.renderer.tables)

/-- R4, R9, R10, R17 to R19, R21, R191: a frame on a serial input. In STANDBY an input outside the wake-sense set is
ignored, and one inside it writes no frame and stays ABSENT. Otherwise the arrival is counted and flagged and an invalid
frame counted; the frame joins the buffer, masked, of a source in RUNNING or PREFILL that is not full, is an overrun at
one that is full, takes a source out of ABSENT, and is not written in UNUSABLE. Its status bit joins the block; the 160th
completes it. A block that fails its check is counted; a valid one is held, and one that equals the block before it is
confirmed and adopted where its record differs, with SOURCE_STATUS and the state R19 gives, and in STANDBY is a
WAKE_CANDIDATE once a period where it is audio. R54 to R56, R30 to R32: where the frame takes the source into RUNNING, the
zones that wait for it fade in and the clock that follows it acquires; where its record takes the source out of RUNNING,
they wait, end their fades, the main zone's with its handover and its items (R53, R70), and hold over; otherwise no other
block changes. (A frame that does both is left out.) That the state is `settled` first (notes/assumptions/6.md), the order
of the reactions (notes/assumptions/9.md), the order of the arrival and its status bit (notes/assumptions/26.md), that an
arrival in STANDBY is neither counted nor flagged (notes/assumptions/27.md) and that SOURCE_STATUS stands before
WAKE_CANDIDATE (notes/assumptions/38.md) are the model's choice. -/
def Obligations.SerialFramesArrive : Prop :=
  ∀ (s : State) (k : Fin 6) (left right : BitVec 24) (valid status start : Bool), s.ready → s.settled →
    let i := serialSource k
    let x := s.sources[i]
    let f := x.mask (if valid then { Frame.zero with fl := left.toInt, fr := right.toInt } else Frame.zero)
    let place (k : Nat) : StatusBlock := BitVec.ofNat 160 (status.toNat * 2 ^ k)
    let completes (b : StatusBlock) : Prop :=
      start = false ∧ ∃ held bits, x.assembly = .collecting held bits ∧ 160 ≤ held + 1 ∧ b = bits ||| place held
    let confirmed (b : StatusBlock) (r : StatusRecord) : Prop :=
      completes b ∧ recordOf b = some r ∧ x.prevBlock = some b
    let collected (t : State) : Prop :=
      (start = true → t.sources[i].assembly = .collecting 1 (place 0)) ∧
      (start = false → x.assembly = .waiting → t.sources[i].assembly = .waiting) ∧
      (∀ held bits, x.assembly = .collecting held bits → start = false → held + 1 < 160 →
        t.sources[i].assembly = .collecting (held + 1) (bits ||| place held)) ∧
      (∀ b, completes b → t.sources[i].assembly = .waiting) ∧
      ((start = true ∧ x.assembly ≠ .waiting) ∨ (∃ b, completes b ∧ recordOf b = none) →
        t.sources[i].counters.blocksFailed = bump x.counters.blocksFailed) ∧
      ((start = true ∧ x.assembly = .waiting) ∨ (start = false ∧ ∀ b, completes b → recordOf b ≠ none) →
        t.sources[i].counters.blocksFailed = x.counters.blocksFailed) ∧
      (∀ b r, completes b → recordOf b = some r → t.sources[i].prevBlock = some b) ∧
      ((∀ b, completes b → recordOf b = none) → t.sources[i].prevBlock = x.prevBlock) ∧
      (∀ b r, confirmed b r → t.sources[i].adopted = some r) ∧
      ((∀ b r, ¬ confirmed b r) → t.sources[i].adopted = x.adopted)
    (∀ b : StatusBlock,
      let byte (k : Nat) : Byte := (b >>> (8 * k)).setWidth 8
      recordOf b =
        (if ((List.range 20).map fun k => (byte k).toNat).sum % 256 = 0 ∧ 1 ≤ (byte 2).toNat ∧ (byte 2).toNat ≤ 3 then
          some ⟨(byte 0).getLsbD 0, byte 1, if byte 2 = 1 then .w16 else if byte 2 = 2 then .w20 else .w24,
            (b >>> 24).setWidth 120⟩
        else none)) ∧
    (s.hub.standby.power = .standby → s.hub.standby.wakeSense.getLsbD i.val = false →
      ∃ t, exec (.serialFrameArrival k left right valid status start) s = .next t ∧ s.tells t [] ∧
        t.sources = s.sources ∧ t.hub = s.hub) ∧
    (s.hub.standby.power = .standby → s.hub.standby.wakeSense.getLsbD i.val = true → x.state = .absent →
      ∃ t notices, exec (.serialFrameArrival k left right valid status start) s = .next t ∧ s.tells t notices ∧
        (∀ j : SourceId, j ≠ i → t.sources[j] = s.sources[j]) ∧ t.sources[i].state = .absent ∧
        t.sources[i].arrivals = x.arrivals ∧ t.sources[i].arrival = x.arrival ∧
        t.sources[i].counters.invalidFrames =
          (if valid then x.counters.invalidFrames else bump x.counters.invalidFrames) ∧
        t.hub.standby.wakeSense = s.hub.standby.wakeSense ∧ t.hub.standby.power = .standby ∧
        collected t ∧ t.hub = { s.hub with standby := t.hub.standby } ∧
        ((∀ b r, ¬ confirmed b r) → notices = [] ∧ t.hub.standby = s.hub.standby) ∧
        (∀ b r, confirmed b r →
          let reports := r.nonAudio = false ∧ s.hub.standby.reported.getLsbD i.val = false
          notices = (if x.adopted = some r then [] else [sourceStatusNotice i r]) ++
              (if reports then [wakeCandidateNotice i r] else []) ∧
            t.hub.standby =
              (if reports then
                { s.hub.standby with reported := s.hub.standby.reported ||| BitVec.ofNat 8 (2 ^ i.val) }
              else s.hub.standby))) ∧
    (s.hub.standby.power ≠ .standby →
      ∃ t notices, exec (.serialFrameArrival k left right valid status start) s = .next t ∧ s.tells t notices ∧
        (∀ j : SourceId, j ≠ i → t.sources[j] = s.sources[j]) ∧
        t.sources[i].arrivals = x.arrivals + 1 ∧ t.sources[i].arrival = true ∧
        t.sources[i].prefill = x.prefill ∧ t.sources[i].channels = x.channels ∧ t.sources[i].change = x.change ∧
        t.sources[i].counters.invalidFrames =
          (if valid then x.counters.invalidFrames else bump x.counters.invalidFrames) ∧
        ((start = true ∨ ∀ held bits, x.assembly = .collecting held bits → held + 1 < 160) →
          t.sources[i].adopted = x.adopted ∧
          (x.state = .running → t.sources[i].state = .running ∧
            (x.buffer.length < 64 → t.sources[i].buffer = x.buffer ++ [f] ∧ t.sources[i].lastWritten = some f) ∧
            (64 ≤ x.buffer.length → t.sources[i].buffer = x.buffer ∧
              t.sources[i].counters.overruns = bump x.counters.overruns)) ∧
          (x.state = .prefill → x.buffer.length < 64 → t.sources[i].buffer = x.buffer ++ [f] ∧
            t.sources[i].state = (if x.prefill ≤ x.buffer.length + 1 then .running else .prefill)) ∧
          (x.state = .absent → t.sources[i].entryInterval = true ∧
            (playable x.adopted = true → t.sources[i].buffer = [f] ∧
              t.sources[i].state = (if x.prefill ≤ 1 then .running else .prefill)) ∧
            (playable x.adopted = false → t.sources[i].buffer = [] ∧ t.sources[i].state = recordState x.adopted)) ∧
          (∀ r, x.state = .unusable r → t.sources[i].state = .unusable r ∧ t.sources[i].buffer = x.buffer)) ∧
        collected t ∧
        (let filled := x.prefill ≤ (if x.buffer.length < 64 then x.buffer.length + 1 else x.buffer.length)
         let arrived : SourceState :=
           match x.state with
           | .running => .running
           | .prefill => if filled then .running else .prefill
           | .unusable reason => .unusable reason
           | .absent =>
             if playable x.adopted then (if x.prefill ≤ 1 then .running else .prefill) else recordState x.adopted
         (∀ b r, confirmed b r → x.adopted = some r → t.sources[i].state = arrived) ∧
         ∀ b r, confirmed b r → x.adopted ≠ some r →
           sourceStatusNotice i r ∈ notices ∧
             t.sources[i].state =
               (if r.nonAudio then .unusable .nonAudio
                else if r.rate = 2 then
                  (match arrived with
                   | .unusable .nonAudio => .prefill
                   | .unusable .rate => if x.goodRun = 4 then .prefill else .unusable .rate
                   | other => other)
                else .unusable .rate) ∧
             (let plays := r.nonAudio = false ∧ r.rate = 2
              (x.state = .running → (plays → t.hub = s.hub) ∧
                (¬ plays → s.hub.tookDeparture t.hub t.sources i notices ∧ s.hub.keepsAudio t.hub i ∧
                  s.hub.tookMainFade t.hub t.sources i)) ∧
              (x.state = .prefill → (filled → plays → s.hub.tookEntry t.hub i notices) ∧ (¬ filled → t.hub = s.hub)) ∧
              ∀ reason, x.state = .unusable reason → t.hub = s.hub)) ∧
        ((∀ b r, confirmed b r → x.adopted = some r) →
          let filled := x.prefill ≤ (if x.buffer.length < 64 then x.buffer.length + 1 else x.buffer.length)
          let tells := sourceStateNotice i t.sources[i]
          (x.state = .running ∨ (∃ reason, x.state = .unusable reason) → t.hub = s.hub ∧ notices = []) ∧
            (x.state = .prefill → (filled → tells ∈ notices ∧ s.hub.tookEntry t.hub i notices) ∧
              (¬ filled → t.hub = s.hub ∧ notices = [])) ∧
            (x.state = .absent → tells ∈ notices ∧
              (playable x.adopted = true → x.prefill ≤ 1 → s.hub.tookEntry t.hub i notices) ∧
              (playable x.adopted = false ∨ 1 < x.prefill → t.hub = s.hub ∧ notices = [tells]))) ∧
        t.hub.lanes = s.hub.lanes ∧ t.hub.protection = s.hub.protection ∧ t.hub.radio = s.hub.radio ∧
        t.hub.station = s.hub.station ∧ t.hub.standby = s.hub.standby ∧
        settingsOf t.hub.zones = settingsOf s.hub.zones ∧ t.hub.renderer.tables = s.hub.renderer.tables)

/-- R5 to R8, R17, R21: a packet on a packet input. An input ignored in STANDBY changes nothing; a packet that is short or
holds an uncorrectable word is counted rejected, once, and its corrected words are counted; a packet of a group that is
not selected, and one of sequence 0, go no further. Any other is accepted, and the mask of its group is held. Where that
changes the channel set the intake restarts: the frame under assembly, the last sequence, the last frame and the buffer
are gone, a RUNNING source is in PREFILL, SOURCE_STATE is posted, the zones, the clock and the decoder react, and the
packet starts a new frame. Otherwise a duplicate or a late duplicate is rejected; a first part starts the pending frame;
the other part of the same sequence completes it; and a part of another sequence completes the old frame with zero
channels and starts a new one. A completed frame fills the gap before it, of one to four frames, with the last frame
written, counts a gap of any length, and is written as a frame arrival. A group A packet that is no duplicate brings a
status bit, which joins the block; the 160th completes it, and a block that fails is counted. That the state is `settled`
first, all events found being taken (notes/assumptions/6.md), and the order of the status bit and the completed frame
(notes/assumptions/26.md) and of the reactions (notes/assumptions/9.md), that a frame completed in STANDBY is neither
counted as an arrival nor flagged (notes/assumptions/27.md), and that its sequence becomes the last written one and its
gap is counted there all the same (notes/assumptions/70.md), are the model's choice. (The write of a frame whose own
status bit adopts a new record is left out.) -/
def Obligations.PacketsAreCheckedAndAssembled : Prop :=
  ∀ (s : State) (k : Fin 2) (words : List CodeWord), s.ready → s.settled →
    let i := packetSource k
    let x := s.sources[i]
    let counted : SourceCounters :=
      { x.counters with wordsCorrected := bumpBy x.counters.wordsCorrected (correctedCount (words.map checkWord)) }
    let rejected : SourceCounters := { counted with wordsRejected := bump x.counters.wordsRejected }
    let ignored := s.hub.standby.power = .standby ∧ s.hub.standby.wakeSense.getLsbD i.val = false
    ∃ t notices, exec (.packetArrival k words) s = .next t ∧ s.tells t notices ∧
      (∀ j : SourceId, j ≠ i → t.sources[j] = s.sources[j]) ∧
      (ignored → t.sources = s.sources ∧ t.hub = s.hub) ∧
      (¬ ignored → (words.length ≠ 5 ∨ ∃ w ∈ words, checkWord w = .uncorrectable) →
        t.hub = s.hub ∧ t.sources[i] = { x with counters := rejected }) ∧
      (¬ ignored → ∀ head w0 w1 w2 w3 : BitVec 26,
        words.map (fun w => (checkWord w).data?) = [some head, some w0, some w1, some w2, some w3] →
          let group := head.toNat / 256 % 8
          let seq := head.toNat % 256
          let mask : BitVec 4 := (head >>> 11).setWidth 4
          let part := partOf mask w0 w1 w2 w3
          (group ≠ x.groupA → group ≠ x.groupB → t.hub = s.hub ∧ t.sources[i] = { x with counters := counted }) ∧
          (group = x.groupA ∨ group = x.groupB → seq = 0 →
            t.hub = s.hub ∧ t.sources[i] = { x with counters := rejected }) ∧
          (group = x.groupA ∨ group = x.groupB → seq ≠ 0 →
            let onA := decide (group = x.groupA)
            let maskA := if onA then mask else x.maskA
            let maskB := if onA then x.maskB else mask
            let channels : Channels := maskB ++ maskA
            let starts : PendingFrame := if onA then ⟨seq, some part, none⟩ else ⟨seq, none, some part⟩
            -- the status bit of a group A packet
            let flag := w0.getLsbD 25
            let place (n : Nat) : StatusBlock := BitVec.ofNat 160 ((w0.getLsbD 24).toNat * 2 ^ n)
            let assembly : StatusAssembly :=
              match onA, flag, x.assembly with
              | false, _, before => before
              | true, true, _ => .collecting 1 (place 0)
              | true, false, .waiting => .waiting
              | true, false, .collecting held bits =>
                if 160 ≤ held + 1 then .waiting else .collecting (held + 1) (bits ||| place held)
            let block : Option StatusBlock :=
              match onA, flag, x.assembly with
              | true, false, .collecting held bits => if 160 ≤ held + 1 then some (bits ||| place held) else none
              | _, _, _ => none
            let record := block.bind recordOf
            let prevBlock := if record.isSome then block else x.prevBlock
            let adopts := record.filter fun r => decide (block = x.prevBlock ∧ x.adopted ≠ some r)
            let failed := (onA && flag && decide (x.assembly ≠ .waiting)) || (block.isSome && record.isNone)
            let blocks : SourceCounters :=
              { counted with blocksFailed := if failed then bump x.counters.blocksFailed else x.counters.blocksFailed }
            let quiet := t.hub = s.hub ∧ notices = []
            -- a new channel set
            (channels ≠ x.channels →
              let wasRunning := decide (x.state = .running)
              let pair : DecodePair :=
                match s.hub.decoder.requested, decide (channels &&& 0xFC ≠ 0) with
                | .auto, false => if s.hub.decoder.autoMatrix then ⟨.matrix, .auto⟩ else ⟨.direct, .auto⟩
                | .auto, true => ⟨.direct, .auto⟩
                | .direct, _ => ⟨.direct, .asRequested⟩
                | .matrix, false => ⟨.matrix, .asRequested⟩
                | .matrix, true => ⟨.direct, .matrixNeedsStereo⟩
                | .fold2, false => ⟨.direct, .fold2NeedsMultichannel⟩
                | .fold2, true => ⟨.fold2, .asRequested⟩
              let main := s.hub.zones.main
              let z : Source :=
                { x with
                  state := if wasRunning then .prefill else x.state
                  maskA := maskA, maskB := maskB, channels := channels, lastSeq := none, lastWritten := none, buffer := []
                  corrections := if wasRunning then 0 else x.corrections
                  repeatHead := !wasRunning && x.repeatHead
                  lastRead := if wasRunning then none else x.lastRead
                  pendingFrame := some starts, assembly := assembly, prevBlock := prevBlock, counters := blocks }
              sourceStateNotice i z ∈ notices ∧ (adopts = none → t.sources[i] = z) ∧
                (s.hub.decoder.source ≠ some i ∨ main.current = some i → x.state = .running →
                  s.hub.tookDeparture t.hub t.sources i notices) ∧
                (s.hub.decoder.source ≠ some i → x.state ≠ .running → s.hub.standby.power ≠ .standby → t.hub = s.hub) ∧
                (s.hub.decoder.source = some i → s.hub.decoder.itemPending = false →
                  main.state = .off ∨ main.state = .waiting ∨
                      (x.state = .running ∧ main.current = some i ∧ (main.state = .playing ∨ main.state = .fadingIn)) →
                    t.hub.decoder.derived = pair ∧ t.hub.decoder.active = pair ∧ t.hub.decoder.itemPending = false)) ∧
            -- a duplicate, and a late one
            (channels = x.channels →
              (x.lastSeq = some seq ∨ ∃ f, x.pendingFrame = some f ∧ f.seq = seq ∧
                  (if onA then f.partA else f.partB).isSome = true) →
                quiet ∧ t.sources[i] = { x with maskA := maskA, maskB := maskB, counters := rejected }) ∧
            -- any other packet
            (channels = x.channels → x.lastSeq ≠ some seq →
              (∀ f, x.pendingFrame = some f → f.seq = seq → (if onA then f.partA else f.partB) = none) →
                let y : Source :=
                  { x with
                    maskA := maskA, maskB := maskB, assembly := assembly, prevBlock := prevBlock, counters := blocks }
                (∀ r, adopts = some r → t.sources[i].adopted = some r ∧ t.sources[i].assembly = assembly ∧
                  t.sources[i].prevBlock = prevBlock ∧ sourceStatusNotice i r ∈ notices) ∧
                (adopts = none → x.pendingFrame = none →
                  t.sources[i] = { y with pendingFrame := some starts } ∧
                    (s.hub.standby.power ≠ .standby ∨ block = none → quiet)) ∧
                (adopts = none → ∀ f, x.pendingFrame = some f →
                  let a := (if f.seq = seq && onA then some part else f.partA).getD ⟨0, 0, 0, 0⟩
                  let b := (if f.seq = seq && !onA then some part else f.partB).getD ⟨0, 0, 0, 0⟩
                  let made := x.mask ⟨a.s0, a.s1, a.s2, a.s3, b.s0, b.s1, b.s2, b.s3⟩
                  let left := if f.seq = seq then none else some starts
                  ∀ gap, (x.lastSeq = none ∧ gap = 0) ∨
                      (∃ l, x.lastSeq = some l ∧ 1 ≤ l ∧ l ≤ 255 ∧ gap ≤ 254 ∧ f.seq = (l + gap) % 255 + 1) →
                    let fill : List Frame :=
                      match x.lastWritten with
                      | some w => if 1 ≤ gap ∧ gap ≤ 4 then List.replicate gap (x.mask w) else []
                      | none => []
                    let gaps : SourceCounters :=
                      { blocks with
                        gaps := if gap = 0 then x.counters.gaps else bump x.counters.gaps
                        gapFilled := if fill = [] then x.counters.gapFilled else bumpBy x.counters.gapFilled gap }
                    let u : Source := { y with lastSeq := some f.seq, pendingFrame := left, counters := gaps }
                    let v : Source := { u with arrivals := x.arrivals + fill.length + 1, arrival := true }
                    let w : Source := { v with buffer := x.buffer ++ fill ++ [made], lastWritten := some made }
                    (s.hub.standby.power = .standby → t.sources[i] = u) ∧
                    (s.hub.standby.power ≠ .standby →
                      (x.state = .running → quiet ∧
                        (x.buffer.length + fill.length < 64 → t.sources[i] = w) ∧
                        (64 ≤ x.buffer.length →
                          t.sources[i] =
                            { v with
                              counters :=
                                { gaps with overruns := bumpBy x.counters.overruns (fill.length + 1) } })) ∧
                      (x.state = .prefill → x.buffer.length + fill.length < 64 →
                        (x.prefill ≤ x.buffer.length + fill.length + 1 →
                          t.sources[i] = { w with state := .running } ∧ sourceStateNotice i t.sources[i] ∈ notices ∧
                            s.hub.tookEntry t.hub i notices) ∧
                        (x.buffer.length + fill.length + 1 < x.prefill → t.sources[i] = w ∧ quiet)) ∧
                      (∀ reason, x.state = .unusable reason → t.sources[i] = v ∧ quiet) ∧
                      (x.state = .absent → fill = [] → t.sources[i].entryInterval = true ∧
                        t.sources[i].counters = gaps ∧ t.sources[i].lastSeq = some f.seq ∧
                        t.sources[i].pendingFrame = left ∧ sourceStateNotice i t.sources[i] ∈ notices ∧
                        (playable x.adopted = true → t.sources[i].buffer = [made] ∧
                          t.sources[i].state = (if x.prefill ≤ 1 then .running else .prefill) ∧
                          (x.prefill ≤ 1 → s.hub.tookEntry t.hub i notices) ∧ (1 < x.prefill → t.hub = s.hub)) ∧
                        (playable x.adopted = false →
                          t.sources[i].buffer = [] ∧ t.sources[i].state = recordState x.adopted ∧ t.hub = s.hub)))))) ∧
      t.hub.lanes = s.hub.lanes ∧ t.hub.protection = s.hub.protection ∧ t.hub.radio = s.hub.radio ∧
      t.hub.station = s.hub.station ∧ t.hub.standby.power = s.hub.standby.power ∧
      settingsOf t.hub.zones = settingsOf s.hub.zones ∧ t.hub.renderer.tables = s.hub.renderer.tables)

/-! ### The Sample Clock Unit and time (chapter 2) -/

/-- R37, R30, R31: SET_CLOCK_MODE. The mode in force changes nothing; while the unit is stopped the mode is stored; while
it runs, FORCED_FREE gives up the reference and enters FREE at the nominal period word, and AUTO takes the main zone's
source, acquiring a RUNNING one from the nominal period word where the unit is in FREE. That the nominal word then ends
the sample period already in progress is the model's choice (notes/assumptions/49.md). -/
def Obligations.SetClockModeDerivesTheReference : Prop :=
  ∀ (s : State) (p : Port) (w : Word) (m : ClockMode), s.listens p → s.delivered →
    (w = 0 ∧ m = .auto) ∨ (w = 1 ∧ m = .forcedFree) →
      ∃ t notices, exec (.setClockMode p w) s = .next t ∧
        s.answers t p (s.ports.get p) .ok
          (.clockMode m s.hub.clock.running t.hub.clock.state t.hub.clock.reference) notices ∧
        t.sources = s.sources ∧ t.hub = { s.hub with clock := t.hub.clock } ∧
        (m = s.hub.clock.mode → t.hub = s.hub ∧ notices = []) ∧
        (m ≠ s.hub.clock.mode → notices = [clockStateNotice t.hub.clock] ∧
          (s.hub.clock.running = false → t.hub.clock = { s.hub.clock with mode := m }) ∧
          (s.hub.clock.running = true → m = .forcedFree →
            t.hub.clock.reference = none ∧
              (s.hub.clock.reference ≠ none → s.hub.clock.state ≠ .free →
                t.hub.clock =
                  { s.hub.clock with
                    mode := .forcedFree, state := .free, period := 33554432, reference := none, good := 0
                    holdover := 0, partialInterval := false })) ∧
          (s.hub.clock.running = true → m = .auto → s.hub.clock.reference = none → s.hub.clock.state = .free →
            let playing := s.hub.zones.main.state ≠ .off ∧ s.hub.zones.main.state ≠ .fadingOut .powerOff
            (¬ playing ∨ s.hub.zones.main.current = none → t.hub.clock = { s.hub.clock with mode := .auto }) ∧
            ∀ i, playing → s.hub.zones.main.current = some i →
              (s.sources[i].state = .running →
                t.hub.clock =
                  { s.hub.clock with
                    mode := .auto, state := .acquiring, period := 33554432, reference := some i, good := 0
                    holdover := 0, partialInterval := true }) ∧
              (s.sources[i].state ≠ .running →
                t.hub.clock = { s.hub.clock with mode := .auto, reference := some i })))

/-- R28, R11, R12: the end of an output sample period while the Sample Clock Unit runs and nothing waits: the phase, the
block position and the fan drive (R123) move on, and a RUNNING source hands out the head of its buffer, once more at a
repeat and with an underrun where it is empty. R2, R40, R76: each zone draws its current source's frame, Zones 2 and 3 a
pair of it, through its lip-sync line. R73 to R75, R77, R80: the decoder makes the positions in DIRECT, FOLD2 and MATRIX,
with back-fill, and adds the frame to its sums. R89 to R92: absent positions are folded, the bass-managed ones filtered,
and all go through their delay lines; an invalid layout renders silence. R94, R112: each output is the gained and
saturated sample, a saturation is counted, and a lane whose relay is not CLOSED delivers zero. While the unit is stopped
nothing happens. That the state is `settled` first, all events found being taken (notes/assumptions/6.md), that the row
acts only while the unit runs and how many crystal periods it stands for (notes/assumptions/10.md, 25.md), that a gain
index of −1 silences at once (notes/assumptions/11.md), the layout that governs a block (notes/assumptions/21.md) and
which period word ends a sample period (notes/assumptions/49.md) are the model's choice; what a source with nothing read
yet hands out is free (notes/assumptions/3.md). -/
def Obligations.SamplePeriodMovesEveryOutput : Prop :=
  ∀ s : State, s.ready → s.settled →
    (s.hub.clock.running = false →
      ∃ t, exec .outputSamplePeriod s = .next t ∧ s.tells t [] ∧ t.sources = s.sources ∧ t.hub = s.hub) ∧
    (s.hub.clock.running = true →
      let periods := (s.hub.clock.period - s.hub.clock.phase + 65535) / 65536
      let place (f : Fan) : Nat := if f.rising then f.pwm else 2046 - f.pwm
      let product (x c : Int) : Int := (x * c + 16384) / 32768
      let saturated (x : Int) : Int := max (-8388608) (min 8388607 x)
      let folds (f : Frame) : Int × Int :=
        (saturated (product f.fl 16384 + product f.c 11585 + product f.sl 11585 + product f.bl 11585),
          saturated (product f.fr 16384 + product f.c 11585 + product f.sr 11585 + product f.br 11585))
      let pair (a b : Int) : Frame := ⟨a, b, 0, 0, 0, 0, 0, 0⟩
      ∃ t, exec .outputSamplePeriod s = .next t ∧ s.tells t [] ∧
        t.hub.clock =
          { s.hub.clock with
            phase := s.hub.clock.phase + periods * 65536 - s.hub.clock.period
            blockPos := if 47 ≤ s.hub.clock.blockPos then 0 else s.hub.clock.blockPos + 1 } ∧
        (47 ≤ s.hub.clock.blockPos ↔ Due.blockStart ∈ t.hub.due) ∧
        (let f := s.hub.protection.fan
         let g := t.hub.protection.fan
         t.hub.protection = { s.hub.protection with fan := { f with pwm := g.pwm, rising := g.rising } } ∧
           place g = (place f + periods) % 2046 ∧ g.pwm ≤ 1023 ∧
           (2046 ≤ place f + periods ∧ f.requested ≠ f.duty ↔ Due.fanDuty ∈ t.hub.due)) ∧
        (∀ i : SourceId,
          (s.sources[i].state ≠ .running → t.sources[i] = { s.sources[i] with repeatHead := false }) ∧
          (s.sources[i].state = .running →
            (s.sources[i].buffer = [] →
              t.sources[i] =
                { s.sources[i] with
                  repeatHead := false
                  counters := { s.sources[i].counters with underruns := bump s.sources[i].counters.underruns } }) ∧
            ∀ f rest, s.sources[i].buffer = f :: rest →
              t.sources[i] =
                { s.sources[i] with
                  buffer := if s.sources[i].repeatHead then f :: rest else rest
                  repeatHead := false
                  lastRead := some f })) ∧
        (∃ heard : SourceId → Frame,
          (∀ i : SourceId,
            (s.sources[i].state ≠ .running ∨ (i.val = 6 ∧ s.hub.radio.mute = true) → heard i = Frame.zero) ∧
            (s.sources[i].state = .running → ¬ (i.val = 6 ∧ s.hub.radio.mute = true) →
              (∀ f rest, s.sources[i].buffer = f :: rest → heard i = f) ∧
              ∀ f, s.sources[i].buffer = [] → s.sources[i].lastRead = some f → heard i = f)) ∧
          let drawn (z : ZoneId) : Frame :=
            match (s.hub.zone z).current with
            | none => Frame.zero
            | some i =>
              if z = .main then heard i
              else if s.sources[i].channels &&& 0xFC = 0 then pair (heard i).fl (heard i).fr
              else pair (folds (heard i)).1 (folds (heard i)).2
          let leaves (z : ZoneId) : Frame := ((s.hub.zone z).line ++ [drawn z]).headD Frame.zero
          let d := s.hub.decoder
          let m := leaves .main
          let k := d.steering
          let made : Frame :=
            match d.active.mode with
            | .direct => m
            | .fold2 => pair (folds m).1 (folds m).2
            | .matrix =>
              { Frame.zero with
                fl := saturated (m.fl - product (m.fl + m.fr) k.kF)
                fr := saturated (m.fr - product (m.fl + m.fr) k.kF)
                c := saturated (product (m.fl + m.fr) k.gC)
                sl := saturated (product (product (m.fl - m.fr) k.gS) k.wL)
                sr := saturated (-(product (product (m.fl - m.fr) k.gS) k.wR)) }
          let bl := if d.backfillL then product made.sl 23170 else made.bl
          let br := if d.backfillR then product made.sr 23170 else made.br
          let r := s.hub.renderer
          let layout := r.governing
          let has (p : Nat) : Bool := layout.present.getLsbD p
          let left : Int :=
            made.fl + (if has 3 then 0 else product made.sl 23170 + if has 5 then 0 else product bl 23170) +
              (if has 2 then 0 else product made.c 23170) + if layout.sub then 0 else product made.lfe 23170
          let right : Int :=
            made.fr + (if has 4 then 0 else product made.sr 23170 + if has 6 then 0 else product br 23170) +
              (if has 2 then 0 else product made.c 23170) + if layout.sub then 0 else product made.lfe 23170
          let bus : Vector Int 7 :=
            #v[if has 1 then left else left + product right 23170, if has 0 then right else right + product left 23170,
              made.c, made.sl + (if has 5 then 0 else bl), made.sr + (if has 6 then 0 else br), bl, br]
          let folded (p : Position) : Int := if layout.valid && has p.val then saturated bus[p] else 0
          let low (p : Position) : Int :=
            if layout.bass.getLsbD p.val then
              saturated (r.filters[p] + product (folded p - r.filters[p])
                (match layout.crossover with | none => 0 | some c => [256, 341, 426, 511, 637].getD c 0))
            else r.filters[p]
          let managed (p : Position) : Int :=
            if layout.valid = false then 0
            else if layout.bass.getLsbD p.val then saturated (folded p - low p) else folded p
          let lows := ((List.finRange 7).map fun p => if layout.bass.getLsbD p.val then low p else 0).sum
          let sub : Int := if layout.valid then saturated ((if layout.sub then made.lfe else 0) + lows) else 0
          let out (p : Position) : Int := if layout.valid then (r.lines[p] ++ [managed p]).headD 0 else 0
          let outSub : Int := if layout.valid then (r.subLine ++ [sub]).headD 0 else 0
          let fed (target : Fin 12) : Int :=
            if h : 1 ≤ target.val ∧ target.val ≤ 7 then
              if has (target.val - 1) then out ⟨target.val - 1, by omega⟩ else 0
            else
              match target.val with
              | 8 => (leaves .z2).fl
              | 9 => (leaves .z2).fr
              | 10 => (leaves .z3).fl
              | 11 => (leaves .z3).fr
              | _ => 0
          let gained (z : ZoneId) (index x : Int) : Int :=
            (x * gainOf (if (s.hub.zone z).gain < 0 then -1 else index) + 32768) / 65536
          let laneGained (l : LaneId) : Int :=
            let g := r.laneDrives[l]
            if g.target = 0 then 0
            else gained (if g.target.val ≤ 7 then .main else if g.target.val ≤ 9 then .z2 else .z3) g.index (fed g.target)
          let clipped (x : Int) (n : Nat) : Nat := if saturated x = x then n else bump n
          (∀ z, t.hub.zone z = { s.hub.zone z with line := ((s.hub.zone z).line ++ [drawn z]).drop 1 }) ∧
          t.hub.decoder =
            { d with
              newMode := false
              sums :=
                if d.active.mode = .matrix then
                  ⟨d.sums.sumL + m.fl.natAbs, d.sums.sumR + m.fr.natAbs, d.sums.sumC + (m.fl + m.fr).natAbs,
                    d.sums.sumS + (m.fl - m.fr).natAbs⟩
                else d.sums } ∧
          (∀ p : Position, t.hub.renderer.filters[p] = low p ∧
            t.hub.renderer.lines[p] = (r.lines[p] ++ [managed p]).drop 1) ∧
          t.hub.renderer.subLine = (r.subLine ++ [sub]).drop 1 ∧
          (∀ l : LaneId,
            t.hub.lanes[l] = { s.hub.lanes[l] with clips := clipped (laneGained l) s.hub.lanes[l].clips } ∧
            (s.hub.lanes[l].relay ≠ .closed → t.hub.renderer.laneOut[l] = 0) ∧
            (s.hub.lanes[l].relay = .closed →
              (s.hub.lanes[l].ramp = none ∨ s.hub.lanes[l].ramp = some 0 →
                t.hub.renderer.laneOut[l] = saturated (laneGained l)) ∧
              ∀ n, s.hub.lanes[l].ramp = some (n + 1) →
                t.hub.renderer.laneOut[l] = product (saturated (laneGained l)) ((7 - n : Nat) * 4096))) ∧
          t.hub.renderer.lineOut =
            ⟨saturated (gained .main r.lineIndex.sub outSub), saturated (gained .z2 r.lineIndex.z2l (leaves .z2).fl),
              saturated (gained .z2 r.lineIndex.z2r (leaves .z2).fr), saturated (gained .z3 r.lineIndex.z3l (leaves .z3).fl),
              saturated (gained .z3 r.lineIndex.z3r (leaves .z3).fr)⟩ ∧
          t.hub.renderer.clips =
            ⟨clipped (gained .main r.lineIndex.sub outSub) r.clips.sub,
              clipped (gained .z2 r.lineIndex.z2l (leaves .z2).fl) r.clips.z2l,
              clipped (gained .z2 r.lineIndex.z2r (leaves .z2).fr) r.clips.z2r,
              clipped (gained .z3 r.lineIndex.z3l (leaves .z3).fl) r.clips.z3l,
              clipped (gained .z3 r.lineIndex.z3r (leaves .z3).fr) r.clips.z3r⟩) ∧
        (∀ l : LaneId, inSampleRange t.hub.renderer.laneOut[l]) ∧
        inSampleRange t.hub.renderer.lineOut.sub ∧ inSampleRange t.hub.renderer.lineOut.z2l ∧
        inSampleRange t.hub.renderer.lineOut.z2r ∧ inSampleRange t.hub.renderer.lineOut.z3l ∧
        inSampleRange t.hub.renderer.lineOut.z3r ∧
        t.hub.renderer.inForce = s.hub.renderer.inForce ∧ t.hub.renderer.derived = s.hub.renderer.derived ∧
        t.hub.renderer.tables = s.hub.renderer.tables ∧
        t.hub.radio = s.hub.radio ∧ t.hub.station = s.hub.station ∧ t.hub.standby = s.hub.standby)

/-- R28: an output block start, also where the sample period that ended the block has found it. While the Sample Clock
Unit runs every pending intake change is taken (R24) and every count advances: the block and interval positions; the
relay timers, release ramps, retry timers and trip ages (R110, R111, R114); the rotation begins anew at channel 0 (R118);
the ceiling's step (R120), the temperature count (R119) and the fan window (R124); the waking count and the power-on
delay (R189); the settle or wait of the radio's operation (R136, R163), the data poll at 40 and the quality poll at 200
(R150), the probe at 500 (R149), the back-off and the weak run (R162). Each event is found when its count comes to its
end and not before. Where no intake change waits: every source is examined and may correct (R12, R14), every zone takes
its ramp step or counts its wait (R42 to R44, R57), MATRIX is steered (R78, R79), back-fill and the layout are decided
(R74, R89) and the effective indices fixed (R93). While the unit is stopped nothing happens. That the state is `settled`
first and counts stand at their last value until the event is taken (notes/assumptions/6.md), the order of the parts of a
block start (notes/assumptions/12.md), that the row acts where no sample period has found it (notes/assumptions/25.md),
that an adoption noted by `newMode` is the block start's own (notes/assumptions/36.md), back-fill with no decode source
(notes/assumptions/43.md), that the settle count stands still outside SETTLE and WAIT (notes/assumptions/79.md), and that
the back-off falls before the follow trigger is examined, so that one which reaches 0 there meets it
(notes/assumptions/80.md), are the model's choice. -/
def Obligations.BlockStartAdvancesEveryCount : Prop :=
  ∀ s : State, s.ready → (s.onHub (Hub.dropDue .blockStart)).settled →
    let r := s.hub.radio
    let x := s.hub.station
    let heat := s.hub.protection.thermal
    let fan := s.hub.protection.fan
    let polls := r.state = .idle ∧ r.held.band = .fm ∧ r.online = true
    let probes := r.online = false ∧ r.state ≠ .off ∧ r.op = none
    let settle (k : OpKind) : Nat :=
      match k with
      | .follow _ _ _ _ _ => 30
      | .seek _ _ start _ _ => if start.band = .fm then 30 else 60
      | .scan _ b _ => if b = .fm then 30 else 60
      | .request _ | .ret | .start | .recovery => if r.held.band = .fm then 30 else 60
    let follows (k : OpKind) : Prop :=
      ∃ level candidates position code asked, k = .follow level candidates position code asked
    ∃ t notices, exec .outputBlockStart s = .next t ∧ s.tells t notices ∧
      (s.hub.clock.running = false →
        notices = [] ∧ t.sources = s.sources ∧ t.hub = { s.hub with due := [] }) ∧
      (s.hub.clock.running = true →
        (∀ i : SourceId, t.sources[i].change = none) ∧
        t.hub.clock.running = true ∧ t.hub.clock.blockPos = 0 ∧
        t.hub.clock.intervalPos = (if 15 ≤ s.hub.clock.intervalPos then 0 else s.hub.clock.intervalPos + 1) ∧
        (Due.intervalEnd ∈ t.hub.due ↔ 15 ≤ s.hub.clock.intervalPos) ∧
        (∀ l : LaneId,
          let y := s.hub.lanes[l]
          t.hub.lanes[l] =
            { y with
              timer :=
                match y.relay with
                | .closing => min 50 (y.timer + 1)
                | .opening => min 20 (y.timer + 1)
                | .open | .closed => y.timer
              ramp := y.ramp.map fun k => min 9 (k + 1)
              retryTimer := if y.fault = .retry then min 2000 (y.retryTimer + 1) else y.retryTimer
              trips := y.trips.map fun age => min 60000 (age + 1) } ∧
          (Due.relayClosed l ∈ t.hub.due ↔ y.relay = .closing ∧ 49 ≤ y.timer) ∧
          (Due.rampEnd l ∈ t.hub.due ↔ ∃ k, y.ramp = some k ∧ 8 ≤ k) ∧
          (Due.relayOpened l ∈ t.hub.due ↔ y.relay = .opening ∧ 19 ≤ y.timer) ∧
          (Due.retryEnd l ∈ t.hub.due ↔ y.fault = .retry ∧ 1999 ≤ y.retryTimer) ∧
          (Due.tripExpiry l ∈ t.hub.due ↔ ∃ age ∈ y.trips, 59999 ≤ age)) ∧
        t.hub.protection =
          { s.hub.protection with
            nextChannel := some 0
            thermal :=
              { heat with
                ceiling :=
                  if heat.ceiling < heat.ceilingTarget then heat.ceiling + 1
                  else if heat.ceilingTarget < heat.ceiling then heat.ceiling - 1 else heat.ceiling
                updateCount := min 100 (heat.updateCount + 1) }
            fan :=
              { fan with
                dutyHeld := fan.dutyHeld && decide (307 ≤ fan.duty), windowPos := min 1000 (fan.windowPos + 1) } } ∧
        (Due.temperature ∈ t.hub.due ↔ 99 ≤ heat.updateCount) ∧ (Due.fanWindow ∈ t.hub.due ↔ 999 ≤ fan.windowPos) ∧
        t.hub.standby =
          { s.hub.standby with
            wakingCount :=
              if s.hub.standby.power = .waking then min 100 (s.hub.standby.wakingCount + 1)
              else s.hub.standby.wakingCount
            delay :=
              match s.hub.standby.power, s.hub.standby.delay with
              | .active, .running n => .running (min 2000 (n + 1))
              | _, d => d } ∧
        (Due.active ∈ t.hub.due ↔ s.hub.standby.power = .waking ∧ 99 ≤ s.hub.standby.wakingCount) ∧
        (Due.powerOnDelayEnd ∈ t.hub.due ↔
          s.hub.standby.power = .active ∧ ∃ n, s.hub.standby.delay = .running n ∧ 1999 ≤ n) ∧
        t.hub.radio =
          { r with
            op := r.op.map fun o =>
              match o.phase with
              | .settle => { o with count := min (settle o.kind) (o.count + 1) }
              | .wait => { o with count := min 30 (o.count + 1) }
              | .status | .blend | .set | .measure | .data => o
            dataCount := if polls then (if 39 ≤ r.dataCount then 0 else r.dataCount + 1) else r.dataCount
            qualityCount := if polls then (if 199 ≤ r.qualityCount then 0 else r.qualityCount + 1) else r.qualityCount
            probeCount := if probes then (if 499 ≤ r.probeCount then 0 else r.probeCount + 1) else r.probeCount } ∧
        (Due.settleEnd ∈ t.hub.due ↔ ∃ k n, r.op = some ⟨k, .settle, n⟩ ∧ ¬ follows k ∧ settle k ≤ n + 1) ∧
        (Due.followSettleEnd ∈ t.hub.due ↔ ∃ k n, r.op = some ⟨k, .settle, n⟩ ∧ follows k ∧ 29 ≤ n) ∧
        (Due.followWaitEnd ∈ t.hub.due ↔ ∃ k n, r.op = some ⟨k, .wait, n⟩ ∧ 29 ≤ n) ∧
        (Due.dataPoll ∈ t.hub.due ↔ polls ∧ 39 ≤ r.dataCount) ∧
        (Due.qualityPoll ∈ t.hub.due ↔ polls ∧ 199 ≤ r.qualityCount) ∧
        (Due.linkProbe ∈ t.hub.due ↔ probes ∧ 499 ≤ r.probeCount) ∧
        t.hub.station =
          { x with
            backOff := x.backOff - 1
            weakRun := if r.state = .idle then x.weakRun.map fun n => min 2000 (n + 1) else x.weakRun } ∧
        (Due.followTrigger ∈ t.hub.due ↔
          polls ∧ r.options.follow = true ∧ x.code ≠ none ∧ x.alternatives ≠ [] ∧
            (∃ n, x.weakRun = some n ∧ 1999 ≤ n) ∧ x.backOff ≤ 1) ∧
        settingsOf t.hub.zones = settingsOf s.hub.zones ∧ t.hub.renderer.tables = s.hub.renderer.tables ∧
        ((∀ i : SourceId, s.sources[i].change = none) →
          notices = [] ∧
          t.hub.clock =
            { s.hub.clock with
              blockPos := 0
              intervalPos := if 15 ≤ s.hub.clock.intervalPos then 0 else s.hub.clock.intervalPos + 1 } ∧
          (∀ i : SourceId,
            let y := s.sources[i]
            let n := y.buffer.length
            let corrects := n ≤ 3 ∨ 61 ≤ n
            let stays := y.arrival = true ∨ y.absence < 7
            let examined : Source :=
              { y with
                arrival := false
                absence := if y.state = .absent ∨ y.arrival = true then 0 else min 8 (y.absence + 1)
                repeatHead := false }
            (y.state ≠ .running ∨ ¬ stays → t.sources[i] = examined) ∧
            (y.state = .running → stays → t.sources[i] =
              { examined with
                repeatHead := decide (n ≤ 3)
                buffer := if 61 ≤ n then y.buffer.drop 1 else y.buffer
                counters := if corrects then { y.counters with slips := bump y.counters.slips } else y.counters
                corrections := if corrects then min 24 (y.corrections + 1) else 0 }) ∧
            (Due.sourceAbsent i ∈ t.hub.due ↔ y.state ≠ .absent ∧ ¬ stays) ∧
            (y.state ≠ .running → Due.slipRestart i ∉ t.hub.due) ∧
            (y.state = .running → stays → (Due.slipRestart i ∈ t.hub.due ↔ corrects ∧ 23 ≤ y.corrections))) ∧
          (∀ z : ZoneId,
            let y := s.hub.zone z
            let goal : Int := if y.mute then -1 else y.volume
            ((∃ k, y.state = .fadingOut k) → t.hub.zone z = { y with gain := max (-1) (y.gain - 4) }) ∧
            (Due.fadeOutEnd z ∈ t.hub.due ↔ (∃ k, y.state = .fadingOut k) ∧ y.gain ≤ 3) ∧
            (y.state = .fadingIn →
              t.hub.zone z =
                { y with gain := if y.gain < goal then min (y.gain + 4) goal else max (y.gain - 4) goal }) ∧
            (Due.fadeInEnd z ∈ t.hub.due ↔ y.state = .fadingIn ∧ goal - 4 ≤ y.gain ∧ y.gain ≤ goal + 4) ∧
            (y.state = .playing →
              let rate : Int := if y.fast then 4 else 1
              let gain := if y.gain < goal then min (y.gain + rate) goal else max (y.gain - rate) goal
              t.hub.zone z = { y with gain := gain, fast := y.fast && decide (gain ≠ goal) }) ∧
            (y.state = .waiting → t.hub.zone z = { y with noSignal := min 3000 (y.noSignal + 1) }) ∧
            (Due.noSignal z ∈ t.hub.due ↔ y.state = .waiting ∧ 2999 ≤ y.noSignal ∧ y.noSignalReported = false) ∧
            (y.state = .off → t.hub.zone z = y)) ∧
          (Due.faultLayout ∈ t.hub.due ↔ s.hub.renderer.faultAdoption = true) ∧
          (let d := s.hub.decoder
           let set : Channels := match d.source with | none => 0 | some i => s.sources[i].channels
           let fills (k : Nat) : Bool :=
             s.hub.renderer.inForce.present.getLsbD k &&
               decide (d.active.mode = .matrix ∨ (d.active.mode = .direct ∧ set &&& 0xC0 = 0))
           let decided (e : Decoder) : Decoder :=
             { e with newMode := false, backfillL := fills 5, backfillR := fills 6 }
           let raw (a b : Int) : Int := if a + b = 0 then 0 else ((a - b) * 32767).tdiv (a + b)
           let lr := raw d.sums.sumL d.sums.sumR
           let cs := raw d.sums.sumC d.sums.sumS
           let dLr := d.dLr + (lr - d.dLr).tdiv 8
           let dCs := d.dCs + (cs - d.dCs).tdiv 8
           (d.active.mode ≠ .matrix ∨ d.newMode = true → t.hub.decoder = decided d) ∧
           (d.active.mode = .matrix → d.newMode = false →
             t.hub.decoder =
               decided { d with
                 dLr := dLr, dCs := dCs, sums := ⟨0, 0, 0, 0⟩, lastRaw := some (lr, cs)
                 steering :=
                   ⟨8192 + (max dCs 0).tdiv 4, 8192 + (max (-dCs) 0).tdiv 4, (max dCs 0).tdiv 2, 32768 + dLr,
                     32768 - dLr⟩ })) ∧
          (let index (gain trim : Int) (ceiling : Int) : Int :=
             if gain < 0 then -1 else max 0 (min 184 (min (gain + trim) ceiling))
           let w := s.hub.renderer
           let main := t.hub.zones.main.gain
           let z2 := t.hub.zones.z2.gain
           let z3 := t.hub.zones.z3.gain
           t.hub.renderer =
             { w with
               governing := w.inForce
               laneDrives := t.hub.renderer.laneDrives
               lineIndex :=
                 ⟨index main w.sub.trim 184, index z2 w.trimZ2 184, index z2 w.trimZ2 184, index z3 w.trimZ3 184,
                   index z3 w.trimZ3 184⟩ } ∧
           ∀ l : LaneId,
             let target := s.hub.lanes[l].assignment
             let ceiling : Int := t.hub.protection.thermal.ceiling
             t.hub.renderer.laneDrives[l].target = target ∧
             t.hub.renderer.laneDrives[l].index =
               (match targetZone target with
                | none => -1
                | some .main => index main (w.trimOf target) ceiling
                | some .z2 => index z2 w.trimZ2 ceiling
                | some .z3 => index z3 w.trimZ3 ceiling))))

/-- R14 to R16, R32 to R35: the end of a measurement interval. A source that becomes ABSENT at the block start that ends
it is not judged. Every other that is not ABSENT and did not enter in it is, 762 to 774 arrivals being good: two bad
intervals in a row make it UNUSABLE(RATE), and the fourth good one in a row brings it from there to PREFILL where its
record allows. The clock, while the main zone's source stays RUNNING, clears partial interval or adjusts its period word
within its limits and judges the interval; where that source leaves RUNNING at this interval end it is in HOLDOVER, and in
HOLDOVER it counts. Each source whose state changes posts SOURCE_STATE, and a zone that plays or fades in one that leaves
RUNNING waits for it in silence (R55), while one whose source stays goes on. (A LAYOUT item that a fade's end applies,
which may send a zone into a fade, is left out.) R35, R31, R36: the eighth interval end in HOLDOVER puts the unit in FREE
at the nominal period word with both counts 0, the reference kept, and posts CLOCK_STATE; nothing else changes. That an
event acts only once it has been found (notes/assumptions/6.md), that the sources are taken before the clock
(notes/assumptions/12.md), that an interval not judged leaves the last interval arrivals (notes/assumptions/23.md) and
that a bad interval in PREFILL or RUNNING after two bad ones in UNUSABLE(NON_AUDIO) counts as the second
(notes/assumptions/35.md) are the model's choice. -/
def Obligations.IntervalEndsAdjustTheClock : Prop :=
  (∀ s : State, s.ready → Due.intervalEnd ∈ s.hub.due → s.hub.clock.running = true →
     let good (n : Nat) : Prop := 762 ≤ n ∧ n ≤ 774
     let gone (i : SourceId) : Prop :=
       Due.sourceAbsent i ∈ s.hub.due ∧ s.sources[i].state ≠ .absent ∧ s.sources[i].absence = 8
     let fails (i : SourceId) : Prop :=
       s.sources[i].entryInterval = false ∧ ¬ good s.sources[i].arrivals ∧ 1 ≤ s.sources[i].badRun
     ∃ t notices, exec .measurementIntervalEnd s = .next t ∧ s.tells t notices ∧
       (∀ i : SourceId,
         let x := s.sources[i]
         t.sources[i].arrivals = 0 ∧ t.sources[i].entryInterval = false ∧ t.sources[i].counters = x.counters ∧
           t.sources[i].adopted = x.adopted ∧ t.sources[i].channels = x.channels ∧
           (gone i → t.sources[i].state = .absent ∧ t.sources[i].lastArrivals = x.lastArrivals ∧
             t.sources[i].badRun = 0 ∧ t.sources[i].goodRun = 0 ∧ t.sources[i].buffer = []) ∧
           (¬ gone i → x.state = .absent ∨ x.entryInterval = true →
             t.sources[i] = { x with arrivals := 0, entryInterval := false }) ∧
           (¬ gone i → x.state ≠ .absent → x.entryInterval = false →
             t.sources[i].lastArrivals = x.arrivals ∧
               (good x.arrivals → t.sources[i].badRun = 0 ∧ t.sources[i].goodRun = min 4 (x.goodRun + 1)) ∧
               (¬ good x.arrivals → t.sources[i].goodRun = 0 ∧ t.sources[i].badRun = min 2 (x.badRun + 1)) ∧
               (x.state = .running ∨ x.state = .prefill →
                 t.sources[i].state = (if ¬ good x.arrivals ∧ 1 ≤ x.badRun then .unusable .rate else x.state)) ∧
               (x.state = .unusable .rate →
                 t.sources[i].state =
                   (if good x.arrivals ∧ x.goodRun = 3 ∧
                      (∀ r, x.adopted = some r → r.nonAudio = false ∧ r.rate = 2) then .prefill
                    else .unusable .rate)) ∧
               (x.state = .unusable .nonAudio → t.sources[i].state = .unusable .nonAudio) ∧
               (t.sources[i].state = x.state → t.sources[i].buffer = x.buffer ∧
                 t.sources[i].corrections = x.corrections) ∧
               (t.sources[i].state ≠ x.state → t.sources[i].buffer = [] ∧ t.sources[i].corrections = 0))) ∧
       (∀ i : SourceId, t.sources[i].state ≠ s.sources[i].state → sourceStateNotice i t.sources[i] ∈ notices) ∧
       ((∀ z, (s.hub.zone z).pending.layout = false) → ∀ (z : ZoneId) (i : SourceId), (s.hub.zone z).current = some i →
         s.sources[i].state = .running → (s.hub.zone z).state = .playing ∨ (s.hub.zone z).state = .fadingIn →
           (gone i ∨ fails i →
             (t.hub.zone z).state = .waiting ∧ (t.hub.zone z).current = some i ∧ (t.hub.zone z).gain = -1 ∧
               (t.hub.zone z).noSignal = 0 ∧ zoneStateNotice z (t.hub.zone z) ∈ notices) ∧
           (¬ gone i → ¬ fails i →
             (t.hub.zone z).state = (s.hub.zone z).state ∧ (t.hub.zone z).current = some i ∧
               (t.hub.zone z).gain = (s.hub.zone z).gain)) ∧
       (∀ i : SourceId, s.hub.clock.reference = some i → s.hub.desiredReference = some i →
         s.sources[i].state = .running → gone i ∨ fails i → s.hub.zones.main.state ≠ .fadingOut .switch →
         s.hub.clock.state = .acquiring ∨ s.hub.clock.state = .locked →
           t.hub.clock = { s.hub.clock with state := .holdover, holdover := 1 }) ∧
       (∀ i : SourceId, s.hub.clock.reference = some i → s.hub.desiredReference = some i →
         s.sources[i].state = .running → ¬ gone i → ¬ fails i →
         s.hub.clock.state = .acquiring ∨ s.hub.clock.state = .locked →
           (s.hub.clock.partialInterval = true → t.hub.clock = { s.hub.clock with partialInterval := false }) ∧
           (s.hub.clock.partialInterval = false → s.sources[i].entryInterval = false →
             let n : Int := s.sources[i].arrivals
             let e : Int := (s.sources[i].buffer.length : Int) - s.sources[i].prefill
             let p : Int := s.hub.clock.period - (n - 768) * 2048 - e * 256
             let close := 767 ≤ n ∧ n ≤ 769 ∧ -2 ≤ e ∧ e ≤ 2
             (t.hub.clock.period : Int) = max 33520878 (min 33587986 p) ∧
               t.hub.clock.lastAdjustment =
                 some ⟨s.sources[i].arrivals, e, decide (p < 33520878 ∨ 33587986 < p)⟩ ∧
               t.hub.clock.reference = some i ∧
               (s.hub.clock.state = .acquiring → close →
                 t.hub.clock.state = (if 7 ≤ s.hub.clock.good then .locked else .acquiring) ∧
                   t.hub.clock.good = min 8 (s.hub.clock.good + 1)) ∧
               (s.hub.clock.state = .locked → close → t.hub.clock.state = .locked) ∧
               (¬ close → t.hub.clock.state = .acquiring ∧ t.hub.clock.good = 0 ∧
                 t.hub.clock.partialInterval = false))) ∧
       (∀ i : SourceId, s.hub.clock.reference = some i → s.hub.desiredReference = some i →
         s.sources[i].state ≠ .running → s.hub.clock.state = .holdover →
           t.hub.clock = { s.hub.clock with holdover := min 8 (s.hub.clock.holdover + 1) } ∧
             (7 ≤ s.hub.clock.holdover → Due.holdoverExpiry ∈ t.hub.due)) ∧
       t.hub.lanes = s.hub.lanes ∧ t.hub.protection = s.hub.protection ∧ t.hub.radio = s.hub.radio ∧
       t.hub.station = s.hub.station ∧ t.hub.standby = s.hub.standby ∧
       settingsOf t.hub.zones = settingsOf s.hub.zones ∧ t.hub.renderer.tables = s.hub.renderer.tables) ∧
  (∀ s : State, s.ready → Due.holdoverExpiry ∈ s.hub.due → s.hub.clock.state = .holdover →
     s.hub.clock.holdover = 8 →
       ∃ t, exec .holdoverExpiry s = .next t ∧ s.tells t [clockStateNotice t.hub.clock] ∧ t.sources = s.sources ∧
         t.hub = { s.hub with
           clock :=
             { s.hub.clock with
               state := .free, period := 33554432, good := 0, holdover := 0, partialInterval := false }
           due := s.hub.due.filter fun d => decide (d ≠ .holdoverExpiry) })

/-! ### The Zone Router (chapter 3) -/

/-- R58, R59, R60: the volume requests write within the limits, reply CLAMPED where they bring a value into them, and
post one ZONE_VOLUME where a value changes; the current gain index and every other field stay. R61: SET_MUTE writes the
mute flag of its zone; a change posts ZONE_MUTE and, in PLAYING, sets the fast ramp flag. -/
def Obligations.VolumeAndMuteAreWritten : Prop :=
  (∀ (s : State) (p : Port) (w value : Word) (z : ZoneId), s.listens p → s.delivered → w.toNat = z.code →
     let x := s.hub.zone z
     (let v := min value.toNat x.maxVolume
      let y := { x with volume := v }
      ∃ t, exec (.setVolume p w value) s = .next t ∧
        s.answers t p (s.ports.get p) (if x.maxVolume < value.toNat then .clamped else .ok) (.volume v)
          (if v = x.volume then [] else [zoneVolumeNotice z y]) ∧
        t.sources = s.sources ∧ t.hub = s.hub.setZone z y) ∧
     (let sum : Int := x.volume + value.toInt
      let v := (max 0 (min (x.maxVolume : Int) sum)).toNat
      let y := { x with volume := v }
      ∃ t, exec (.stepVolume p w value) s = .next t ∧
        s.answers t p (s.ports.get p) (if sum < 0 ∨ (x.maxVolume : Int) < sum then .clamped else .ok) (.volume v)
          (if v = x.volume then [] else [zoneVolumeNotice z y]) ∧
        t.sources = s.sources ∧ t.hub = s.hub.setZone z y) ∧
     (let m := min value.toNat 184
      let v := min x.volume m
      let y := { x with maxVolume := m, volume := v }
      ∃ t, exec (.setMaxVolume p w value) s = .next t ∧
        s.answers t p (s.ports.get p) (if 184 < value.toNat then .clamped else .ok) (.maxVolume m v)
          (if v = x.volume ∧ m = x.maxVolume then [] else [zoneVolumeNotice z y]) ∧
        t.sources = s.sources ∧ t.hub = s.hub.setZone z y)) ∧
  (∀ (s : State) (p : Port) (w code : Word) (z : ZoneId) (flag : Bool), s.listens p → s.delivered →
     w.toNat = z.code → (code = 0 ∧ flag = false) ∨ (code = 1 ∧ flag = true) →
       let x := s.hub.zone z
       ∃ t, exec (.setMute p w code) s = .next t ∧
         s.answers t p (s.ports.get p) .ok (.mute flag) (if flag = x.mute then [] else [zoneMuteNotice z flag]) ∧
         t.sources = s.sources ∧
         t.hub =
           (if flag = x.mute then s.hub
             else s.hub.setZone z { x with mute := flag, fast := x.fast || decide (x.state = .playing) }))

/-- R51, R52, R96, R97: SET_LIPSYNC writes the request, at most 500 ms; where it changes, the grants are recomputed in the
order DIST, MAIN, Z2, Z3 out of 196,608 cells, which together they never exceed, and each zone takes its own: a new one
posts LIPSYNC_GRANTED, is adopted at once by a silent zone, and sends an audible one into FADING_OUT with purpose
RECONFIGURE with a LIPSYNC item pending. It is CLAMPED where the request was brought down or the zone, being on, is
granted less. The order in which the zones adopt new grants (notes/assumptions/8.md), and that the line of a zone which
gives cells up is replaced at once (notes/assumptions/40.md), are the model's choice. -/
def Obligations.SetLipsyncRecomputesTheGrants : Prop :=
  ∀ (s : State) (p : Port) (w ms : Word) (z : ZoneId), s.listens p → s.delivered → w.toNat = z.code →
    let x := s.hub.zone z
    let n := min ms.toNat 500
    ∃ t notices, exec (.setLipsync p w ms) s = .next t ∧
      s.answers t p (s.ports.get p)
        (if 500 < ms.toNat ∨ (x.power = true ∧ (t.hub.zone z).lipGranted < n) then .clamped else .ok)
        (.lipsync n (t.hub.zone z).lipGranted
          ⟨t.hub.zones.main.lipGranted, t.hub.zones.z2.lipGranted, t.hub.zones.z3.lipGranted⟩) notices ∧
      t.sources = s.sources ∧ (t.hub.zone z).settings = { x.settings with lipRequested := n } ∧
      (∀ y, y ≠ z → (t.hub.zone y).settings = (s.hub.zone y).settings) ∧
      (n = x.lipRequested → t.hub = s.hub ∧ notices = []) ∧
      (n ≠ x.lipRequested →
        t.hub.granted ∧ { x with lipRequested := n }.tookGrant (t.hub.zone z) z notices ∧
          ∀ y, y ≠ z → (s.hub.zone y).tookGrant (t.hub.zone y) y notices) ∧
      t.hub.clock = s.hub.clock ∧ t.hub.decoder = s.hub.decoder ∧ t.hub.renderer = s.hub.renderer ∧
      t.hub.lanes = s.hub.lanes ∧ t.hub.protection = s.hub.protection ∧ t.hub.radio = s.hub.radio ∧
      t.hub.station = s.hub.station ∧ t.hub.standby = s.hub.standby

/-- R45, R46: ZONE_POWER on. A part that is not ACTIVE refuses it; a zone that is on stays as it is; one in OFF takes its
selected source as its current source, with its new grant in effect, and fades in from silence, or waits, as that source
is RUNNING or not; and one fading out to OFF goes on fading, with purpose SWITCH. R47: ZONE_POWER off, in every power
state. A zone that is off stays as it is; one that plays or fades in fades out with purpose POWER_OFF from its present
gain; one that fades out takes that purpose; one that waits is OFF at once; and its grant falls to 0. Either way R96, R97:
the grants are recomputed and each zone takes its own; R41: ZONE_STATE is posted, after ZONE_SOURCE where the current
source changes, and the lines that R41 names hold zeros; R70: the main zone's new source is handed to the decoder, and
taken away at OFF; R30, R31: the clock follows the main zone; R133: the tuner holder is derived again; R110, R111: every
lane follows its closing conditions, with one LANE_STATE for each relay that changes, last. (Where a fault input is
asserted a relay that would close trips at once, which may reach the layout and so the zones; the clauses behind that
premise leave it out.) The order of the reactions (notes/assumptions/9.md, 8.md) and of the lanes
(notes/assumptions/73.md), and what a line holds after its length changes and from when (notes/assumptions/14.md, 40.md),
are the model's choice. -/
def Obligations.ZonePowerStartsAndStopsAZone : Prop :=
  (∀ (s : State) (p : Port) (w : Word) (z : ZoneId), s.listens p → s.delivered → w.toNat = z.code →
     let x := s.hub.zone z
     (s.hub.standby.power ≠ .active →
       ∃ t, exec (.zonePowerOn p w 1) s = .next t ∧
         s.answersOnly t p .standby (.powerRefused s.hub.standby.power)) ∧
     (s.hub.standby.power = .active →
       ∃ t notices, exec (.zonePowerOn p w 1) s = .next t ∧
         s.answers t p (s.ports.get p) .ok
           (.zonePower (t.hub.zone z).power (t.hub.zone z).state (t.hub.zone z).current) notices ∧
         t.sources = s.sources ∧ (x.power = true → t.hub = s.hub ∧ notices = []) ∧
         (x.power = false → s.hub.derivesHolder t.hub notices) ∧
         (x.state = .off ∨ (∃ k, x.state = .fadingOut k) → x.power = false →
           (t.hub.zone z).settings = { x.settings with power := true }) ∧
         (∀ y, y ≠ z → (t.hub.zone y).settings = (s.hub.zone y).settings) ∧
         ((∀ l : LaneId, s.hub.lanes[l].faultInput = false) → x.power = false →
           (x.state = .off →
             (t.hub.zone z).current = some x.selected ∧ (t.hub.zone z).gain = -1 ∧ (t.hub.zone z).noSignal = 0 ∧
               (t.hub.zone z).state = (if s.sources[x.selected].state = .running then .fadingIn else .waiting) ∧
               (t.hub.zone z).lipEffect = (t.hub.zone z).lipGranted ∧
               (t.hub.zone z).line = List.replicate (48 * (t.hub.zone z).lipGranted) Frame.zero ∧
               ((t.hub.zone z).lipGranted ≠ x.lipGranted → lipsyncNotice z (t.hub.zone z) ∈ notices) ∧
               (∃ before after, notices = before ++ zoneSourceNotice z (some x.selected) :: after ∧
                 zoneStateNotice z (t.hub.zone z) ∈ after ∧
                 (z = .main →
                   ∀ n ∈ s.hub.decoder.adoptionNotices t.hub.decoder s.hub.decoder.itemPending, n ∈ after)) ∧
               (z = .main →
                 s.hub.decoder.handedOver t.hub.decoder x.selected s.sources[x.selected].channels ∧
                   s.hub.renderer.cleared t.hub.renderer) ∧
               (z ≠ .main → t.hub.decoder = s.hub.decoder ∧ t.hub.renderer = s.hub.renderer)) ∧
           ((∃ k, x.state = .fadingOut k) →
             { x with power := true, state := .fadingOut .switch }.tookGrant (t.hub.zone z) z notices ∧
               zoneStateNotice z (t.hub.zone z) ∈ notices ∧ t.hub.decoder = s.hub.decoder ∧
               t.hub.renderer = s.hub.renderer) ∧
           (x.state = .off ∨ (∃ k, x.state = .fadingOut k) →
             t.hub.granted ∧ (∀ y, y ≠ z → (s.hub.zone y).tookGrant (t.hub.zone y) y notices) ∧
               s.hub.relaysFollow t.hub ∧ (∃ before, notices = before ++ s.hub.relayNotices t.hub) ∧
               (z = .main → s.hub.followsMain t.hub s.sources notices) ∧
               (z ≠ .main → t.hub.clock = s.hub.clock))) ∧
         t.hub.renderer.tables = s.hub.renderer.tables ∧ t.hub.protection = s.hub.protection ∧
         t.hub.radio = { s.hub.radio with holder := t.hub.radio.holder } ∧ t.hub.station = s.hub.station ∧
         t.hub.standby = s.hub.standby)) ∧
  (∀ (s : State) (p : Port) (w : Word) (z : ZoneId), s.listens p → s.delivered → w.toNat = z.code →
     let x := s.hub.zone z
     ∃ t notices, exec (.zonePowerOff p w) s = .next t ∧
       s.answers t p (s.ports.get p) .ok (.zonePower false (t.hub.zone z).state (t.hub.zone z).current) notices ∧
       t.sources = s.sources ∧ (x.power = false → t.hub = s.hub ∧ notices = []) ∧
       (x.power = true → s.hub.derivesHolder t.hub notices) ∧
       (t.hub.zone z).settings = { x.settings with power := false } ∧
       (∀ y, y ≠ z → (t.hub.zone y).settings = (s.hub.zone y).settings) ∧
       (x.power = true → x.state ≠ .off → (∀ l : LaneId, s.hub.lanes[l].faultInput = false) →
         (t.hub.zone z).lipGranted = 0 ∧ zoneStateNotice z (t.hub.zone z) ∈ notices ∧
           (x.state = .playing ∨ x.state = .fadingIn →
             { x with power := false, state := .fadingOut .powerOff, noSignal := 0, noSignalReported := false }.tookGrant
               (t.hub.zone z) z notices) ∧
           ((∃ k, x.state = .fadingOut k) →
             { x with power := false, state := .fadingOut .powerOff }.tookGrant (t.hub.zone z) z notices) ∧
           (x.state = .waiting →
             (t.hub.zone z).state = .off ∧ (t.hub.zone z).current = none ∧ (t.hub.zone z).gain = -1 ∧
               (t.hub.zone z).noSignal = 0 ∧ (t.hub.zone z).noSignalReported = false ∧ (t.hub.zone z).lipEffect = 0 ∧
               (t.hub.zone z).line = [] ∧
               (x.lipGranted ≠ 0 → lipsyncNotice z (t.hub.zone z) ∈ notices) ∧
               (z = .main →
                 t.hub.decoder = { s.hub.decoder with source := none } ∧ s.hub.renderer.cleared t.hub.renderer)) ∧
           (x.state ≠ .waiting ∨ z ≠ .main → t.hub.decoder = s.hub.decoder ∧ t.hub.renderer = s.hub.renderer) ∧
           t.hub.granted ∧ (∀ y, y ≠ z → (s.hub.zone y).tookGrant (t.hub.zone y) y notices) ∧
           s.hub.relaysFollow t.hub ∧ (∃ before, notices = before ++ s.hub.relayNotices t.hub) ∧
           (z = .main → s.hub.followsMain t.hub s.sources notices) ∧ (z ≠ .main → t.hub.clock = s.hub.clock)) ∧
       t.hub.renderer.tables = s.hub.renderer.tables ∧ t.hub.protection = s.hub.protection ∧
       t.hub.radio = { s.hub.radio with holder := t.hub.radio.holder } ∧ t.hub.station = s.hub.station ∧
       t.hub.standby = s.hub.standby)

/-- R45, R48, R49: SELECT_SOURCE. For a zone that is on it is refused unless the part is ACTIVE; for a zone still fading
out to OFF it is refused; in OFF it is stored. A zone that plays another source, or fades in, fades out with purpose
SWITCH from its present gain with its current source kept; one that fades out takes that purpose; one that waits takes the
source at once and fades in, or waits anew, unless it waits for that source already. R41: a change of the selected source
or the state posts one ZONE_STATE, after ZONE_SOURCE where the current source changes. R70, R41: a main zone that waits
hands its new source to the decoder, and its distance lines hold zeros; R30, R31: the clock follows the main zone's new
source or purpose; R133: the tuner holder is derived again. No other notice is posted. That a line which is emptied holds
zeros (notes/assumptions/14.md) and the order of the reactions (notes/assumptions/9.md) are the model's choice. -/
def Obligations.SelectSourceSwitches : Prop :=
  ∀ (s : State) (p : Port) (w v : Word) (z : ZoneId) (i : SourceId), s.listens p → s.delivered →
    w.toNat = z.code → v.toNat = i.val →
      let x := s.hub.zone z
      let fades := x.state = .fadingIn ∨ (x.state = .playing ∧ ¬ (x.current = some i ∧ x.selected = i))
      let turns := ∃ k, x.state = .fadingOut k
      let takes := x.state = .waiting ∧ x.current ≠ some i
      (x.power = true → s.hub.standby.power ≠ .active →
        ∃ t, exec (.selectSource p w v) s = .next t ∧
          s.answersOnly t p .standby (.powerRefused s.hub.standby.power)) ∧
      (x.power = false → x.state ≠ .off →
        ∃ t, exec (.selectSource p w v) s = .next t ∧ s.answersOnly t p .refusedState .none) ∧
      (x.power = false ∧ x.state = .off ∨ x.power = true ∧ s.hub.standby.power = .active →
        ∃ t notices, exec (.selectSource p w v) s = .next t ∧
          s.answers t p (s.ports.get p) .ok (.zoneSelect i (t.hub.zone z).current (t.hub.zone z).state) notices ∧
          t.sources = s.sources ∧ s.hub.derivesHolder t.hub notices ∧
          (∀ y, y ≠ z → t.hub.zone y = s.hub.zone y) ∧
          (x.state = .off → t.hub.zone z = { x with selected := i }) ∧
          (x.state = .playing → x.current = some i → x.selected = i → t.hub.zone z = x) ∧
          (fades →
            t.hub.zone z =
              { x with selected := i, state := .fadingOut .switch, noSignal := 0, noSignalReported := false }) ∧
          (turns → t.hub.zone z = { x with selected := i, state := .fadingOut .switch }) ∧
          (x.state = .waiting → x.current = some i → t.hub.zone z = { x with selected := i }) ∧
          (takes →
            t.hub.zone z =
              { x with
                selected := i
                current := some i
                state := if s.sources[i].state = .running then .fadingIn else .waiting
                gain := -1
                noSignal := 0
                noSignalReported := false
                line := List.replicate (48 * x.lipEffect) Frame.zero }) ∧
          (z = .main → takes →
            s.hub.decoder.handedOver t.hub.decoder i s.sources[i].channels ∧ s.hub.renderer.cleared t.hub.renderer) ∧
          (z ≠ .main ∨ ¬ takes → t.hub.decoder = s.hub.decoder ∧ t.hub.renderer = s.hub.renderer) ∧
          (z = .main → fades ∨ turns ∨ takes → s.hub.followsMain t.hub s.sources notices) ∧
          (z ≠ .main ∨ ¬ (fades ∨ turns ∨ takes) → t.hub.clock = s.hub.clock) ∧
          (∃ zone, notices =
              zone ++ s.hub.clockNotices t.hub ++
                (if t.hub.radio.holder = s.hub.radio.holder then [] else [radioHolderNotice t.hub.radio.holder]) ∧
            (takes →
              zone =
                zoneSourceNotice z (some i) ::
                  (s.hub.decoder.adoptionNotices t.hub.decoder s.hub.decoder.itemPending ++
                    [zoneStateNotice z (t.hub.zone z)])) ∧
            (fades → zone = [zoneStateNotice z (t.hub.zone z)]) ∧
            (¬ takes → ¬ fades →
              zone =
                (if x.selected = i ∧ x.state ≠ .fadingOut .powerOff ∧ x.state ≠ .fadingOut .reconfigure then []
                 else [zoneStateNotice z (t.hub.zone z)]))) ∧
          t.hub.lanes = s.hub.lanes ∧ t.hub.protection = s.hub.protection ∧ t.hub.station = s.hub.station ∧
          t.hub.standby = s.hub.standby ∧ t.hub.radio = { s.hub.radio with holder := t.hub.radio.holder } ∧
          t.hub.renderer.tables = s.hub.renderer.tables)

/-- R41, R53, R54: FADE_OUT_END at a gain index of −1. A SWITCH makes the selected source current, a RECONFIGURE keeps the
current one, and both fade in from −1 where it is RUNNING or wait; POWER_OFF ends in OFF with no current source. A pending
LIPSYNC item is applied, the set becomes empty and the zone's line holds zeros, and for the main zone the distance lines
with it. R53, R70, R71: a main zone that switches hands its new source to the decoder, which loses its source at OFF, and
a pending DECODE item adopts the derived pair; R30, R31: the clock follows the main zone's new source and state; R74:
layout and back-fill are decided for the block that begins. R41, R54: ZONE_SOURCE is posted where the current source
changes, then DECODE_ACTIVE where the active pair does, then ZONE_STATE, then CLOCK_STATE where the reference changes, and
nothing else. Another zone changes only where R98 takes cells from it, and for Zones 2 and 3 no other block does. R87:
where the main zone holds a LAYOUT item, the derived layout is in force from then on, the item is no longer pending, the
distance lines have their new lengths, and LAYOUT_EFFECTIVE and, where it applies, LAYOUT_INVALID are posted. The main
zone arrives where R54 says, but a fade-in that the adoption brings a new grant is at once a fade-out with purpose
RECONFIGURE (R97). R43, R57: FADE_IN_END at the target puts the zone in PLAYING with the fast ramp flag clear and posts
ZONE_STATE; the 3,000th block start of a wait posts one ZONE_NO_SIGNAL. Each changes its zone alone. The model's choices
behind it: when the event acts (notes/assumptions/6.md), the order of the reactions (9.md), the lines (14.md, 40.md), the
layout that governs (21.md), the order of the items and an item they raise (39.md, 61.md), item pending clear in the
DECODE_ACTIVE and the LAYOUT_EFFECTIVE of an adoption (41.md, 63.md), back-fill with no decode source after POWER_OFF
(43.md) and the number of ZONE_STATE notices (62.md). -/
def Obligations.FadesAndWaitsEnd : Prop :=
  (∀ (s : State) (z : ZoneId) (k : Purpose), s.ready → Due.fadeOutEnd z ∈ s.hub.due →
     (s.hub.zone z).state = .fadingOut k → (s.hub.zone z).gain = -1 → (s.hub.zone z).pending.layout = false →
     (z ≠ .main → (s.hub.zone z).pending.decode = false) →
       let x := s.hub.zone z
       ∃ t notices, exec (.fadeOutEnd z) s = .next t ∧ s.tells t notices ∧ t.sources = s.sources ∧
         (t.hub.zone z).gain = -1 ∧ (t.hub.zone z).pending = ⟨false, false, false⟩ ∧
         (t.hub.zone z).lipGranted = x.lipGranted ∧ (t.hub.zone z).noSignal = 0 ∧
         (t.hub.zone z).noSignalReported = false ∧
         (t.hub.zone z).lipEffect =
           (if x.pending.lipsync = true ∨ k = .powerOff then x.lipGranted else x.lipEffect) ∧
         (t.hub.zone z).line = List.replicate (48 * (t.hub.zone z).lipEffect) Frame.zero ∧
         (k = .switch →
           (t.hub.zone z).current = some x.selected ∧
             (t.hub.zone z).state = (if s.sources[x.selected].state = .running then .fadingIn else .waiting)) ∧
         (k = .reconfigure →
           (t.hub.zone z).current = x.current ∧
             (t.hub.zone z).state =
               (if ∃ i : SourceId, x.current = some i ∧ s.sources[i].state = .running then .fadingIn else .waiting)) ∧
         (k = .powerOff → (t.hub.zone z).current = none ∧ (t.hub.zone z).state = .off) ∧
         (∀ y, y ≠ z → t.hub.zone y = s.hub.zone y ∨
           (x.pending.lipsync = true ∧ (s.hub.zone y).squeezed (t.hub.zone y))) ∧
         (z ≠ .main →
           t.hub.clock = s.hub.clock ∧ t.hub.decoder = s.hub.decoder ∧ t.hub.renderer = s.hub.renderer) ∧
         (z = .main →
           s.hub.followsMain t.hub s.sources notices ∧ s.hub.decodesAfterFade t.hub s.sources k ∧
             s.hub.renderer.cleared t.hub.renderer ∧ t.hub.blockDecided s.sources) ∧
         notices =
           (if k = .switch ∧ x.current ≠ some x.selected then [zoneSourceNotice z (some x.selected)] else []) ++
             s.hub.fadeDecodeNotices t.hub k ++ [zoneStateNotice z (t.hub.zone z)] ++ s.hub.clockNotices t.hub ∧
         settingsOf t.hub.zones = settingsOf s.hub.zones ∧ t.hub.lanes = s.hub.lanes ∧
         t.hub.protection = s.hub.protection ∧ t.hub.radio = s.hub.radio ∧ t.hub.station = s.hub.station ∧
         t.hub.standby = s.hub.standby) ∧
  (∀ (s : State) (k : Purpose), s.ready → Due.fadeOutEnd .main ∈ s.hub.due →
     s.hub.zones.main.state = .fadingOut k → s.hub.zones.main.gain = -1 → s.hub.zones.main.pending.layout = true →
       let x := s.hub.zones.main
       let r := s.hub.renderer
       let arrives : ZoneState :=
         match k with
         | .switch => if s.sources[x.selected].state = .running then .fadingIn else .waiting
         | .reconfigure =>
           if ∃ i : SourceId, x.current = some i ∧ s.sources[i].state = .running then .fadingIn else .waiting
         | .powerOff => .off
       ∃ t notices, exec (.fadeOutEnd .main) s = .next t ∧ s.tells t notices ∧ t.sources = s.sources ∧
         (let q := t.hub.renderer
          q.inForce = r.derived ∧ q.derived = r.derived ∧ q.itemPending = false ∧
            q.faultAdoption = r.faultAdoption ∧ q.tables = r.tables ∧ q.clips = r.clips ∧
            (∀ p : Position, q.lines[p] = List.replicate r.derived.delays[p] 0 ∧ q.filters[p] = 0) ∧
            q.subLine = List.replicate r.derived.subDelay 0) ∧
         (let y := t.hub.zones.main
          let fades := arrives = .fadingIn ∧ y.lipGranted ≠ x.lipGranted
          y.gain = -1 ∧
            y.current = (match k with | .switch => some x.selected | .reconfigure => x.current | .powerOff => none) ∧
            (fades → y.state = .fadingOut .reconfigure ∧
              (y.pending = ⟨true, false, false⟩ ∨ (y.pending = ⟨false, false, false⟩ ∧ y.lipEffect = y.lipGranted))) ∧
            (¬ fades → y.state = arrives ∧ y.pending = ⟨false, false, false⟩) ∧
            (y.lipGranted ≠ x.lipGranted → lipsyncNotice .main y ∈ notices) ∧
            (r.derived = r.inForce → y.lipGranted = x.lipGranted)) ∧
         (r.derived.cells ≠ r.inForce.cells → t.hub.granted) ∧
         (∀ y, y ≠ .main → (s.hub.zone y).tookGrant (t.hub.zone y) y notices) ∧
         s.hub.followsMain t.hub s.sources notices ∧ s.hub.decodesAfterFade t.hub s.sources k ∧
         t.hub.blockDecided s.sources ∧
         (∃ rest, notices =
             (if k = .switch ∧ x.current ≠ some x.selected then [zoneSourceNotice .main (some x.selected)] else []) ++
               s.hub.fadeDecodeNotices t.hub k ++ rest ∧
           r.tellsAdoption t.hub.renderer rest ∧ zoneStateNotice .main t.hub.zones.main ∈ rest) ∧
         settingsOf t.hub.zones = settingsOf s.hub.zones ∧ t.hub.lanes = s.hub.lanes ∧
         t.hub.protection = s.hub.protection ∧ t.hub.radio = s.hub.radio ∧ t.hub.station = s.hub.station ∧
         t.hub.standby = s.hub.standby) ∧
  (∀ (s : State) (z : ZoneId), s.ready →
     (Due.fadeInEnd z ∈ s.hub.due → (s.hub.zone z).state = .fadingIn →
       (s.hub.zone z).gain = (if (s.hub.zone z).mute then (-1 : Int) else (s.hub.zone z).volume) →
         ∃ t, exec (.fadeInEnd z) s = .next t ∧ s.tells t [zoneStateNotice z (t.hub.zone z)] ∧
           t.sources = s.sources ∧
           t.hub = { s.hub with
             zones := s.hub.zones.set z { s.hub.zone z with state := .playing, fast := false }
             due := t.hub.due }) ∧
     (Due.noSignal z ∈ s.hub.due → (s.hub.zone z).state = .waiting → (s.hub.zone z).noSignal = 3000 →
       (s.hub.zone z).noSignalReported = false →
         ∃ t, exec (.zoneNoSignal z) s = .next t ∧
           s.tells t [zoneNoSignalNotice z (s.hub.zone z).current] ∧ t.sources = s.sources ∧
           t.hub = { s.hub with
             zones := s.hub.zones.set z { s.hub.zone z with noSignalReported := true }
             due := t.hub.due }))

/-! ### The Surround Decoder and the Speaker Renderer (chapters 4 and 5) -/

/-- R81, R69, R70, R50: SET_DECODE_MODE writes the mode and the option. Where neither changes nothing is done, and where
there is no decode source they are stored; otherwise the derived pair is the table's. A derived pair that differs from the
active one is adopted at once in OFF and WAITING, and sends an audible main zone into FADING_OUT with purpose RECONFIGURE
with a DECODE item pending. R71: a change of mode puts the steering at zero and the bass filters at 0. R81: the request
posts one DECODE_ACTIVE, with the pair that is active until then; R71: an adoption made at once posts that of the new pair
after it (their number: notes/assumptions/68.md), and a main zone sent into a fade its ZONE_STATE. That the request's
notice comes first, with item pending set where an item is raised (notes/assumptions/31.md), that the adoption's shows it
clear (notes/assumptions/41.md) and that a pair adopted at once governs the rest of the block in progress
(notes/assumptions/50.md) are the model's choice. -/
def Obligations.SetDecodeModeDerivesTheMode : Prop :=
  ∀ (s : State) (p : Port) (w v : Word) (m : RequestedMode) (option : Bool), s.listens p → s.delivered →
    (w = 0 ∧ m = .auto) ∨ (w = 1 ∧ m = .direct) ∨ (w = 2 ∧ m = .matrix) ∨ (w = 3 ∧ m = .fold2) →
    (v = 0 ∧ option = false) ∨ (v = 1 ∧ option = true) →
      let d := s.hub.decoder
      ∃ t notices, exec (.setDecodeMode p w v) s = .next t ∧
        s.answers t p (s.ports.get p) .ok
          (.decodeMode ⟨m, option, t.hub.decoder.active, t.hub.decoder.derived, t.hub.decoder.itemPending⟩) notices ∧
        t.sources = s.sources ∧ t.hub.decoder.requested = m ∧ t.hub.decoder.autoMatrix = option ∧
        (m = d.requested → option = d.autoMatrix → t.hub = s.hub ∧ notices = []) ∧
        (¬ (m = d.requested ∧ option = d.autoMatrix) →
          (d.source = none →
            t.hub = { s.hub with decoder := { d with requested := m, autoMatrix := option } } ∧
              notices = [decodeActiveNotice { d with requested := m, autoMatrix := option }]) ∧
          ∀ i, d.source = some i →
            let multi := decide (s.sources[i].channels &&& 0xFC ≠ 0)
            let told (item : Bool) : Notice :=
              decodeActiveNotice { d with requested := m, autoMatrix := option, itemPending := item }
            let pair : DecodePair :=
              match m, multi with
              | .auto, false => if option then ⟨.matrix, .auto⟩ else ⟨.direct, .auto⟩
              | .auto, true => ⟨.direct, .auto⟩
              | .direct, _ => ⟨.direct, .asRequested⟩
              | .matrix, false => ⟨.matrix, .asRequested⟩
              | .matrix, true => ⟨.direct, .matrixNeedsStereo⟩
              | .fold2, false => ⟨.direct, .fold2NeedsMultichannel⟩
              | .fold2, true => ⟨.fold2, .asRequested⟩
            t.hub.decoder.derived = pair ∧
              (pair = d.active ∨ d.itemPending = true →
                t.hub.zones = s.hub.zones ∧ t.hub.decoder.active = d.active ∧
                  t.hub.decoder.itemPending = d.itemPending ∧ t.hub.renderer = s.hub.renderer ∧
                  notices = [told d.itemPending]) ∧
              (pair ≠ d.active → d.itemPending = false →
                (s.hub.zones.main.state = .off ∨ s.hub.zones.main.state = .waiting →
                  t.hub.zones = s.hub.zones ∧ d.adopts t.hub.decoder pair ∧ t.hub.decoder.itemPending = false ∧
                    (∀ q : Position,
                      t.hub.renderer.filters[q] =
                        (if pair.mode = d.active.mode then s.hub.renderer.filters[q] else 0)) ∧
                    notices = [told true, decodeActiveNotice t.hub.decoder]) ∧
                (s.hub.zones.main.state = .playing ∨ s.hub.zones.main.state = .fadingIn →
                  t.hub.zones.main.state = .fadingOut .reconfigure ∧ t.hub.zones.main.gain = s.hub.zones.main.gain ∧
                    t.hub.zones.main.pending = { s.hub.zones.main.pending with decode := true } ∧
                    t.hub.decoder.active = d.active ∧ t.hub.decoder.itemPending = true ∧
                    t.hub.renderer = s.hub.renderer ∧
                    notices = [told true, zoneStateNotice .main t.hub.zones.main]) ∧
                ((∃ k, s.hub.zones.main.state = .fadingOut k) →
                  t.hub.zones.main =
                      { s.hub.zones.main with pending := { s.hub.zones.main.pending with decode := true } } ∧
                    t.hub.decoder.active = d.active ∧ t.hub.decoder.itemPending = true ∧
                    t.hub.renderer = s.hub.renderer ∧ notices = [told true]))) ∧
        t.hub.zones.z2 = s.hub.zones.z2 ∧ t.hub.zones.z3 = s.hub.zones.z3 ∧ t.hub.clock = s.hub.clock ∧
        t.hub.renderer = { s.hub.renderer with filters := t.hub.renderer.filters } ∧ t.hub.lanes = s.hub.lanes ∧
        t.hub.protection = s.hub.protection ∧ t.hub.radio = s.hub.radio ∧ t.hub.station = s.hub.station ∧
        t.hub.standby = s.hub.standby

/-- R84: the derivation of an effective layout. A position is effectively present when its entry says so and a lane
assigned to it is not latched; the bass-managed set holds the present SMALL positions while there is a SUB; the
crossover's coefficient is in force while that set is not empty; every present output is delayed (R85) by the distance to
the farthest, in samples rounded to the nearest, and the farthest by none; and the record is valid with FL or FR. -/
def Obligations.LayoutDerivation : Prop :=
  ∀ (entries : Vector PositionEntry 7) (sub : SubEntry) (crossover : Nat) (lanes : Vector Lane 11),
    let l := deriveLayoutOf entries sub crossover lanes
    (∀ p : Position,
      (l.present.getLsbD p.val = true ↔
        entries[p].present = true ∧
          ∃ k : LaneId, lanes[k].assignment.val = p.val + 1 ∧ lanes[k].fault ≠ .latchedOc ∧
            lanes[k].fault ≠ .latchedDc) ∧
      (l.bass.getLsbD p.val = true ↔
        l.present.getLsbD p.val = true ∧ entries[p].small = true ∧ sub.present = true)) ∧
    l.sub = sub.present ∧ (l.valid = true ↔ l.present.getLsbD 0 = true ∨ l.present.getLsbD 1 = true) ∧
    (l.crossover = none ↔ ∀ p : Position, l.bass.getLsbD p.val = false) ∧
    (∀ p : Position, l.bass.getLsbD p.val = true →
      (crossover = 0 → l.coefficient = 256) ∧ (crossover = 1 → l.coefficient = 341) ∧
        (crossover = 2 → l.coefficient = 426) ∧ (crossover = 3 → l.coefficient = 511) ∧
        (crossover = 4 → l.coefficient = 637)) ∧
    ∃ far : Nat,
      (∀ p : Position, l.present.getLsbD p.val = true → entries[p].distance ≤ far ∧
        l.delays[p] = ((far - entries[p].distance) * 48000 + 17150) / 34300) ∧
      (sub.present = true → sub.distance ≤ far ∧ l.subDelay = ((far - sub.distance) * 48000 + 17150) / 34300) ∧
      ((sub.present = true ∧ sub.distance = far) ∨
        (∃ p : Position, l.present.getLsbD p.val = true ∧ entries[p].distance = far) ∨
        (sub.present = false ∧ far = 0 ∧ ∀ p : Position, l.present.getLsbD p.val = false))

/-- R86, R99 to R102: the layout requests write their entry, brought into its ranges, and derive the layout anew where
something but a trim changes. SET_SPEAKER 7 and 8 write a trim alone; SMALL at FL or FR without a SUB is refused; a SUB
that goes makes FL and FR LARGE; a crossover already held changes nothing. R86, R50, R87: a derivation raises a LAYOUT
item where the layout derived then differs from the one in force and none is pending, which is adopted at once in OFF and
WAITING, and sends an audible main zone into FADING_OUT with purpose RECONFIGURE. (Where a fault input is asserted a relay
that would close trips at once and the layout follows the lanes; the derived layout of a SET_SPEAKER is stated otherwise.)
The order of the layout's and the lanes' reactions (notes/assumptions/51.md), that a derivation raises an item while a
fault-caused adoption waits (notes/assumptions/52.md), that a derivation posts its own LAYOUT_EFFECTIVE before the
adoption it leads to, with item pending set (notes/assumptions/31.md), and that an adoption's shows it clear
(notes/assumptions/63.md), are the model's choice. -/
def Obligations.LayoutRequestsWriteTheTable : Prop :=
  ∀ (s : State) (p : Port), s.listens p → s.delivered →
    let r := s.hub.renderer
    let near := fun d : Word => max 30 (min 1800 d.toNat)
    let level := fun t : Word => max (-24 : Int) (min 24 t.toInt)
    (∀ pos there small dist trim : Word,
      (pos = 7 →
        ∃ t, exec (.setSpeaker p pos there small dist trim) s = .next t ∧
          s.answers t p (s.ports.get p) (if level trim = trim.toInt then .ok else .clamped)
            (.zoneTrim (level trim) (layoutFigures s.hub)) [] ∧
          t.sources = s.sources ∧ t.hub = { s.hub with renderer := { r with trimZ2 := level trim } }) ∧
      (pos = 8 →
        ∃ t, exec (.setSpeaker p pos there small dist trim) s = .next t ∧
          s.answers t p (s.ports.get p) (if level trim = trim.toInt then .ok else .clamped)
            (.zoneTrim (level trim) (layoutFigures s.hub)) [] ∧
          t.sources = s.sources ∧ t.hub = { s.hub with renderer := { r with trimZ3 := level trim } }) ∧
      ∀ (i : Position) (here tiny : Bool), pos.toNat = i.val → (there = if here then 1 else 0) →
        (small = if tiny then 1 else 0) →
          (i.val ≤ 1 → tiny = true → r.sub.present = false →
            ∃ t, exec (.setSpeaker p pos there small dist trim) s = .next t ∧
              s.answersOnly t p .refusedState .none) ∧
          (¬ (i.val ≤ 1 ∧ tiny = true ∧ r.sub.present = false) →
            let e : PositionEntry := ⟨here, tiny, near dist, level trim⟩
            ∃ t notices, exec (.setSpeaker p pos there small dist trim) s = .next t ∧
              s.answers t p (s.ports.get p)
                (if near dist = dist.toNat ∧ level trim = trim.toInt then .ok else .clamped)
                (.speaker e (layoutFigures t.hub)) notices ∧
              t.sources = s.sources ∧ t.hub.renderer.tables = { r.tables with entries := r.entries.set i e } ∧
              (here = r.entries[i].present → tiny = r.entries[i].small → near dist = r.entries[i].distance →
                t.hub = { s.hub with renderer := { r with entries := r.entries.set i e } } ∧ notices = []) ∧
              (¬ (here = r.entries[i].present ∧ tiny = r.entries[i].small ∧ near dist = r.entries[i].distance) →
                (∀ l : LaneId, s.hub.lanes[l].faultInput = false) →
                  s.hub.raisesLayout t.hub (deriveLayoutOf (r.entries.set i e) r.sub r.crossover s.hub.lanes)
                    notices) ∧
              t.hub.clock = s.hub.clock ∧ t.hub.decoder = s.hub.decoder ∧ t.hub.protection = s.hub.protection ∧
              t.hub.radio = s.hub.radio ∧ t.hub.station = s.hub.station ∧ t.hub.standby = s.hub.standby ∧
              settingsOf t.hub.zones = settingsOf s.hub.zones)) ∧
    (∀ (there dist trim : Word) (here : Bool), (there = if here then 1 else 0) →
      let e : SubEntry := ⟨here, near dist, level trim⟩
      ∃ t notices, exec (.setSub p there dist trim) s = .next t ∧
        s.answers t p (s.ports.get p) (if near dist = dist.toNat ∧ level trim = trim.toInt then .ok else .clamped)
          (.sub e t.hub.renderer.entries[0].small t.hub.renderer.entries[1].small (layoutFigures t.hub)) notices ∧
        t.sources = s.sources ∧ t.hub.renderer.sub = e ∧
        (∀ i : Position, t.hub.renderer.entries[i] =
          (if here = false ∧ i.val ≤ 1 then { r.entries[i] with small := false } else r.entries[i])) ∧
        t.hub.renderer.trimZ2 = r.trimZ2 ∧ t.hub.renderer.trimZ3 = r.trimZ3 ∧ t.hub.renderer.crossover = r.crossover ∧
        (¬ (here = r.sub.present ∧ near dist = r.sub.distance) →
          s.hub.raisesLayout t.hub (deriveLayoutOf t.hub.renderer.entries e r.crossover s.hub.lanes) notices) ∧
        (here = r.sub.present → near dist = r.sub.distance →
          t.hub = { s.hub with renderer := { r with sub := e, entries := t.hub.renderer.entries } } ∧ notices = []) ∧
        t.hub.clock = s.hub.clock ∧ t.hub.decoder = s.hub.decoder ∧ t.hub.lanes = s.hub.lanes ∧
        t.hub.protection = s.hub.protection ∧ t.hub.radio = s.hub.radio ∧ t.hub.station = s.hub.station ∧
        t.hub.standby = s.hub.standby ∧ settingsOf t.hub.zones = settingsOf s.hub.zones) ∧
    ∀ setting : Word, setting.toNat ≤ 4 →
      ∃ t notices, exec (.setCrossover p setting) s = .next t ∧
        s.answers t p (s.ports.get p) .ok
          (.crossover setting.toNat ([256, 341, 426, 511, 637].getD setting.toNat 0) (layoutFigures t.hub)) notices ∧
        t.sources = s.sources ∧ t.hub.renderer.tables = { r.tables with crossover := setting.toNat } ∧
        (setting.toNat = r.crossover → t.hub = s.hub ∧ notices = []) ∧
        (setting.toNat ≠ r.crossover →
          s.hub.raisesLayout t.hub (deriveLayoutOf r.entries r.sub setting.toNat s.hub.lanes) notices) ∧
        t.hub.clock = s.hub.clock ∧ t.hub.decoder = s.hub.decoder ∧ t.hub.lanes = s.hub.lanes ∧
        t.hub.protection = s.hub.protection ∧ t.hub.radio = s.hub.radio ∧ t.hub.station = s.hub.station ∧
        t.hub.standby = s.hub.standby ∧ settingsOf t.hub.zones = settingsOf s.hub.zones

/-- R86, R87, R88: FAULT_LAYOUT_ADOPTION puts the whole derived layout in force, for the output block that begins: lines
whose length changes hold zeros, filters start or end at 0, and LAYOUT_EFFECTIVE and, where it applies, LAYOUT_INVALID are
posted; a derived layout in force already posts nothing. A pending LAYOUT item stays pending. That an event acts only once
it has been found, and not before, is the model's choice (notes/assumptions/6.md). -/
def Obligations.FaultLayoutIsAdopted : Prop :=
  ∀ s : State, s.ready → Due.faultLayout ∈ s.hub.due → s.hub.renderer.faultAdoption = true →
    ∃ t notices, exec .faultLayoutAdoption s = .next t ∧ s.tells t notices ∧ t.sources = s.sources ∧
      s.hub.renderer.adopted t.hub.renderer s.hub.renderer.derived ∧
      s.hub.renderer.tellsAdoption t.hub.renderer notices ∧
      (s.hub.renderer.derived = s.hub.renderer.inForce → notices = [] ∧ t.hub.zones = s.hub.zones) ∧
      t.hub.renderer.governing = s.hub.renderer.derived ∧
      t.hub.renderer.derived = s.hub.renderer.derived ∧ t.hub.renderer.faultAdoption = false ∧
      t.hub.renderer.itemPending = s.hub.renderer.itemPending ∧
      t.hub.renderer.tables = s.hub.renderer.tables ∧ t.hub.clock = s.hub.clock ∧ t.hub.lanes = s.hub.lanes ∧
      t.hub.protection = s.hub.protection ∧ t.hub.radio = s.hub.radio ∧ t.hub.station = s.hub.station ∧
      t.hub.standby = s.hub.standby ∧ settingsOf t.hub.zones = settingsOf s.hub.zones

/-! ### The Lane Supervisor (chapter 6) -/

/-- R107, R108: ASSIGN_LANE. A target whose occupancy by the other lanes, assigned or pending, has reached its capacity is
refused TARGET_TAKEN. Otherwise the target held already ends a pending change; in OPEN it becomes the assignment at once,
and the relay closes where its conditions then hold and no fault input stands; and in every other relay state it becomes
the pending assignment, which starts the opening sequence of a CLOSED lane and sends a CLOSING lane into OPENING. R108:
LANE_STATE is posted for a change of the assignment, of the pending one or of the relay. R86: an assignment that changes
at once derives the layout anew, and raises a LAYOUT item where it then differs from the one in force. That LANE_STATE
comes before the layout's notices (notes/assumptions/45.md), that a derivation posts its own LAYOUT_EFFECTIVE before the
adoption it leads to, with item pending set (notes/assumptions/31.md), and that an adoption's shows it clear
(notes/assumptions/63.md), are the model's choice. -/
def Obligations.AssignLaneByRelayState : Prop :=
  ∀ (s : State) (p : Port) (w v : Word) (l : LaneId) (g : Fin 12), s.listens p → s.delivered →
    w.toNat = l.val → v.toNat = g.val →
      let x := s.hub.lanes[l]
      let others := (List.finRange 11).filter fun k => decide (k ≠ l)
      let occupied :=
        (others.filter fun k => decide (s.hub.lanes[k].assignment = g)).length +
          (others.filter fun k => decide (s.hub.lanes[k].pending = some g)).length
      let capacity := if g.val ≤ 2 then 2 else 1
      (g ≠ 0 → capacity ≤ occupied →
        ∃ t, exec (.assignLane p w v) s = .next t ∧ s.answersOnly t p .targetTaken .none) ∧
      (g = 0 ∨ occupied < capacity →
        ∃ t notices, exec (.assignLane p w v) s = .next t ∧
          s.answers t p (s.ports.get p) .ok
            (.laneAssigned t.hub.lanes[l].assignment t.hub.lanes[l].pending t.hub.lanes[l].relay) notices ∧
          t.sources = s.sources ∧ (∀ k : LaneId, k ≠ l → t.hub.lanes[k] = s.hub.lanes[k]) ∧
          (g = x.assignment → t.hub = s.hub.setLane l { x with pending := none } ∧
            notices = (if x.pending = none then [] else [laneStateNotice l { x with pending := none }])) ∧
          (g ≠ x.assignment → x.relay = .open → x.faultInput = false →
            t.hub.lanes[l] =
              (if ((s.hub.setLane l { x with assignment := g }).closing l).all then
                { x with assignment := g, relay := .closing, timer := 0 }
               else { x with assignment := g }) ∧
              ∃ mid,
                notices =
                  laneStateNotice l { x with assignment := g } ::
                    (mid ++ (if t.hub.lanes[l].relay = .open then [] else [laneStateNotice l t.hub.lanes[l]])) ∧
                s.hub.raisesLayout t.hub
                  (deriveLayoutOf s.hub.renderer.entries s.hub.renderer.sub s.hub.renderer.crossover t.hub.lanes) mid) ∧
          (g ≠ x.assignment → x.relay = .closed →
            t.hub = s.hub.setLane l
              { x with pending := some g, ramp := if x.ramp.isSome then x.ramp else some 0 } ∧
            notices = (if x.pending = some g then [] else [laneStateNotice l t.hub.lanes[l]])) ∧
          (g ≠ x.assignment → x.relay = .closing →
            t.hub = s.hub.setLane l { x with pending := some g, relay := .opening, timer := 0, ramp := none } ∧
              notices = [laneStateNotice l t.hub.lanes[l]]) ∧
          (g ≠ x.assignment → x.relay = .opening → t.hub = s.hub.setLane l { x with pending := some g } ∧
            notices = (if x.pending = some g then [] else [laneStateNotice l t.hub.lanes[l]])) ∧
          t.hub.clock = s.hub.clock ∧ t.hub.decoder = s.hub.decoder ∧ t.hub.protection = s.hub.protection ∧
          t.hub.radio = s.hub.radio ∧ t.hub.station = s.hub.station ∧ t.hub.standby = s.hub.standby ∧
          settingsOf t.hub.zones = settingsOf s.hub.zones ∧ t.hub.renderer.tables = s.hub.renderer.tables)

/-- R114, R116: how a lane leaves a fault. CLEAR_LANE_FAULT returns a latched or retrying lane to OK with its history and
DC window empty, keeps them in OK, and sets the counters to 0 where asked; RETRY_END at a retry timer of 2,000 returns the
lane to OK with its history kept; TRIP_HISTORY_EXPIRY drops the trips aged 60,000 blocks. A lane that becomes OK posts
LANE_FAULT, and its closing conditions are examined, with LANE_STATE where its relay then changes (R110); one that was
latched first has the layout derived anew for its fault, to be adopted at the next output block start, or at once while
the Sample Clock Unit is stopped (R86). (A fault input still asserted trips a relay that closes again; the fields it would
rewrite are stated without it.) That an event acts only once it has been found, and not before (notes/assumptions/6.md),
that a derivation's LAYOUT_EFFECTIVE comes before the adoption it leads to while the unit is stopped
(notes/assumptions/31.md), that a retry's end stands before an expiry found with it (notes/assumptions/53.md) and that the
LANE_FAULT of a cleared lane shows its counter at 0 (notes/assumptions/55.md) are the model's choice. -/
def Obligations.LanesLeaveTheirFaults : Prop :=
  ∀ (s : State) (l : LaneId), s.ready →
    let x := s.hub.lanes[l]
    (∀ (p : Port) (w code : Word) (counters : Bool), s.listens p → w.toNat = l.val →
      (code = if counters then 1 else 0) →
        let y := if counters then { x with clips := 0, tripCount := 0 } else x
        ∃ t notices, exec (.clearLaneFault p w code) s = .next t ∧
          s.answers t p (s.ports.get p) .ok
            (.laneFault t.hub.lanes[l].fault t.hub.lanes[l].relay t.hub.lanes[l].clips t.hub.lanes[l].tripCount)
            notices ∧
          t.sources = s.sources ∧ (∀ k : LaneId, k ≠ l → t.hub.lanes[k] = s.hub.lanes[k]) ∧
          (x.fault = .ok → t.hub = s.hub.setLane l y ∧ notices = []) ∧
          (x.fault ≠ .ok → x.faultInput = false →
            t.hub.lanes[l].fault = .ok ∧ t.hub.lanes[l].retryTimer = 0 ∧ t.hub.lanes[l].trips = [] ∧
              t.hub.lanes[l].dcWindow = [] ∧ t.hub.lanes[l].dcSum = 0 ∧ t.hub.lanes[l].clips = y.clips ∧
              t.hub.lanes[l].tripCount = y.tripCount ∧ t.hub.lanes[l].assignment = x.assignment ∧
              (let z : Lane := { y with fault := .ok, retryTimer := 0, trips := [], dcWindow := [], dcSum := 0 }
               let hold := ((s.hub.setLane l z).closing l).all
               t.hub.lanes[l] = z.follows hold ∧
                 ∃ mid,
                   notices =
                     laneFaultNotice l z ::
                       (mid ++ (if t.hub.lanes[l].relay = x.relay then [] else [laneStateNotice l t.hub.lanes[l]])) ∧
                   (x.fault = .retry → mid = [] ∧ t.hub.renderer = s.hub.renderer ∧ t.hub.zones = s.hub.zones) ∧
                   (x.fault ≠ .retry → s.hub.derivesForFault t.hub mid))) ∧
          t.hub.clock = s.hub.clock ∧ t.hub.decoder = s.hub.decoder ∧ t.hub.protection = s.hub.protection ∧
          t.hub.radio = s.hub.radio ∧ t.hub.station = s.hub.station ∧ t.hub.standby = s.hub.standby ∧
          settingsOf t.hub.zones = settingsOf s.hub.zones ∧ t.hub.renderer.tables = s.hub.renderer.tables) ∧
    (Due.retryEnd l ∈ s.hub.due → x.fault = .retry → x.retryTimer = 2000 → x.relay = .open → x.faultInput = false →
      ∃ t, exec (.retryEnd l) s = .next t ∧ t.sources = s.sources ∧
        s.tells t
          (laneFaultNotice l { x with fault := .ok } ::
            (if ((s.hub.setLane l { x with fault := .ok }).closing l).all then [laneStateNotice l t.hub.lanes[l]]
             else [])) ∧
        t.hub = { s.hub with
          lanes := s.hub.lanes.set l
            { x with
              fault := .ok
              retryTimer := 0
              relay := if ((s.hub.setLane l { x with fault := .ok }).closing l).all then .closing else .open
              timer := if ((s.hub.setLane l { x with fault := .ok }).closing l).all then 0 else x.timer }
          due := t.hub.due }) ∧
    (Due.tripExpiry l ∈ s.hub.due →
      ∃ t, exec (.tripHistoryExpiry l) s = .next t ∧ s.tells t [] ∧ t.sources = s.sources ∧
        t.hub = { s.hub with
          lanes := s.hub.lanes.set l { x with trips := x.trips.filter fun age => decide (age < 60000) }
          due := t.hub.due })

/-- R109, R110, R111: the relay sequence. The 50th block start in CLOSING closes the relay; the ninth after the opening
sequence began puts a CLOSED relay in OPENING with its timer at 0; the 20th in OPENING puts it in OPEN, where a pending
assignment is applied, the output is zero, and the relay closes again where its conditions hold (and no fault input stands
asserted). An applied assignment derives the layout anew, which raises a LAYOUT item where it then differs from the one in
force (R86). Each posts LANE_STATE, the last after the renderer's notices of an applied assignment
(notes/assumptions/45.md) and once more where the relay closes again. That order, that an event acts only once it has been
found, and not before (notes/assumptions/6.md), that a derivation posts its own LAYOUT_EFFECTIVE before the adoption it
leads to, with item pending set (notes/assumptions/31.md), and that an adoption's shows it clear
(notes/assumptions/63.md), are the model's choice. -/
def Obligations.RelaysCloseAndOpen : Prop :=
  ∀ (s : State) (l : LaneId), s.ready →
    let x := s.hub.lanes[l]
    (Due.relayClosed l ∈ s.hub.due → x.relay = .closing → x.timer = 50 →
      let y := { x with relay := .closed, timer := 0, ramp := none }
      ∃ t, exec (.relayClosed l) s = .next t ∧ s.tells t [laneStateNotice l y] ∧ t.sources = s.sources ∧
        t.hub = { s.hub with lanes := s.hub.lanes.set l y, due := t.hub.due }) ∧
    (Due.rampEnd l ∈ s.hub.due → x.relay = .closed → x.ramp = some 9 →
      let y := { x with relay := .opening, timer := 0, ramp := none }
      ∃ t, exec (.releaseRampEnd l) s = .next t ∧ s.tells t [laneStateNotice l y] ∧ t.sources = s.sources ∧
        t.hub = { s.hub with lanes := s.hub.lanes.set l y, due := t.hub.due }) ∧
    (Due.relayOpened l ∈ s.hub.due → x.relay = .opening → x.timer = 20 → x.faultInput = false →
      let y : Lane :=
        { x with relay := .open, timer := 0, ramp := none, assignment := x.pending.getD x.assignment, pending := none }
      ∃ t notices, exec (.relayOpened l) s = .next t ∧ s.tells t notices ∧ t.sources = s.sources ∧
        t.hub.lanes = s.hub.lanes.set l
          (if ((s.hub.setLane l y).closing l).all then { y with relay := .closing } else y) ∧
        (x.pending = none →
          t.hub.renderer = { s.hub.renderer with laneOut := s.hub.renderer.laneOut.set l 0 } ∧
            t.hub.zones = s.hub.zones) ∧
        (∃ before, (x.pending = none → before = []) ∧
          (x.pending ≠ none →
            s.hub.raisesLayout t.hub
              (deriveLayoutOf s.hub.renderer.entries s.hub.renderer.sub s.hub.renderer.crossover t.hub.lanes) before) ∧
          notices = before ++ laneStateNotice l y ::
            (if ((s.hub.setLane l y).closing l).all then [laneStateNotice l { y with relay := .closing }] else [])) ∧
        t.hub.renderer.laneOut[l] = 0 ∧ t.hub.clock = s.hub.clock ∧ t.hub.decoder = s.hub.decoder ∧
        t.hub.protection = s.hub.protection ∧ t.hub.radio = s.hub.radio ∧ t.hub.station = s.hub.station ∧
        t.hub.standby = s.hub.standby ∧ settingsOf t.hub.zones = settingsOf s.hub.zones ∧
        t.hub.renderer.tables = s.hub.renderer.tables)

/-- R113, R111: a fault input. Its assertion while the relay is not OPEN is a trip: the relay opens at once with zero
output and its pending assignment applied, the trip joins the history and is counted, and the lane is in RETRY, or
LATCHED_OC at the third entry, or stays LATCHED_DC. LANE_STATE and LANE_FAULT are posted; a pending assignment applied
before them derives the layout for a controller, and a lane that latches has it derived for its fault after them, to be
adopted at the next output block start, or at once while the Sample Clock Unit is stopped (R86). Every other change of the
level changes nothing but the level. That the row carries the level, and that a release is given by it too, is the model's
choice (notes/assumptions/16.md); so is that LANE_STATE comes before LANE_FAULT (notes/assumptions/29.md) and after the
renderer's notices of an applied pending assignment (notes/assumptions/45.md), that a derivation posts its own
LAYOUT_EFFECTIVE before the adoption it leads to, with item pending set (notes/assumptions/31.md), and that an adoption's
shows it clear (notes/assumptions/63.md). Where such a trip latches a lane with a pending assignment, the report of the
assignment is derived first, with the lane as it was before the fault state changes, and may raise a LAYOUT item that fades
the main zone; the derivation for the fault follows it: this order is the model's choice (notes/assumptions/77.md). -/
def Obligations.FaultInputTripsTheLane : Prop :=
  ∀ (s : State) (l : LaneId) (level : Bool), s.ready →
    let x := s.hub.lanes[l]
    (level = false ∨ x.faultInput = true ∨ x.relay = .open →
      ∃ t, exec (.faultInputAsserted l level) s = .next t ∧ s.tells t [] ∧ t.sources = s.sources ∧
        t.hub = s.hub.setLane l { x with faultInput := level }) ∧
    (level = true → x.faultInput = false → x.relay ≠ .open →
      ∃ t notices, exec (.faultInputAsserted l level) s = .next t ∧ s.tells t notices ∧ t.sources = s.sources ∧
        (let trips := (x.trips.filter fun age => decide (age < 60000)) ++ [0]
         t.hub.lanes = s.hub.lanes.set l
           { x with
             relay := .open
             timer := 0
             ramp := none
             assignment := x.pending.getD x.assignment
             pending := none
             trips := trips
             tripCount := bump x.tripCount
             retryTimer := 0
             fault := if x.fault = .latchedDc then .latchedDc else if 3 ≤ trips.length then .latchedOc else .retry
             faultInput := true }) ∧
        (let y := t.hub.lanes[l]
         let r := s.hub.renderer
         let fresh := deriveLayoutOf r.entries r.sub r.crossover t.hub.lanes
         ∃ before after,
           notices = before ++ laneStateNotice l y :: laneFaultNotice l y :: after ∧
           (x.pending = none → before = []) ∧ (y.fault ≠ .latchedOc → after = []) ∧
           (y.fault ≠ .latchedOc → x.pending = none →
             t.hub.renderer = { r with laneOut := r.laneOut.set l 0 } ∧ t.hub.zones = s.hub.zones) ∧
           (y.fault ≠ .latchedOc → x.fault ≠ .latchedOc → x.pending ≠ none →
             s.hub.raisesLayout t.hub fresh before) ∧
           (y.fault = .latchedOc → x.pending = none → s.hub.derivesForFault t.hub after) ∧
           (y.fault = .latchedOc → x.pending ≠ none →
             let opened : Lane :=
               { x with
                 relay := .open, timer := 0, ramp := none, assignment := x.pending.getD x.assignment, pending := none
                 faultInput := true }
             ∃ mid : Hub,
               s.hub.raisesLayout mid (deriveLayoutOf r.entries r.sub r.crossover (s.hub.lanes.set l opened)) before ∧
               mid.clock = s.hub.clock ∧ mid.renderer.tables = r.tables ∧
               mid.renderer.faultAdoption = r.faultAdoption ∧ mid.derivesForFault t.hub after ∧
               (mid.zones.main.state ≠ .playing → mid.zones.main.state ≠ .fadingIn →
                 t.hub.zones.main.state = mid.zones.main.state)) ∧
           (y.fault = .latchedOc →
             t.hub.renderer.derived = fresh ∧ (s.hub.clock.running = true → t.hub.renderer.faultAdoption = true))) ∧
        t.hub.renderer.laneOut[l] = 0 ∧ t.hub.clock = s.hub.clock ∧ t.hub.decoder = s.hub.decoder ∧
        t.hub.protection = s.hub.protection ∧ t.hub.radio = s.hub.radio ∧ t.hub.station = s.hub.station ∧
        t.hub.standby = s.hub.standby ∧ settingsOf t.hub.zones = settingsOf s.hub.zones ∧
        t.hub.renderer.tables = s.hub.renderer.tables)

/-- R115, R118, R125: a conversion, of the channel that the rotation of the output block converts next while the Sample
Clock Unit runs, writes its channel's code and hands the rotation on, from channel 0 to 13 once a block. A lane's reading
joins its DC window, of at most 256 readings, and a full window whose sum leaves −25,600 to 25,600 latches the lane; a
latched lane takes none. A lane that latches posts LANE_FAULT, has the layout derived anew for its fault, to be adopted at
the next output block start (R86), and leaves CLOSED or CLOSING. The supply goes LOW below 2,600, with every relay OPEN at
once, and GOOD again at the 500th conversion in a row of 2,700 or more, when every lane in OPEN is examined (R110; no
fault input standing asserted); either posts SUPPLY and then LANE_STATE for each relay that changes (R128). That a
conversion out of its turn, which the part does not make, changes nothing (notes/assumptions/17.md), and the order of the
lanes (notes/assumptions/73.md), are the model's choice. -/
def Obligations.ConversionsAreJudged : Prop :=
  ∀ (s : State) (c : SenseChannel) (code : BitVec 12), s.ready →
    (s.hub.clock.running = false ∨ s.hub.protection.nextChannel ≠ some c →
      ∃ t, exec (.senseConversion c code) s = .next t ∧ s.tells t [] ∧ t.sources = s.sources ∧ t.hub = s.hub) ∧
    (s.hub.clock.running = true → s.hub.protection.nextChannel = some c →
      ∃ t notices, exec (.senseConversion c code) s = .next t ∧ s.tells t notices ∧ t.sources = s.sources ∧
        t.hub.protection =
          { s.hub.protection with
            sense := s.hub.protection.sense.set c (some code)
            nextChannel := t.hub.protection.nextChannel
            supply := t.hub.protection.supply } ∧
        t.hub.protection.nextChannel.map Fin.val = (if c.val < 13 then some (c.val + 1) else none) ∧
        (∀ l : LaneId, l.val = c.val →
          let x := s.hub.lanes[l]
          let r : Int := (code.toNat : Int) - 2048
          let full := x.dcWindow.length = 256
          let window := (if full then x.dcWindow.drop 1 else x.dcWindow) ++ [r]
          let sum := x.dcSum + r - (if full then x.dcWindow.headD 0 else 0)
          t.hub.protection.supply = s.hub.protection.supply ∧
            (∀ k : LaneId, k ≠ l → t.hub.lanes[k] = s.hub.lanes[k]) ∧
            (x.fault = .latchedOc ∨ x.fault = .latchedDc → t.hub.lanes[l] = x) ∧
            (x.fault = .ok ∨ x.fault = .retry → x.dcWindow.length ≤ 256 →
              t.hub.lanes[l].dcWindow = window ∧ t.hub.lanes[l].dcSum = sum ∧
                (window.length = 256 → 25600 < sum ∨ sum < -25600 →
                  t.hub.lanes[l].fault = .latchedDc ∧ t.hub.lanes[l].retryTimer = 0 ∧
                    t.hub.lanes[l].relay = (if x.relay = .closing then .opening else x.relay) ∧
                    (x.relay = .closed → t.hub.lanes[l].ramp = (if x.ramp.isSome then x.ramp else some 0)) ∧
                    ∃ mid,
                      notices =
                        laneFaultNotice l t.hub.lanes[l] ::
                          (mid ++ (if x.relay = .closing then [laneStateNotice l t.hub.lanes[l]] else [])) ∧
                      s.hub.derivesForFault t.hub mid) ∧
                (window.length < 256 ∨ (-25600 ≤ sum ∧ sum ≤ 25600) →
                  t.hub.lanes[l] = { x with dcWindow := window, dcSum := sum } ∧
                    t.hub.renderer = s.hub.renderer ∧ notices = []))) ∧
        (c.val = 11 ∨ c.val = 12 → t.hub.lanes = s.hub.lanes ∧ t.hub.protection.supply = s.hub.protection.supply ∧
          t.hub.renderer = s.hub.renderer ∧ notices = []) ∧
        (c.val = 13 →
          let v := s.hub.protection.supply
          let told := supplyNotice t.hub.protection.supply code
          (v.low = false → 2600 ≤ code.toNat →
            t.hub.protection.supply = v ∧ t.hub.lanes = s.hub.lanes ∧ notices = []) ∧
            (v.low = false → code.toNat < 2600 →
              t.hub.protection.supply = ⟨true, 0⟩ ∧ ∃ relays, notices = told :: relays ∧ s.hub.opensAll t.hub relays) ∧
            (v.low = true → code.toNat < 2700 →
              t.hub.protection.supply = ⟨true, 0⟩ ∧ t.hub.lanes = s.hub.lanes ∧ notices = []) ∧
            (v.low = true → 2700 ≤ code.toNat → v.goodRun < 499 →
              t.hub.protection.supply = ⟨true, v.goodRun + 1⟩ ∧ t.hub.lanes = s.hub.lanes ∧ notices = []) ∧
            (v.low = true → 2700 ≤ code.toNat → 499 ≤ v.goodRun →
              t.hub.protection.supply.low = false ∧
                ((∀ l : LaneId, s.hub.lanes[l].faultInput = false) →
                  s.hub.relaysFollow t.hub ∧ notices = told :: s.hub.relayNotices t.hub ∧
                    t.hub.renderer = s.hub.renderer ∧ t.hub.zones = s.hub.zones))) ∧
        t.hub.clock = s.hub.clock ∧ t.hub.decoder = s.hub.decoder ∧ t.hub.radio = s.hub.radio ∧
        t.hub.station = s.hub.station ∧ t.hub.standby = s.hub.standby ∧
        settingsOf t.hub.zones = settingsOf s.hub.zones ∧ t.hub.renderer.tables = s.hub.renderer.tables)

/-- R119 to R122: a temperature update, at an update count of 100: both temperatures from their codes, the working
temperature the larger of those present and 10 more during a stall, the ceiling target, the thermal trip and the requested
duty that follow. R120, R121, R128: THERMAL is posted where the target or the trip changes; the start of a trip then opens
every relay at once, with a pending assignment applied; its end has every lane examined (no fault input standing
asserted), so that one in OPEN whose closing conditions hold again enters CLOSING (R110); and each relay that changes
posts LANE_STATE, after THERMAL. That an event acts only once it has been found, and not before (notes/assumptions/6.md),
that it stands before the end of a fan window found with it (notes/assumptions/54.md) and the order of the lanes
(notes/assumptions/73.md) are the model's choice. -/
def Obligations.TemperatureUpdateJudges : Prop :=
  ∀ s : State, s.ready → Due.temperature ∈ s.hub.due → s.hub.protection.thermal.updateCount = 100 →
    let v := s.hub.protection
    let heat : Option (BitVec 12) → Option Int := fun code => code.map fun c => ((c.toNat * 165 / 4096 : Nat) : Int) - 40
    let stall : Int := if v.fan.stall then 10 else 0
    let working : Option Int :=
      match heat v.sense[11], heat v.sense[12] with
      | some a, some b => some (max a b + stall)
      | some a, none => some (a + stall)
      | none, some b => some (b + stall)
      | none, none => none
    ∃ t notices, exec .temperatureUpdate s = .next t ∧ s.tells t notices ∧ t.sources = s.sources ∧
      s.hub.judged t.hub working notices ∧
      (let u := t.hub.protection
       u.thermal.t1 = heat v.sense[11] ∧ u.thermal.t2 = heat v.sense[12] ∧
         u.thermal.updateCount = 0 ∧ u.thermal.ceiling = v.thermal.ceiling ∧ u.sense = v.sense ∧
         u.supply = v.supply ∧ u.fan = { v.fan with requested := u.fan.requested }) ∧
      t.hub.clock = s.hub.clock ∧ t.hub.decoder = s.hub.decoder ∧ t.hub.radio = s.hub.radio ∧
      t.hub.station = s.hub.station ∧ t.hub.standby = s.hub.standby ∧
      settingsOf t.hub.zones = settingsOf s.hub.zones ∧ t.hub.renderer.tables = s.hub.renderer.tables

/-- R123, R124: the fan. FAN_DUTY_ADOPTION puts the requested duty in force at the lowest point of the drive's period:
where a sample period has found it; while the unit runs and none has, nothing happens; and while the unit is stopped the
row stands for the crystal periods up to it; a tachometer pulse is counted while the Sample Clock Unit runs; the end of a
window of 1,000 blocks moves its pulses, takes a window that held its duty with fewer than 5 pulses as a stall window,
declares a stall at the third in a row and clears one at a window of 5 or more; a stall declared or cleared posts
FAN_STALL, and the working temperature is judged anew with or without its 10 degrees, with what R120 to R122 then do. What
FAN_DUTY_ADOPTION does where it has not been found is the model's choice (notes/assumptions/10.md); so is that the
window's end acts once found (notes/assumptions/6.md), after a temperature update found with it (notes/assumptions/54.md),
and the order of the lanes (notes/assumptions/73.md). -/
def Obligations.FanEventsCount : Prop :=
  ∀ s : State, s.ready →
    let f := s.hub.protection.fan
    (∃ t, exec .fanDutyAdoption s = .next t ∧ s.tells t [] ∧ t.sources = s.sources ∧
      t.hub = { s.hub with
        protection := { s.hub.protection with fan := t.hub.protection.fan }
        due := s.hub.due.filter fun d => decide (d ≠ .fanDuty) } ∧
      (Due.fanDuty ∈ s.hub.due → t.hub.protection.fan = { f with duty := f.requested }) ∧
      (Due.fanDuty ∉ s.hub.due → s.hub.clock.running = true → t.hub.protection.fan = f) ∧
      (Due.fanDuty ∉ s.hub.due → s.hub.clock.running = false → f.pwm ≤ 1023 →
        t.hub.protection.fan = { f with duty := f.requested, pwm := 0, rising := true })) ∧
    (∃ t, exec .fanTachPulse s = .next t ∧ s.tells t [] ∧ t.sources = s.sources ∧
      t.hub = { s.hub with
        protection := { s.hub.protection with
          fan := { f with pulses := if s.hub.clock.running then bump f.pulses else f.pulses } } }) ∧
    (Due.fanWindow ∈ s.hub.due → f.windowPos = 1000 →
      ∃ t notices, exec .fanWindowEnd s = .next t ∧ s.tells t notices ∧ t.sources = s.sources ∧
        (let run := if f.dutyHeld = true ∧ f.pulses < 5 then min 3 (f.stallRun + 1) else 0
         let stall := if f.stall then decide (f.pulses < 5) else decide (run = 3)
         t.hub.protection.fan =
             { f with
               windowPos := 0
               lastPulses := f.pulses
               pulses := 0
               dutyHeld := true
               stallRun := run
               stall := stall
               requested := t.hub.protection.fan.requested } ∧
           (stall = f.stall → notices = [] ∧
             t.hub = { s.hub with
               protection := { s.hub.protection with fan := t.hub.protection.fan }
               due := t.hub.due } ∧
             t.hub.protection.fan.requested = f.requested) ∧
           (stall ≠ f.stall →
             let v := s.hub.protection.thermal
             let shift : Int := if stall then 10 else 0
             let working : Option Int :=
               match v.t1, v.t2 with
               | some a, some b => some (max a b + shift)
               | some a, none => some (a + shift)
               | none, some b => some (b + shift)
               | none, none => none
             t.hub.protection.thermal =
                 { v with
                   working := working
                   ceilingTarget := t.hub.protection.thermal.ceilingTarget
                   trip := t.hub.protection.thermal.trip } ∧
               ∃ rest, notices = fanStallNotice t.hub.protection.fan :: rest ∧ s.hub.judged t.hub working rest)) ∧
        t.hub.protection.sense = s.hub.protection.sense ∧ t.hub.protection.supply = s.hub.protection.supply ∧
        t.hub.clock = s.hub.clock ∧ t.hub.decoder = s.hub.decoder ∧ t.hub.radio = s.hub.radio ∧
        t.hub.station = s.hub.station ∧ t.hub.standby = s.hub.standby ∧
        settingsOf t.hub.zones = settingsOf s.hub.zones ∧ t.hub.renderer.tables = s.hub.renderer.tables)

/-! ### The Radio Unit (chapter 7) -/

/-- R134: the checks of TUNE, SEEK, SCAN, RECALL_PRESET and CANCEL_RADIO in their order: a part that is not ACTIVE, a zone
that is off or has not TUN selected, a zone that is not the holder, and, but for CANCEL_RADIO, a link that is OFFLINE.
Then SEEK and SCAN are refused while the radio moves or is OFF, and RECALL_PRESET where the preset is empty. -/
def Obligations.RadioRequestsAreChecked : Prop :=
  ∀ (s : State) (p : Port) (w v high low : Word) (z : ZoneId) (i : Instr), s.listens p → s.delivered →
    w.toNat = z.code →
    ((i = .tune p w v high low ∨ i = .seek p w v ∨ i = .scan p w v) ∧ v.toNat < 2) ∨
      (i = .recallPreset p w v ∧ v.toNat < 40) ∨ i = .cancelRadio p w →
      (s.hub.standby.power ≠ .active →
        ∃ t, exec i s = .next t ∧ s.answersOnly t p .standby (.powerRefused s.hub.standby.power)) ∧
      (s.hub.standby.power = .active →
        (s.hub.zone z).power = false ∨ (s.hub.zone z).selected.val ≠ 6 →
          ∃ t, exec i s = .next t ∧ s.answersOnly t p .refusedState .none) ∧
      (s.hub.standby.power = .active → (s.hub.zone z).power = true → (s.hub.zone z).selected.val = 6 →
        s.hub.radio.holder ≠ some z →
          ∃ t, exec i s = .next t ∧ s.answersOnly t p .tunerHeld (.holder s.hub.radio.holder)) ∧
      (s.hub.mayMove z → s.hub.radio.online = false → i ≠ .cancelRadio p w →
        ∃ t, exec i s = .next t ∧ s.answersOnly t p .noTuner .none) ∧
      (s.hub.mayMove z → s.hub.radio.online = true → i = .seek p w v ∨ i = .scan p w v →
        s.hub.radio.state ≠ .idle → s.hub.radio.state ≠ .followCheck →
          ∃ t, exec i s = .next t ∧ s.answersOnly t p .refusedState .none) ∧
      (s.hub.mayMove z → s.hub.radio.online = true → i = .recallPreset p w v →
        (∀ k : Fin 40, v.toNat = k.val → s.hub.radio.presets[k] = none) →
          ∃ t, exec i s = .next t ∧ s.answersOnly t p .empty .none)

/-- R130, R135, R144: TUNE and RECALL_PRESET that pass their checks. TUNE snaps its frequency to the nearest grid point
of the band, an exact half up, and is CLAMPED where that moves it; RECALL_PRESET takes the preset's as it stands. It
becomes the held frequency. A START or RECOVERY in phase STATUS or BLEND goes on; otherwise whatever was in flight ends
with its notice and the radio is TUNING, muted, with a REQUEST of the zone in phase SET. That the settle count is 0 there
is the model's choice (notes/assumptions/79.md). -/
def Obligations.TuningMovesTheRadio : Prop :=
  ∀ (s : State) (p : Port) (w : Word) (z : ZoneId), s.listens p → s.delivered → w.toNat = z.code → s.hub.mayMove z →
    s.hub.radio.online = true →
      let r := s.hub.radio
      let moves (f : Freq) (t : State) (notices : List Notice) : Prop :=
        t.sources = s.sources ∧
          (r.state = .off ∨ (r.state = .tuning ∧ ∃ k n, r.op = some ⟨k, .status, n⟩ ∨ r.op = some ⟨k, .blend, n⟩) →
            t.hub = { s.hub with radio := { r with held := f } } ∧ notices = []) ∧
          (r.state ≠ .off → ¬ (r.state = .tuning ∧ ∃ k n, r.op = some ⟨k, .status, n⟩ ∨ r.op = some ⟨k, .blend, n⟩) →
            t.hub = s.hub.operates { r with held := f } .tuning ⟨.request z, .set, 0⟩ s.hub.backOffAfter ∧
              notices = r.endNotices .cancelled)
      (∀ (v high low : Word) (b : Band), (v = 0 ∧ b = .fm) ∨ (v = 1 ∧ b = .am) →
        let khz := high.toNat * 65536 + low.toNat
        ∃ t notices n, exec (.tune p w v high low) s = .next t ∧ moves ⟨b, n⟩ t notices ∧
          s.answers t p (s.ports.get p) (if n = khz then .accepted else .clamped)
            (.tuned ⟨b, n⟩ t.hub.radio.state) notices ∧
          (r.plan.fmStep = 50 ∨ r.plan.fmStep = 100 ∨ r.plan.fmStep = 200 → r.plan.amStep = 9 ∨ r.plan.amStep = 10 →
            let step := if b = .fm then r.plan.fmStep else r.plan.amStep
            let lower := if b = .fm then 87500 else if r.plan.amStep = 9 then 522 else 520
            let upper := if b = .fm then 108000 else if r.plan.amStep = 9 then 1620 else 1710
            (∃ k, n = lower + k * step) ∧ n ≤ upper ∧
              (lower ≤ khz → khz ≤ upper → 2 * n ≤ 2 * khz + step ∧ (2 * khz < 2 * n + step ∨ upper < n + step)) ∧
              (khz < lower → n = lower) ∧ (upper < khz → upper < n + step))) ∧
      (∀ (v : Word) (k : Fin 40) (e : Preset), v.toNat = k.val → r.presets[k] = some e →
        ∃ t notices, exec (.recallPreset p w v) s = .next t ∧ moves e.freq t notices ∧
          s.answers t p (s.ports.get p) .accepted (.tuned e.freq t.hub.radio.state) notices)

/-- R137, R139, R140: SEEK, SCAN and CANCEL_RADIO that pass their checks. A seek starts at the held frequency and its
first step is the next grid point in its direction, in either band at every step: the least above it, or the lower limit
past the highest, and the greatest below it, or the highest at the lower limit. A scan removes the station list entries
of its band and starts at the band's lower limit; both end a follow check. A cancel of a search or a follow check ends it
with its notice and returns to the held frequency, and in TUNING, IDLE and OFF does nothing. That the settle count of an
operation in phase SET is 0 is the model's choice (notes/assumptions/79.md). -/
def Obligations.SearchesStartAndStop : Prop :=
  ∀ (s : State) (p : Port) (w : Word) (z : ZoneId), s.listens p → s.delivered → w.toNat = z.code → s.hub.mayMove z →
    let r := s.hub.radio
    (r.online = true → r.state = .idle ∨ r.state = .followCheck →
      (∀ (v : Word) (up : Bool), (v = 0 ∧ up = false) ∨ (v = 1 ∧ up = true) →
        let next := r.plan.next r.held.band up r.held.khz
        let step := r.plan.step r.held.band
        let lower := r.plan.lower r.held.band
        let top := r.plan.top r.held.band
        (∃ t, exec (.seek p w v) s = .next t ∧
          s.answers t p (s.ports.get p) .accepted (.seek r.held up) (r.endNotices .cancelled) ∧
          t.sources = s.sources ∧
          t.hub = s.hub.operates r .seeking ⟨.seek z up r.held next 0, .set, 0⟩ s.hub.backOffAfter) ∧
          (0 < step → lower ≤ r.held.khz →
            (∃ k, next = lower + k * step) ∧
              (up = true → r.held.khz < top → r.held.khz < next ∧ next ≤ r.held.khz + step ∧ next ≤ top) ∧
              (up = true → top ≤ r.held.khz → next = lower) ∧
              (up = false → lower < r.held.khz → next < r.held.khz ∧ r.held.khz ≤ next + step) ∧
              (up = false → r.held.khz = lower → next = top))) ∧
      (∀ (v : Word) (b : Band), (v = 0 ∧ b = .fm) ∨ (v = 1 ∧ b = .am) →
        ∃ t, exec (.scan p w v) s = .next t ∧
          s.answers t p (s.ports.get p) .accepted
            (.scan b (r.stations.filter fun e => decide (e.freq.band = b)).length) (r.endNotices .cancelled) ∧
          t.sources = s.sources ∧
          t.hub =
            s.hub.operates { r with stations := r.stations.filter fun e => decide (e.freq.band ≠ b) } .scanning
              ⟨.scan z b (if b = .fm then 87500 else if r.plan.amStep = 9 then 522 else 520), .set, 0⟩
              s.hub.backOffAfter)) ∧
    (r.state = .seeking ∨ r.state = .scanning ∨ r.state = .followCheck →
      ∃ t, exec (.cancelRadio p w) s = .next t ∧
        s.answers t p (s.ports.get p) .ok (.radioState .tuning) (r.endNotices .cancelled) ∧ t.sources = s.sources ∧
        t.hub = s.hub.operates r .tuning ⟨.ret, .set, 0⟩ s.hub.backOffAfter) ∧
    (r.state = .tuning ∨ r.state = .idle ∨ r.state = .off →
      ∃ t, exec (.cancelRadio p w) s = .next t ∧ s.answersOnly t p .ok (.radioState r.state))

/-- R130, R143, R145, R151, R150: the requests that write the presets and the options. An explicit preset takes its
frequency clamped to its band, an FM one to a multiple of 10 kHz, with no name and no code; a current one takes the held
frequency with the name and the code that the decoder holds; CLEAR_PRESET empties a preset; and SET_RADIO_OPTIONS clamps
its quantities and, where forced mono changes while the radio is not OFF and the link ONLINE, sets blend pending. That a
current preset takes the name and the code in every radio state, also while the radio moves, where R143 has the store take
none, is the model's choice (notes/assumptions/66.md). -/
def Obligations.PresetsAndOptionsAreWritten : Prop :=
  ∀ (s : State) (p : Port), s.listens p → s.delivered →
    let r := s.hub.radio
    (∀ (w : Word) (k : Fin 40), w.toNat = k.val →
      (∀ (v high low : Word) (b : Band), (v = 0 ∧ b = .fm) ∨ (v = 1 ∧ b = .am) →
        let khz := high.toNat * 65536 + low.toNat
        let lower := if r.plan.amStep = 9 then 522 else 520
        let upper := if r.plan.amStep = 9 then 1620 else 1710
        let n := if b = .fm then (max 87500 (min 108000 khz) + 5) / 10 * 10 else max lower (min upper khz)
        let e : Preset := ⟨⟨b, n⟩, none, none⟩
        ∃ t, exec (.storePresetExplicit p w 0 v high low) s = .next t ∧
          s.answers t p (s.ports.get p) (if n = khz then .ok else .clamped) (.preset (some e)) [] ∧
          t.sources = s.sources ∧ t.hub = { s.hub with radio := { r with presets := r.presets.set k (some e) } }) ∧
      (∀ v high low : Word,
        let e : Preset := ⟨r.held, s.hub.station.name, s.hub.station.code⟩
        ∃ t, exec (.storePresetCurrent p w v high low) s = .next t ∧
          s.answers t p (s.ports.get p) .ok (.preset (some e)) [] ∧ t.sources = s.sources ∧
          t.hub = { s.hub with radio := { r with presets := r.presets.set k (some e) } }) ∧
      ∃ t, exec (.clearPreset p w) s = .next t ∧ s.answers t p (s.ports.get p) .ok .none [] ∧
        t.sources = s.sources ∧ t.hub = { s.hub with radio := { r with presets := r.presets.set k none } }) ∧
    ∀ (a b fmLevel fmNoise amLevel turnaround : Word) (follow mono : Bool),
      (a = if follow then 1 else 0) → (b = if mono then 1 else 0) →
        let o : RadioOptions :=
          ⟨follow, mono, min 120 fmLevel.toNat, min 100 fmNoise.toNat, min 120 amLevel.toNat,
            max 1 (min 15 turnaround.toNat)⟩
        ∃ t, exec (.setRadioOptions p a b fmLevel fmNoise amLevel turnaround) s = .next t ∧
          s.answers t p (s.ports.get p)
            (if fmLevel.toNat ≤ 120 ∧ fmNoise.toNat ≤ 100 ∧ amLevel.toNat ≤ 120 ∧ 1 ≤ turnaround.toNat ∧
              turnaround.toNat ≤ 15 then .ok else .clamped) (.radioOptions o) [] ∧
          t.sources = s.sources ∧
          t.hub = { s.hub with
            radio := { r with
              options := o
              blendPending :=
                r.blendPending || (decide (mono ≠ r.options.forcedMono) && decide (r.state ≠ .off) && r.online) } }

/-- R146: SET_BAND_PLAN, in every power state and with no holder. The steps in force change nothing. A change of the AM
step empties the AM presets, removes the AM entries and forgets an AM front-end frequency and report, and an AM held
frequency becomes the new lower limit. A seek or scan of a band whose step changed ends CANCELLED and the radio returns
to the held frequency. Otherwise an AM held frequency whose step changed is retuned: by an IDLE radio whose link is
ONLINE, and in TUNING by an operation past BLEND, which goes back to SET with its kind kept; a START or RECOVERY in
STATUS or BLEND, a scan of FM, a follow check, and a radio that is OFF or whose link is OFFLINE go on as they are. A
change of the FM step changes nothing else. That the settle count of an operation in phase SET is 0 is the model's choice
(notes/assumptions/79.md). -/
def Obligations.BandPlanChangesItsBands : Prop :=
  ∀ (s : State) (p : Port) (a b : Word) (fm am : Nat), s.listens p → s.delivered →
    (a = 0 ∧ fm = 50) ∨ (a = 1 ∧ fm = 100) ∨ (a = 2 ∧ fm = 200) → (b = 0 ∧ am = 9) ∨ (b = 1 ∧ am = 10) →
      let r := s.hub.radio
      let changed (c : Band) : Prop := (c = .fm ∧ fm ≠ r.plan.fmStep) ∨ (c = .am ∧ am ≠ r.plan.amStep)
      let written : Radio :=
        if am = r.plan.amStep then { r with plan := ⟨fm, am⟩ }
        else
          { r with
            plan := ⟨fm, am⟩
            presets := r.presets.map fun x => x.filter fun e => decide (e.freq.band = .fm)
            stations := r.stations.filter fun e => decide (e.freq.band = .fm)
            held := if r.held.band = .am then ⟨.am, if am = 9 then 522 else 520⟩ else r.held
            frontEnd := r.frontEnd.filter fun f => decide (f.band = .fm)
            report := r.report.filter fun q => decide (q.freq.band = .fm) }
      let emptied :=
        if am = r.plan.amStep then 0
        else (r.presets.toList.filter fun x => x.any fun e => decide (e.freq.band = .am)).length
      let removed :=
        if am = r.plan.amStep then 0 else (r.stations.filter fun e => decide (e.freq.band = .am)).length
      ∃ t notices, exec (.setBandPlan p a b) s = .next t ∧
        s.answers t p (s.ports.get p) .ok (.bandPlan ⟨fm, am⟩ emptied removed written.held) notices ∧
        t.sources = s.sources ∧
        (fm = r.plan.fmStep → am = r.plan.amStep → t.hub = s.hub ∧ notices = []) ∧
        (∀ z up start step tested phase n, r.op = some ⟨.seek z up start step tested, phase, n⟩ → changed start.band →
          notices = [seekDoneNotice z .cancelled start] ∧
            t.hub = s.hub.operates written .tuning ⟨.ret, .set, 0⟩ s.hub.station.backOff) ∧
        (∀ z c step phase n, r.op = some ⟨.scan z c step, phase, n⟩ → changed c →
          notices = [scanDoneNotice z .cancelled
              (written.stations.filter fun e => decide (e.freq.band = c)).length] ∧
            t.hub = s.hub.operates written .tuning ⟨.ret, .set, 0⟩ s.hub.station.backOff) ∧
        ((∀ z up start step tested phase n, r.op = some ⟨.seek z up start step tested, phase, n⟩ →
              ¬ changed start.band) →
          (∀ z c step phase n, r.op = some ⟨.scan z c step, phase, n⟩ → ¬ changed c) →
            let retunes := am ≠ r.plan.amStep ∧ r.held.band = .am
            notices = [] ∧
              (retunes → r.state = .idle → r.online = true →
                t.hub = s.hub.operates written .tuning ⟨.ret, .set, 0⟩ s.hub.station.backOff) ∧
              (retunes → r.state = .tuning → ∀ k phase n, r.op = some ⟨k, phase, n⟩ → phase ≠ .status →
                phase ≠ .blend → t.hub = s.hub.operates written .tuning ⟨k, .set, 0⟩ s.hub.station.backOff) ∧
              (¬ retunes ∨ (r.state = .idle ∧ r.online = false) ∨
                  (r.state = .tuning ∧ ∃ k n, r.op = some ⟨k, .status, n⟩ ∨ r.op = some ⟨k, .blend, n⟩) ∨
                  (r.state ≠ .idle ∧ r.state ≠ .tuning) →
                t.hub = { s.hub with radio := written }))

/-! ### The tuner link (chapter 7) -/

/-- R147, R150, R156: LINK_MESSAGE_SEND. With an exchange in flight or nothing waiting it does nothing. Otherwise a
SET_BLEND that waits goes first, then the operation's message by its phase, then a GET_QUALITY poll, then a GET_DATA
poll, each as attempt 1 with the message's bytes on the line: the kind, the length, the payload (a SET_FREQ's band and
frequency, FM in units of 10 kHz, the high byte first, and a SET_BLEND's forced mono) and the check byte, which brings
the sum to 0 modulo 256. A SET_FREQ sent moves the front end, and, unless it belongs to a follow check or carries the
data frequency, clears the station data. That each message is one step is declared in notes/assumptions/18.md. That a
blend pending which was kept through OFFLINE is sent first as the link returns, before the SET_BLEND of the RECOVERY's own
phase BLEND, which is sent all the same, is the model's choice (notes/assumptions/65.md). -/
def Obligations.LinkSendsTheNextMessage : Prop :=
  ∀ s : State, s.ready →
    let r := s.hub.radio
    let x := s.hub.station
    let framed (m : LinkMessage) (kind : Nat) (payload : List Nat) : Prop :=
      ∃ check : Byte, m.bytes = (kind :: payload.length :: payload).map (BitVec.ofNat 8) ++ [check] ∧
        (m.bytes.map BitVec.toNat).sum % 256 = 0
    (∀ khz, framed (.setFreq ⟨.fm, khz⟩) 1 [0, khz / 10 / 256, khz / 10 % 256]) ∧
    (∀ khz, framed (.setFreq ⟨.am, khz⟩) 1 [1, khz / 256, khz % 256]) ∧
    framed .getQuality 2 [] ∧ framed .getData 3 [] ∧ framed .status 5 [] ∧
    (∀ mono : Bool, framed (.setBlend mono) 4 [if mono then 1 else 0]) ∧
    ∃ t, exec .linkMessageSend s = .next t ∧ s.tells t [] ∧ t.sources = s.sources ∧
      (r.exchange ≠ none → t.hub = s.hub) ∧
      (r.exchange = none →
        let sends (m : LinkMessage) (use : ExchangeUse) : Radio :=
          { r with exchange := some ⟨m, 1, use, r.options.turnaround⟩, sent := m.bytes }
        (r.blendPending = true → r.online = true →
          t.hub = { s.hub with radio := { sends (.setBlend r.options.forcedMono) .blend with blendPending := false } }) ∧
        (r.blendPending = false ∨ r.online = false →
          (∀ k n, r.op = some ⟨k, .status, n⟩ → t.hub = { s.hub with radio := sends .status .step }) ∧
          (∀ k n, r.op = some ⟨k, .blend, n⟩ →
            t.hub = { s.hub with radio := { sends (.setBlend r.options.forcedMono) .step with blendPending := false } }) ∧
          (∀ k n, r.op = some ⟨k, .set, n⟩ →
            let f : Freq :=
              match k with
              | .seek _ _ start step _ => ⟨start.band, step⟩
              | .scan _ b step => ⟨b, step⟩
              | .follow _ candidates position _ _ => ⟨.fm, candidates.getD position 0⟩
              | .request _ | .ret | .start | .recovery => r.held
            t.hub = { s.hub with
              radio := { sends (.setFreq f) .step with frontEnd := some f }
              station :=
                if r.state = .followCheck ∨ x.freq = some f then x
                else { Station.reset with
                  freq := some f, corrected := x.corrected, rejected := x.rejected, ignored := x.ignored } }) ∧
          (∀ k n, r.op = some ⟨k, .measure, n⟩ → t.hub = { s.hub with radio := sends .getQuality .step }) ∧
          (∀ k n, r.op = some ⟨k, .data, n⟩ → t.hub = { s.hub with radio := sends .getData .step }) ∧
          (r.op = none →
            (r.qualityWaiting = true →
              t.hub = { s.hub with radio := { sends .getQuality .poll with qualityWaiting := false } }) ∧
            (r.qualityWaiting = false → r.dataWaiting = true →
              t.hub = { s.hub with radio := { sends .getData .poll with dataWaiting := false } }) ∧
            (r.qualityWaiting = false → r.dataWaiting = false → t.hub = s.hub))))

/-- R147 to R149: LINK_ATTEMPT_FAILED. A probe that fails ends unnoticed; a first attempt is counted and made again, the
same bytes, with the turnaround now in force; a second failure is counted, takes the link OFFLINE with TUNER_LINK (unless
OFFLINE already), ends the operation in flight with its notice and leaves the radio IDLE, unmuted. A reply of a wrong
kind, and a GET_DATA reply of more than six words, is a failed attempt. R147, 12.6: what an attempt comes to, by the
characters on the line: one that begins before the release is ignored; each must begin within 30 bit times of the release
or of the stop bit before it; a complete reply of the message's kind, of a length that kind may have and with a sum of 0
modulo 256 is the reply's row; any other, and a missed deadline, is LINK_ATTEMPT_FAILED; what follows is ignored. That the
outcome comes as one row, and a character is ignored by its start, is the model's choice (notes/assumptions/18.md); so is
that a reply with no exchange in flight is ignored (notes/assumptions/24.md), and that attempt 2 leaves a front-end
frequency as it stands, absent where SET_BAND_PLAN made it so while an AM SET_FREQ was in flight
(notes/assumptions/64.md). -/
def Obligations.FailedAttemptsTakeTheLinkOffline : Prop :=
  ∀ s : State, s.ready →
    let r := s.hub.radio
    (∃ t notices, exec .linkAttemptFailed s = .next t ∧ s.tells t notices ∧ t.sources = s.sources ∧
      (r.exchange = none → t.hub = s.hub ∧ notices = []) ∧
      ∀ e, r.exchange = some e →
        (e.use = .probe → t.hub = { s.hub with radio := { r with exchange := none } } ∧ notices = []) ∧
        (e.use ≠ .probe → e.attempt = 1 → notices = [] ∧
          t.hub = { s.hub with
            radio := { r with
              exchange := some { e with attempt := 2, turnaround := r.options.turnaround }
              failed := bump r.failed
              sent := e.message.bytes } }) ∧
        (e.use ≠ .probe → e.attempt = 2 →
          t.hub = { s.hub with
            radio := { r with
              exchange := none
              failed := bump r.failed
              online := false
              offlines := if r.online then bump r.offlines else r.offlines
              state := .idle
              op := none
              mute := false
              probeCount := 0
              dataWaiting := false
              qualityWaiting := false }
            station := { s.hub.station with backOff := s.hub.backOffAfter } } ∧
          notices = (if r.online then [tunerLinkNotice t.hub.radio] else []) ++ r.endNotices .noTuner)) ∧
    (∀ (i : Instr) (kind : Nat),
      (kind = 1 ∧ i = .setFreqReply) ∨ (kind = 2 ∧ ∃ level noise flags, i = .getQualityReply level noise flags) ∨
          (kind = 3 ∧ ∃ words, i = .getDataReply words) ∨ (kind = 4 ∧ i = .setBlendReply) ∨
          (kind = 5 ∧ ∃ w, i = .statusReply w) →
        (∀ e, r.exchange = some e → e.message.code ≠ kind → exec i s = exec .linkAttemptFailed s) ∧
          (∀ words : List CodeWord, 6 < words.length → i = .getDataReply words →
            exec i s = exec .linkAttemptFailed s) ∧
          (r.exchange = none → exec i s = exec .linkAttemptFailed s)) ∧
    ∀ e, r.exchange = some e →
      let m := e.message
      let release := 10 * m.bytes.length + e.turnaround
      let timely (reply : List LinkCharacter) : Prop :=
        (∀ c ∈ reply, release ≤ c.start) ∧ (∀ c ∈ reply.head?, c.start ≤ release + 30) ∧
          ∀ (k : Nat) (h : k + 1 < reply.length), reply[k + 1].start ≤ reply[k].start + 40
      (∀ early line, (∀ c ∈ early, c.start < release) → s.hub.linkOutcome (early ++ line) = s.hub.linkOutcome line) ∧
      (∀ reply rest, timely reply →
        (reply.length < 2 ∨ ∃ length : Byte,
          (reply.map LinkCharacter.byte)[1]? = some length ∧ reply.length < 3 + length.toNat) →
        (∀ c ∈ rest.head?, (reply.getLast?.elim (release + 30) fun b => b.start + 40) < c.start) →
          s.hub.linkOutcome (reply ++ rest) = some .linkAttemptFailed) ∧
      ∀ (reply rest : List LinkCharacter) (kind length check : Byte) (payload : List Byte), timely reply →
        reply.map LinkCharacter.byte = kind :: length :: payload ++ [check] → length.toNat = payload.length →
          let n := payload.length
          let fits (code : Nat) (possible : Prop) : Prop :=
            m.code = code ∧ kind.toNat = code ∧ possible ∧
              (kind.toNat + length.toNat + (payload.map BitVec.toNat).sum + check.toNat) % 256 = 0
          let comes (i : Instr) : Prop := s.hub.linkOutcome (reply ++ rest) = some i
          (fits 1 (n = 0) → comes .setFreqReply) ∧
          (fits 2 (n = 3) → ∀ a b c, payload = [a, b, c] → comes (.getQualityReply a b c)) ∧
          (fits 3 (n ≤ 24 ∧ n % 4 = 0) → ∀ words : List CodeWord,
            payload = (words.flatMap fun w : CodeWord =>
              [(w >>> 24).setWidth 8, (w >>> 16).setWidth 8, (w >>> 8).setWidth 8, w.setWidth 8]) →
              comes (.getDataReply words)) ∧
          (fits 4 (n = 0) → comes .setBlendReply) ∧
          (fits 5 (n = 2) → ∀ a b, payload = [a, b] → comes (.statusReply (a ++ b))) ∧
          (¬ fits 1 (n = 0) → ¬ fits 2 (n = 3) → ¬ fits 3 (n ≤ 24 ∧ n % 4 = 0) → ¬ fits 4 (n = 0) →
            ¬ fits 5 (n = 2) → comes .linkAttemptFailed)

/-- R136, R149, R150, R163: the replies that end an exchange and only move the operation on. A SET_FREQ reply starts
the settle from 0; a SET_BLEND reply of a sequence goes on to SET; a STATUS reply brings the link back ONLINE with
TUNER_LINK where it was OFFLINE, and goes on to BLEND, by a RECOVERY where it answers a probe. A reply whose step no
longer belongs to the operation only ends its exchange. That a reply is one step is declared in
notes/assumptions/18.md; that the settle count is 0 in SET and BLEND is the model's choice (notes/assumptions/79.md). -/
def Obligations.RepliesMoveTheOperationOn : Prop :=
  ∀ s : State, s.ready →
    let r := s.hub.radio
    let back : Radio := { r with exchange := none, online := true }
    let told := if r.online then [] else [tunerLinkNotice back]
    (∀ use, s.hub.awaits 1 use → ∃ t, exec .setFreqReply s = .next t ∧ s.tells t [] ∧ t.sources = s.sources ∧
      (∀ op, use = .step → r.op = some op →
        t.hub = { s.hub with radio := { r with exchange := none, op := some ⟨op.kind, .settle, 0⟩ } }) ∧
      (use ≠ .step ∨ r.op = none → t.hub = { s.hub with radio := { r with exchange := none } })) ∧
    (∀ use, s.hub.awaits 4 use → ∃ t, exec .setBlendReply s = .next t ∧ s.tells t [] ∧ t.sources = s.sources ∧
      (∀ op, use = .step → r.op = some op →
        t.hub = { s.hub with radio := { r with exchange := none, op := some ⟨op.kind, .set, 0⟩ } }) ∧
      (use ≠ .step ∨ r.op = none → t.hub = { s.hub with radio := { r with exchange := none } })) ∧
    (∀ use w, s.hub.awaits 5 use → ∃ t notices, exec (.statusReply w) s = .next t ∧ s.tells t notices ∧
      t.sources = s.sources ∧
      (use = .probe → notices = told ∧
        t.hub = s.hub.operates back .tuning ⟨.recovery, .blend, 0⟩ s.hub.station.backOff) ∧
      (∀ op, use = .step → r.op = some op → notices = told ∧
        t.hub = { s.hub with radio := { back with op := some ⟨op.kind, .blend, 0⟩ } }) ∧
      (use ≠ .step → use ≠ .probe → notices = [] ∧ t.hub = { s.hub with radio := { r with exchange := none } }))

/-- R136, R138, R141, R142, R150, R162, R163: a GET_QUALITY reply, its level and noise brought into their ranges,
measured on the front-end frequency. A poll's is the last report and feeds the weak run in IDLE and is discarded
elsewhere. A sequence ends IDLE, unmuted, with RADIO_TUNED. A seek holds a step that meets the thresholds and posts
SEEK_DONE and RADIO_TUNED, or goes on, or has found nothing and returns. A scan offers such a step to the station list,
which takes it at its place in list order while it holds fewer than 48 entries, takes it in the place of its weakest entry
where that one is weaker, and drops it otherwise, the other entries keeping their order; and the scan goes on or is
complete. A follow check reads data from a candidate 6 dB better, or tries the next. That a reply is
one step is declared in notes/assumptions/18.md; that the settle count is 0 in SET and DATA is the model's choice
(notes/assumptions/79.md). -/
def Obligations.QualityReportsAreTaken : Prop :=
  ∀ (s : State) (level noise flags : Byte) (use : ExchangeUse), s.ready → s.hub.awaits 2 use →
    let r := s.hub.radio
    let q : Quality := ⟨min 120 level.toNat, min 100 noise.toNat, flags.getLsbD 0, r.frontEnd.getD r.held⟩
    let y : Radio := { r with exchange := none, report := some q }
    let meets (b : Band) : Prop :=
      (b = .fm → r.options.fmLevel ≤ q.level ∧ q.noise ≤ r.options.fmNoise) ∧ (b = .am → r.options.amLevel ≤ q.level)
    let ended (f : Freq) : Radio :=
      { y with held := f, state := .idle, op := none, mute := false, dataCount := 0, qualityCount := 0 }
    ∃ t notices, exec (.getQualityReply level noise flags) s = .next t ∧ s.tells t notices ∧ t.sources = s.sources ∧
      (use = .poll → notices = [] ∧
        (r.state = .idle → t.hub = { s.hub with
          radio := y
          station := { s.hub.station with
            weakRun := if q.level < 25 then some (s.hub.station.weakRun.getD 0) else none } }) ∧
        (r.state ≠ .idle → t.hub = { s.hub with radio := { r with exchange := none } })) ∧
      (use ≠ .poll → use ≠ .step ∨ r.op = none →
        notices = [] ∧ t.hub = { s.hub with radio := { r with exchange := none } }) ∧
      (use = .step → ∀ k phase n, r.op = some ⟨k, phase, n⟩ →
        ((k = .ret ∨ k = .start ∨ k = .recovery ∨ ∃ z, k = .request z) →
          t.hub = { s.hub with radio := ended r.held } ∧ notices = [radioTunedNotice r.held q]) ∧
        (∀ z up start step tested, k = .seek z up start step tested →
          let next := r.plan.next start.band up step
          (meets start.band →
            t.hub = { s.hub with radio := ended ⟨start.band, step⟩ } ∧
              notices = [seekDoneNotice z .found ⟨start.band, step⟩, radioTunedNotice ⟨start.band, step⟩ q]) ∧
          (¬ meets start.band → next ≠ start.khz → tested + 1 < r.plan.points start.band → notices = [] ∧
            t.hub = s.hub.operates y .seeking ⟨.seek z up start next (tested + 1), .set, 0⟩ s.hub.station.backOff) ∧
          (¬ meets start.band → next = start.khz ∨ r.plan.points start.band ≤ tested + 1 →
            notices = [seekDoneNotice z .notFound start] ∧
              t.hub = s.hub.operates y .tuning ⟨.ret, .set, 0⟩ s.hub.station.backOff)) ∧
        (∀ z b step, k = .scan z b step →
          let e : StationEntry := ⟨⟨b, step⟩, q.level, none, none⟩
          (meets b → r.stations.length < 48 → placedIn e r.stations t.hub.radio.stations) ∧
          (meets b → 48 ≤ r.stations.length → (∀ a ∈ r.stations, e.level ≤ a.level) →
            t.hub.radio.stations = r.stations) ∧
          (meets b → 48 ≤ r.stations.length → (∃ a ∈ r.stations, a.level < e.level) →
            ∃ a rest, weakestOf r.stations a rest ∧ placedIn e rest t.hub.radio.stations) ∧
          (¬ meets b → t.hub.radio.stations = r.stations) ∧
          (r.stations.Pairwise (fun a c => a.freq.precedes c.freq) → (∀ a ∈ r.stations, a.freq ≠ e.freq) →
            t.hub.radio.stations.Pairwise fun a c => a.freq.precedes c.freq) ∧
          (step < r.plan.top b → notices = [] ∧
            t.hub = s.hub.operates { y with stations := t.hub.radio.stations } .scanning
              ⟨.scan z b (step + r.plan.step b), .set, 0⟩ s.hub.station.backOff) ∧
          (r.plan.top b ≤ step →
            notices = [scanDoneNotice z .complete
              (t.hub.radio.stations.filter fun a => decide (a.freq.band = b)).length] ∧
            t.hub = s.hub.operates { y with stations := t.hub.radio.stations } .tuning ⟨.ret, .set, 0⟩
              s.hub.station.backOff)) ∧
        (∀ original candidates position code polls, k = .follow original candidates position code polls →
          notices = [] ∧
          (original + 6 ≤ q.level →
            t.hub = { s.hub with radio := { y with op := some ⟨k, .data, 0⟩ } }) ∧
          (q.level < original + 6 → position + 1 < candidates.length →
            t.hub = s.hub.operates y .followCheck ⟨.follow original candidates (position + 1) code 0, .set, 0⟩
              s.hub.station.backOff) ∧
          (q.level < original + 6 → candidates.length ≤ position + 1 →
            t.hub = s.hub.operates y .tuning ⟨.ret, .set, 0⟩ 10000)))

/-- R136, R149, R150, R162, R163: the counts of the radio. A settle of 30 blocks (60 in AM) goes on to MEASURE and the 30
blocks between two polls of a candidate to DATA; a data poll and a quality poll, found by the counts that
BlockStartAdvancesEveryCount states, wait to be sent, in IDLE on FM with the link ONLINE; a probe is a single attempt
while the link is OFFLINE and no operation is in flight; and a weak run of 2,000 that meets every condition of the trigger
starts a follow check, muted, with the alternative list as its candidates. That an event acts only once it has been found,
and not before (notes/assumptions/6.md), and that the settle count is 0 in SET, MEASURE and DATA (notes/assumptions/79.md),
are the model's choice. -/
def Obligations.RadioCountsRunOut : Prop :=
  ∀ s : State, s.ready →
    let r := s.hub.radio
    let x := s.hub.station
    (∀ k n, Due.settleEnd ∈ s.hub.due → r.op = some ⟨k, .settle, n⟩ →
      ((∃ z up start step tested, k = .seek z up start step tested ∧ n = (if start.band = .fm then 30 else 60)) ∨
        (∃ z b step, k = .scan z b step ∧ n = (if b = .fm then 30 else 60)) ∨
        ((k = .ret ∨ k = .start ∨ k = .recovery ∨ ∃ z, k = .request z) ∧ n = (if r.held.band = .fm then 30 else 60))) →
      ∃ t, exec .settleEnd s = .next t ∧ s.tells t [] ∧ t.sources = s.sources ∧
        t.hub = { s.hub with
          radio := { r with op := some ⟨k, .measure, 0⟩ }
          due := s.hub.due.filter fun d => decide (d ≠ .settleEnd) }) ∧
    (∀ original candidates position code polls, Due.followSettleEnd ∈ s.hub.due →
      r.op = some ⟨.follow original candidates position code polls, .settle, 30⟩ →
        ∃ t, exec .followSettleEnd s = .next t ∧ s.tells t [] ∧ t.sources = s.sources ∧
          t.hub = { s.hub with
            radio := { r with op := some ⟨.follow original candidates position code polls, .measure, 0⟩ }
            due := s.hub.due.filter fun d => decide (d ≠ .followSettleEnd) }) ∧
    (∀ k, Due.followWaitEnd ∈ s.hub.due → r.op = some ⟨k, .wait, 30⟩ →
      ∃ t, exec .followWaitEnd s = .next t ∧ s.tells t [] ∧ t.sources = s.sources ∧
        t.hub = { s.hub with
          radio := { r with op := some ⟨k, .data, 0⟩ }
          due := s.hub.due.filter fun d => decide (d ≠ .followWaitEnd) }) ∧
    (r.state = .idle → r.held.band = .fm → r.online = true →
      (Due.dataPoll ∈ s.hub.due → ∃ t, exec .dataPollDue s = .next t ∧ s.tells t [] ∧ t.sources = s.sources ∧
        t.hub = { s.hub with
          radio := { r with dataWaiting := true }, due := s.hub.due.filter fun d => decide (d ≠ .dataPoll) }) ∧
      (Due.qualityPoll ∈ s.hub.due → ∃ t, exec .qualityPollDue s = .next t ∧ s.tells t [] ∧ t.sources = s.sources ∧
        t.hub = { s.hub with
          radio := { r with qualityWaiting := true }, due := s.hub.due.filter fun d => decide (d ≠ .qualityPoll) }) ∧
      (Due.followTrigger ∈ s.hub.due → r.options.follow = true → x.alternatives ≠ [] → x.weakRun = some 2000 →
        x.backOff = 0 → ∀ code q, x.code = some code → r.report = some q →
          ∃ t, exec .followTrigger s = .next t ∧ s.tells t [] ∧ t.sources = s.sources ∧
            t.hub =
              { s.hub.operates r .followCheck ⟨.follow q.level x.alternatives 0 code.toNat 0, .set, 0⟩ 0 with
                due := s.hub.due.filter fun d => decide (d ≠ .followTrigger) })) ∧
    (Due.linkProbe ∈ s.hub.due → r.online = false → r.state ≠ .off → r.op = none → r.exchange = none →
      ∃ t, exec .linkProbe s = .next t ∧ s.tells t [] ∧ t.sources = s.sources ∧
        t.hub = { s.hub with
          radio := { r with exchange := some ⟨.status, 1, .probe, r.options.turnaround⟩, sent := [5, 0, 251] }
          due := s.hub.due.filter fun d => decide (d ≠ .linkProbe) })

/-! ### The Station Data Decoder (chapter 8) and the word check code (chapter 12) -/

/-- R150, R155 to R161, R142: a GET_DATA poll's reply of at most six words is discarded outside IDLE; in IDLE its
words are taken one after another. A word with an uncorrectable error is counted rejected, a corrected one counted; a
word of kind 1 to 5 with no code adopted, one of kind 6 or 7 and one outside its ranges is counted ignored. A code is
adopted at its second word in a row, clearing the data of another; a name segment is confirmed at its second word; the
name, the text and the clock are posted where they change; and a code or a name fills the entry of the held frequency.
R158: the name is the twelve characters of six confirmed segments, two each, the high byte first. R159: the text is the
characters received from the first on, up to and not including the first end character 0x0D, or all 48 of them.
That a reply is one step is declared in notes/assumptions/18.md. -/
def Obligations.StationWordsAreTaken : Prop :=
  ∀ s : State, s.ready → s.hub.awaits 3 .poll →
    let r := s.hub.radio
    let base : Radio := { r with exchange := none }
    let filled (f : StationEntry → StationEntry) : Radio :=
      { base with stations := r.stations.map fun e => if e.freq = r.held then f e else e }
    (∀ words : List CodeWord, words.length ≤ 6 → r.state ≠ .idle ∨ words = [] →
      ∃ t, exec (.getDataReply words) s = .next t ∧ s.tells t [] ∧ t.sources = s.sources ∧
        t.hub = { s.hub with radio := base }) ∧
    (r.state = .idle → ∀ (w : CodeWord) (ws : List CodeWord) (t : State), ws.length < 6 →
      exec (.getDataReply [w]) s = .next t →
        exec (.getDataReply (w :: ws)) s =
          exec (.getDataReply ws)
            { t with hub := { t.hub with radio := { t.hub.radio with exchange := r.exchange } } }) ∧
    (r.state = .idle → ∀ w : CodeWord,
      ∃ t notices, exec (.getDataReply [w]) s = .next t ∧ s.tells t notices ∧ t.sources = s.sources ∧
        t.hub = { s.hub with radio := t.hub.radio, station := t.hub.station } ∧
        (notices = [] → t.hub.radio = base) ∧
        (checkWord w = .uncorrectable → notices = [] ∧
          t.hub.station = { s.hub.station with rejected := bump s.hub.station.rejected }) ∧
        ∀ d : BitVec 26, checkWord w = .clean d ∨ checkWord w = .corrected d →
          let x : Station :=
            { s.hub.station with
              corrected :=
                if checkWord w = .corrected d then bump s.hub.station.corrected else s.hub.station.corrected }
          let v : BitVec 16 := d.setWidth 16
          let kind := d.toNat / 2 ^ 22
          let index := d.toNat / 2 ^ 17 % 32
          let flag := d.getLsbD 16
          let ignored := notices = [] ∧ t.hub.station = { x with ignored := bump x.ignored }
          (kind % 8 ≠ 0 → x.code = none ∨ 6 ≤ kind % 8 → ignored) ∧
          (kind % 8 = 0 →
            let adopts (y : Station) : Prop :=
              t.hub.station = { y with code := some v, candidate := none } ∧
                notices = [stationCodeNotice v x.freq] ∧
                t.hub.radio = filled fun e => { e with code := some v }
            (x.code = some v → notices = [] ∧ t.hub.station = { x with candidate := none }) ∧
            (x.code ≠ some v → x.candidate ≠ some v →
              notices = [] ∧ t.hub.station = { x with candidate := some v }) ∧
            (x.code = none → x.candidate = some v → adopts x) ∧
            (x.code ≠ none → x.code ≠ some v → x.candidate = some v →
              adopts { Station.reset with
                freq := x.freq, corrected := x.corrected, rejected := x.rejected, ignored := x.ignored })) ∧
          (kind % 8 = 1 → x.code ≠ none →
            (6 ≤ index → ignored) ∧
            ∀ k : Fin 6, index = k.val →
              let g := x.segments[k]
              let confirms := g.confirmed ≠ some v ∧ g.candidate = some v
              let g' : NameSegment :=
                if g.confirmed = some v ∨ g.candidate = some v then ⟨some v, none⟩ else ⟨g.confirmed, some v⟩
              let segments := x.segments.set k g'
              (¬ confirms ∨ (∃ j : Fin 6, segments[j].confirmed = none) ∨
                  (∃ name, spells segments name ∧ x.name = some name) →
                notices = [] ∧ t.hub.station = { x with segments := segments }) ∧
              ∀ name, confirms → spells segments name → x.name ≠ some name →
                notices = [stationNameNotice x.freq] ∧
                  t.hub.station = { x with segments := segments, name := some name } ∧
                  t.hub.radio = filled fun e => { e with name := some name }) ∧
          (kind % 8 = 2 → x.code ≠ none →
            (24 ≤ index → ignored) ∧
            ∀ k : Fin 24, index = k.val →
              let held :=
                if x.generation = none ∨ x.generation = some flag then x.textSegments else Vector.replicate 24 none
              let segments := held.set k (some v)
              ((∀ text, completes segments text → x.text = some text) →
                notices = [] ∧
                  t.hub.station = { x with generation := some flag, textSegments := segments }) ∧
              ∀ text, completes segments text → x.text ≠ some text →
                notices = [stationTextNotice text.length flag] ∧ t.hub.radio = base ∧
                  t.hub.station =
                    { x with generation := some flag, textSegments := segments, text := some text }) ∧
          (kind % 8 = 3 → x.code ≠ none →
            let high := v.toNat / 256
            let low := v.toNat % 256
            (205 < high → 205 < low → ignored) ∧
            (high ≤ 205 ∨ low ≤ 205 →
              notices = [] ∧
              t.hub.station =
                { x with alternatives := addAlternative r.held low (addAlternative r.held high x.alternatives) })) ∧
          (kind % 8 = 4 → x.code ≠ none →
            let c : StationClock := ⟨v.toNat % 2048, v.toNat / 2048 % 8⟩
            (1439 < v.toNat % 2048 ∨ v.toNat / 2048 % 8 = 0 → ignored) ∧
            (v.toNat % 2048 ≤ 1439 → 1 ≤ v.toNat / 2048 % 8 →
              t.hub.radio = base ∧ t.hub.station = { x with clock := some c } ∧
                notices = (if x.clock = some c then [] else [stationClockNotice c]))) ∧
          (kind % 8 = 5 → x.code ≠ none →
            (31 < v.toNat % 256 → ignored) ∧
            (v.toNat % 256 ≤ 31 → notices = [] ∧ t.hub.station = { x with category := some (v.toNat % 256) }))) ∧
    (∀ (held : Freq) (code : Nat) (list : List Nat),
      let f := 87500 + 100 * code
      (code = 0 ∨ 205 < code ∨ f ∈ list ∨ held = ⟨.fm, f⟩ ∨ 10 ≤ list.length →
        addAlternative held code list = list) ∧
      (1 ≤ code → code ≤ 205 → f ∉ list → held ≠ ⟨.fm, f⟩ → list.length < 10 →
        (addAlternative held code list).Perm (f :: list) ∧
          (list.Pairwise (fun a b => a < b) → (addAlternative held code list).Pairwise fun a b => a < b)))

/-- R150, R155, R163 to R165: a GET_DATA reply of a follow check, whose words are counted and do not reach the record: each
word with a single error advances words corrected, each uncorrectable one words rejected, and a clean one neither. The
first kind 0 word that passes decides: one that carries the data code switches the radio to the candidate, IDLE and
unmuted, with AF_SWITCH and RADIO_TUNED, the original taking the candidate's place in the alternative list; one that
carries another fails the candidate. With neither, a fifth poll fails the candidate and an earlier one waits. That
every word of the reply is counted, also after the one that decides (notes/assumptions/28.md), and that the settle count is
0 in SET (notes/assumptions/79.md), are the model's choice. -/
def Obligations.FollowChecksReadTheStation : Prop :=
  ∀ (s : State) (words : List CodeWord) (original : Nat) (candidates : List Nat) (position code polls n : Nat)
    (phase : Phase), s.ready → s.hub.awaits 3 .step → words.length ≤ 6 →
    s.hub.radio.op = some ⟨.follow original candidates position code polls, phase, n⟩ →
      let r := s.hub.radio
      let x : Station := words.foldl (init := s.hub.station) fun y w =>
        match checkWord w with
        | .clean _ => y
        | .corrected _ => { y with corrected := bump y.corrected }
        | .uncorrectable => { y with rejected := bump y.rejected }
      let shows (w : CodeWord) (good : BitVec 26 → Prop) : Prop :=
        ∃ d, (checkWord w = .clean d ∨ checkWord w = .corrected d) ∧ d.toNat / 2 ^ 22 % 8 = 0 ∧ good d
      let hears (good : BitVec 26 → Prop) : Prop :=
        ∃ before w after, words = before ++ w :: after ∧ (∀ u ∈ before, ¬ shows u fun _ => True) ∧ shows w good
      let fails (t : State) : Prop :=
        (position + 1 < candidates.length →
          t.hub = { s.hub with station := x }.operates { r with exchange := none } .followCheck
            ⟨.follow original candidates (position + 1) code 0, .set, 0⟩ x.backOff) ∧
        (candidates.length ≤ position + 1 →
          t.hub = { s.hub with station := x }.operates { r with exchange := none } .tuning ⟨.ret, .set, 0⟩ 10000)
      ∃ t notices, exec (.getDataReply words) s = .next t ∧ s.tells t notices ∧ t.sources = s.sources ∧
        (hears (fun d => (d.setWidth 16).toNat = code) → ∀ q, r.report = some q →
          let f : Freq := ⟨.fm, candidates.getD position 0⟩
          notices = [afSwitchNotice r.held f, radioTunedNotice f q] ∧
            t.hub = { s.hub with
              radio := { r with
                exchange := none, held := f, state := .idle, op := none, mute := false, dataCount := 0
                qualityCount := 0 }
              station := { x with freq := some f, alternatives := t.hub.station.alternatives, backOff := 10000 } } ∧
            ∀ g, g ∈ t.hub.station.alternatives ↔ g = r.held.khz ∨ (g ∈ x.alternatives ∧ g ≠ f.khz)) ∧
        (hears (fun d => (d.setWidth 16).toNat ≠ code) → notices = [] ∧ fails t) ∧
        ((∀ w ∈ words, ¬ shows w fun _ => True) → notices = [] ∧
          (4 ≤ polls → fails t) ∧
          (polls < 4 →
            t.hub = { s.hub with
              radio := { r with
                exchange := none
                op := some ⟨.follow original candidates position code (polls + 1), .wait, 0⟩ }
              station := x }))

/-- R192, R193: the word check code. Every encoded word is received clean; with any one bit in error it is corrected to
the same data; with any two it is found uncorrectable. -/
def Obligations.WordCheckCodeCorrectsOneError : Prop :=
  ∀ d : BitVec 26,
    checkWord (encodeWord d) = .clean d ∧
      (∀ i : Fin 32, checkWord (encodeWord d ^^^ BitVec.ofNat 32 (2 ^ i.val)) = .corrected d) ∧
      ∀ i j : Fin 32, i ≠ j →
        checkWord (encodeWord d ^^^ BitVec.ofNat 32 (2 ^ i.val) ^^^ BitVec.ofNat 32 (2 ^ j.val)) = .uncorrectable
end

