-- ==== Sys2Proof/Laws/BandPlan.lean ====
section
/-! SUPPORT. What a change of the band plan can do (R146), said once: the radio record as it is written, a search that
ends, and the retune of an AM held frequency. -/

namespace Sys2Proof.Machine

/-- R146: the radio record with the new plan and, where the AM step changes, what that takes with it. -/
theorem Hub.changePlan_written (h : Hub) (plan : BandPlan) :
    (if decide (plan.amStep ≠ h.radio.plan.amStep) = true then Radio.dropAm { h.radio with plan := plan }
      else { h.radio with plan := plan }).op = h.radio.op ∧
    (if decide (plan.amStep ≠ h.radio.plan.amStep) = true then Radio.dropAm { h.radio with plan := plan }
      else { h.radio with plan := plan }).state = h.radio.state ∧
    (if decide (plan.amStep ≠ h.radio.plan.amStep) = true then Radio.dropAm { h.radio with plan := plan }
      else { h.radio with plan := plan }).online = h.radio.online := by
  split <;> simp [Radio.dropAm]

/-- An exchange that belongs to no step stays so. -/
@[simp] theorem Exchange.orphan_orphan (e : Exchange) : e.orphan.orphan = e.orphan := by
  rcases e with ⟨m, a, use, n⟩
  cases use <;> rfl

/-- R146: where no search of a changed band is in flight, the record is written, and an AM held frequency whose step
changed is retuned. -/
theorem Hub.changePlan_kept (h : Hub) (plan : BandPlan)
    (kept : ∀ b, h.radio.searchBand = some b → plan.step b = h.radio.plan.step b) :
    h.changePlan plan =
      let g := h.setRadio
        (if decide (plan.amStep ≠ h.radio.plan.amStep) = true then Radio.dropAm { h.radio with plan := plan }
          else { h.radio with plan := plan })
      if plan.amStep ≠ h.radio.plan.amStep ∧ h.radio.held.band = .am then g.retuneHeld else g := by
  unfold Hub.changePlan
  rcases band : h.radio.searchBand with _ | b
  · simp
  · cases b with
    | fm =>
      have same : plan.fmStep = h.radio.plan.fmStep := kept .fm band
      simp [same]
    | am =>
      have same : plan.amStep = h.radio.plan.amStep := kept .am band
      simp [same]

/-- R146: a radio in TUNING with a RETURN before it in phase SET is retuned to itself. -/
theorem Hub.retuneHeld_ret (h : Hub) :
    (h.enterTuning .ret .set).retuneHeld = h.enterTuning .ret .set := by
  have twice : (h.radio.exchange.map Exchange.orphan).map Exchange.orphan = h.radio.exchange.map Exchange.orphan := by
    cases h.radio.exchange <;> simp
  simp only [Hub.enterTuning, Hub.startOperation, Hub.retuneHeld, twice]

/-- R146: a search of a band whose step changes ends CANCELLED, and the radio returns to the held frequency. -/
theorem Hub.changePlan_ends (h : Hub) (plan : BandPlan) (b : Band) (search : h.radio.searchBand = some b)
    (changed : plan.step b ≠ h.radio.plan.step b) :
    h.changePlan plan =
      Hub.enterTuning .ret .set
        (Hub.endOperation .cancelled
          (h.setRadio
            (if decide (plan.amStep ≠ h.radio.plan.amStep) = true then Radio.dropAm { h.radio with plan := plan }
              else { h.radio with plan := plan }))) := by
  unfold Hub.changePlan
  cases b with
  | fm =>
    have step : plan.fmStep ≠ h.radio.plan.fmStep := changed
    simp [search, step, Hub.retuneHeld_ret]
  | am =>
    have step : plan.amStep ≠ h.radio.plan.amStep := changed
    simp [search, step, Hub.retuneHeld_ret]

end Sys2Proof.Machine
end

