-- ==== Sys2Proof/Laws/State.lean ====
section
/-! SUPPORT. The small lemmas of the records: what a read gives after each named write of a record. -/

namespace Sys2Proof

@[simp] theorem PerZone.get_set_same {α : Type} (t : PerZone α) (z : ZoneId) (x : α) : (t.set z x).get z = x := by
  cases z <;> rfl

@[simp] theorem PerZone.get_set_other {α : Type} (t : PerZone α) {z w : ZoneId} (h : w ≠ z) (x : α) :
    (t.set z x).get w = t.get w := by
  cases z <;> cases w <;> first | rfl | exact absurd rfl h

@[simp] theorem PerPort.get_set_same {α : Type} (t : PerPort α) (p : Port) (x : α) : (t.set p x).get p = x := by
  cases p <;> rfl

@[simp] theorem PerPort.get_set_other {α : Type} (t : PerPort α) {p q : Port} (h : q ≠ p) (x : α) :
    (t.set p x).get q = t.get q := by
  cases p <;> cases q <;> first | rfl | exact absurd rfl h

@[simp] theorem PerPort.set_set {α : Type} (t : PerPort α) (p : Port) (x y : α) : (t.set p x).set p y = t.set p y := by
  cases p <;> rfl

namespace Machine

@[simp] theorem Hub.zone_setZone_same (z : ZoneId) (x : Zone) (h : Hub) : (h.setZone z x).zone z = x := by
  simp [Hub.zone, Hub.setZone]

@[simp] theorem Hub.zone_setZone_other {z w : ZoneId} (hw : w ≠ z) (x : Zone) (h : Hub) :
    (h.setZone z x).zone w = h.zone w := by
  simp [Hub.zone, Hub.setZone, hw]

theorem Hub.zone_eq_of_zones {g h : Hub} (e : g.zones = h.zones) (z : ZoneId) : g.zone z = h.zone z := by
  simp [Hub.zone, e]

@[simp] theorem Hub.setLane_lanes (l : LaneId) (x : Lane) (h : Hub) : (h.setLane l x).lanes = h.lanes.set l x := rfl

@[simp] theorem Hub.setZone_zones (z : ZoneId) (x : Zone) (h : Hub) : (h.setZone z x).zones = h.zones.set z x := rfl

/-- A zone record replaced by one of the same settings keeps the settings of the zones. -/
theorem settingsOf_set {z : ZoneId} {x : Zone} {t : PerZone Zone} (e : x.settings = (t.get z).settings) :
    settingsOf (t.set z x) = settingsOf t := by
  cases z <;> simp_all [settingsOf, PerZone.set, PerZone.get]

/-- A zone's settings are read from the settings of all. -/
theorem settingsOf_get {t u : PerZone Zone} (e : settingsOf t = settingsOf u) (z : ZoneId) :
    (t.get z).settings = (u.get z).settings := by
  cases z
  · exact congrArg PerZone.main e
  · exact congrArg PerZone.z2 e
  · exact congrArg PerZone.z3 e

@[simp] theorem Hub.enterZone_zones (z : ZoneId) (x : Zone) (h : Hub) : (h.enterZone z x).zones = h.zones.set z x := rfl

@[simp] theorem Zone.fadeInOrWait_settings (b : Bool) (x : Zone) : (x.fadeInOrWait b).settings = x.settings := by
  cases b <;> rfl

@[simp] theorem Zone.adoptGrant_settings (x : Zone) : x.adoptGrant.settings = x.settings := by
  unfold Zone.adoptGrant
  split <;> rfl

@[simp] theorem Zone.blockStart_settings (x : Zone) : x.blockStart.settings = x.settings := by
  unfold Zone.blockStart
  split <;> rfl

@[simp] theorem Zone.push_settings (f : Frame) (x : Zone) : (x.push f).1.settings = x.settings := rfl

/-- A renderer record whose tables are those of `r`, whatever else is written in it. -/
@[simp] theorem Renderer.tables_written (r : Renderer) (inForce derived governing : Layout) (item fault : Bool)
    (filters : Vector Sample 7) (lines : Vector (List Sample) 7) (subLine : List Sample) (clips : PerLine Nat)
    (drives : Vector LaneDrive 11) (index : PerLine Int) (laneOut : Vector Sample 11) (lineOut : PerLine Sample) :
    Renderer.tables ⟨r.entries, r.sub, r.trimZ2, r.trimZ3, r.crossover, inForce, derived, item, fault, governing, filters,
      lines, subLine, clips, drives, index, laneOut, lineOut⟩ = r.tables := rfl

@[simp] theorem Renderer.clearFilters_tables (r : Renderer) : r.clearFilters.tables = r.tables := rfl
@[simp] theorem Renderer.clearLines_tables (r : Renderer) : r.clearLines.tables = r.tables := rfl
@[simp] theorem Renderer.adopt_tables (l : Layout) (r : Renderer) : (r.adopt l).tables = r.tables := rfl
@[simp] theorem Renderer.render_tables (f : Frame) (r : Renderer) : (r.render f).1.tables = r.tables := rfl

@[simp] theorem post_outbox (n : Notice) (h : Hub) : (post n h).outbox = h.outbox ++ [n] := rfl

theorem postIf_outbox (c : Bool) (n : Notice) (h : Hub) :
    (postIf c n h).outbox = h.outbox ++ if c then [n] else [] := by
  cases c <;> simp [postIf]

theorem Hub.mem_addDue (d e : Due) (h : Hub) : e ∈ (h.addDue d).due ↔ e = d ∨ e ∈ h.due := by
  unfold Hub.addDue
  split
  · constructor
    · exact fun m => .inr m
    · rintro (rfl | m) <;> assumption
  · simp [or_comm]

theorem Hub.mem_dropDue (d e : Due) (h : Hub) : e ∈ (h.dropDue d).due ↔ e ∈ h.due ∧ e ≠ d := by
  simp [Hub.dropDue]

@[simp] theorem State.setPort_sources (p : Port) (x : PortRecord) (s : State) : (s.setPort p x).sources = s.sources := rfl
@[simp] theorem State.setPort_hub (p : Port) (x : PortRecord) (s : State) : (s.setPort p x).hub = s.hub := rfl
@[simp] theorem State.setPort_freeIndex (p : Port) (x : PortRecord) (s : State) :
    (s.setPort p x).freeIndex = s.freeIndex := rfl
@[simp] theorem State.setPort_pending (p : Port) (x : PortRecord) (s : State) : (s.setPort p x).pending = s.pending := rfl
@[simp] theorem State.setPort_ports (p : Port) (x : PortRecord) (s : State) : (s.setPort p x).ports = s.ports.set p x := rfl

@[simp] theorem State.onHub_sources (f : Hub → Hub) (s : State) : (s.onHub f).sources = s.sources := rfl
@[simp] theorem State.onHub_hub (f : Hub → Hub) (s : State) : (s.onHub f).hub = f s.hub := rfl
@[simp] theorem State.onHub_ports (f : Hub → Hub) (s : State) : (s.onHub f).ports = s.ports := rfl
@[simp] theorem State.onHub_freeIndex (f : Hub → Hub) (s : State) : (s.onHub f).freeIndex = s.freeIndex := rfl
@[simp] theorem State.onHub_pending (f : Hub → Hub) (s : State) : (s.onHub f).pending = s.pending := rfl

@[simp] theorem State.releaseSelect_sources (p : Port) (s : State) : (s.releaseSelect p).sources = s.sources := rfl
@[simp] theorem State.releaseSelect_hub (p : Port) (s : State) : (s.releaseSelect p).hub = s.hub := rfl
@[simp] theorem State.releaseSelect_freeIndex (p : Port) (s : State) : (s.releaseSelect p).freeIndex = s.freeIndex := rfl
@[simp] theorem State.releaseSelect_pending (p : Port) (s : State) : (s.releaseSelect p).pending = s.pending := rfl
@[simp] theorem State.releaseSelect_ports (p : Port) (s : State) :
    (s.releaseSelect p).ports = s.ports.set p { s.ports.get p with receive := .idle } := rfl

/-- R169: a port whose select line is asserted keeps its standing, and only an IDLE one changes. -/
@[simp] theorem PortRecord.select_standing (r : Bool) (x : PortRecord) :
    (x.select r).slot = x.slot ∧ (x.select r).subscriptions = x.subscriptions ∧ (x.select r).run = x.run ∧
      (x.select r).refused = x.refused ∧ (x.select r).discarded = x.discarded ∧ (x.select r).queue = x.queue ∧
      (x.select r).lost = x.lost := by
  unfold PortRecord.select PortRecord.assertSelect
  repeat' split
  all_goals simp

theorem PortRecord.select_of_idle {x : PortRecord} (h : x.receive = .idle) : x.select false = x.assertSelect := by
  simp [PortRecord.select, h]

theorem PortRecord.select_of_ne_idle {x : PortRecord} (h : x.receive ≠ .idle) (r : Bool) : x.select r = x := by
  simp [PortRecord.select, h]

/-- What the reset pin's level leaves of the hub: all but that level. -/
@[simp] theorem Hub.setInReset_frame (b : Bool) (h : Hub) :
    (h.setInReset b).clock = h.clock ∧ (h.setInReset b).zones = h.zones ∧ (h.setInReset b).decoder = h.decoder ∧
      (h.setInReset b).renderer = h.renderer ∧ (h.setInReset b).lanes = h.lanes ∧
      (h.setInReset b).protection = h.protection ∧ (h.setInReset b).radio = h.radio ∧
      (h.setInReset b).station = h.station ∧ (h.setInReset b).due = h.due ∧ (h.setInReset b).outbox = h.outbox ∧
      (h.setInReset b).standby = { h.standby with inReset := b } :=
  ⟨rfl, rfl, rfl, rfl, rfl, rfl, rfl, rfl, rfl, rfl, rfl⟩

@[simp] theorem State.reboot_inReset (c : ResetCause) (p : Option Port) (s : State) :
    (s.reboot c p).hub.standby.inReset = s.hub.standby.inReset := rfl

@[simp] theorem State.idle_inReset {s : State} (h : s.hub.standby.inReset = true) : s.idle = s := by
  simp [State.idle, h]

@[simp] theorem State.idle_running {s : State} (h : s.hub.standby.inReset = false) : s.idle = s.onHub Hub.crystalTick := by
  simp [State.idle, h]

@[simp] theorem deliverOutbox_sources (r : Option Port) (s : State) : (deliverOutbox r s).sources = s.sources := rfl
@[simp] theorem deliverOutbox_hub (r : Option Port) (s : State) :
    (deliverOutbox r s).hub = { s.hub with outbox := [] } := rfl
@[simp] theorem deliverOutbox_freeIndex (r : Option Port) (s : State) : (deliverOutbox r s).freeIndex = s.freeIndex := rfl
@[simp] theorem deliverOutbox_pending (r : Option Port) (s : State) : (deliverOutbox r s).pending = s.pending := rfl

/-- R180: what a port's record is once the notices of a step are delivered. -/
theorem deliverOutbox_port (r : Option Port) (s : State) (q : Port) :
    (deliverOutbox r s).ports.get q = deliverAll s.hub.outbox (decide (r = some q)) (s.ports.get q) := by
  cases q <;> rfl

@[simp] theorem deliverAll_nil (b : Bool) (x : PortRecord) : deliverAll [] b x = x := by
  cases b <;> rfl

@[simp] theorem deliverAll_withheld (ns : List Notice) (x : PortRecord) : deliverAll ns true x = x := rfl

@[simp] theorem finishFrame_sources (p : Port) (a : Answer) (s : State) : (finishFrame p a s).sources = s.sources := rfl
@[simp] theorem finishFrame_hub (p : Port) (a : Answer) (s : State) : (finishFrame p a s).hub = s.hub := rfl
@[simp] theorem finishFrame_pending (p : Port) (a : Answer) (s : State) : (finishFrame p a s).pending = s.pending := rfl
@[simp] theorem finishFrame_freeIndex (p : Port) (a : Answer) (s : State) :
    (finishFrame p a s).freeIndex = s.freeIndex + 1 := rfl
@[simp] theorem finishFrame_port_same (p : Port) (a : Answer) (s : State) :
    (finishFrame p a s).ports.get p = { (s.ports.get p).place s.freeIndex a with receive := .idle } := by
  simp [finishFrame]
@[simp] theorem finishFrame_port_other {p q : Port} (h : q ≠ p) (a : Answer) (s : State) :
    (finishFrame p a s).ports.get q = s.ports.get q := by
  simp [finishFrame, h]

/-- What shifting a frame in leaves as it was. -/
@[simp] theorem PortRecord.shiftIn_frame (w : Word) (ps : List Word) (n : Nat) (x : PortRecord) :
    (x.shiftIn w ps n).slot = x.slot ∧ (x.shiftIn w ps n).subscriptions = x.subscriptions ∧
      (x.shiftIn w ps n).run = x.run ∧ (x.shiftIn w ps n).refused = x.refused ∧
      (x.shiftIn w ps n).discarded = x.discarded ∧ (x.shiftIn w ps n).queue = x.queue ∧
      (x.shiftIn w ps n).lost = x.lost := by
  unfold PortRecord.shiftIn PortRecord.assertSelect
  split <;> simp

end Machine

end Sys2Proof
end

