-- ==== Sys2Proof/Laws/ClockFrames.lean ====
section
/-! SUPPORT. What each operation of the clock, and each named operation over a record, leaves unchanged in the hub. -/

namespace Sys2Proof.Machine

@[simp] theorem Hub.setZone_frame (z : ZoneId) (x : Zone) (h : Hub) :
    (h.setZone z x).clock = h.clock ∧ (h.setZone z x).decoder = h.decoder ∧
      (h.setZone z x).renderer = h.renderer ∧ (h.setZone z x).lanes = h.lanes ∧
      (h.setZone z x).protection = h.protection ∧ (h.setZone z x).radio = h.radio ∧
      (h.setZone z x).station = h.station ∧ (h.setZone z x).standby = h.standby ∧ (h.setZone z x).due = h.due ∧
      (h.setZone z x).outbox = h.outbox := by
  exact ⟨rfl, rfl, rfl, rfl, rfl, rfl, rfl, rfl, rfl, rfl⟩

@[simp] theorem Hub.setLane_frame (l : LaneId) (x : Lane) (h : Hub) :
    (h.setLane l x).clock = h.clock ∧ (h.setLane l x).zones = h.zones ∧ (h.setLane l x).decoder = h.decoder ∧
      (h.setLane l x).renderer = h.renderer ∧ (h.setLane l x).protection = h.protection ∧
      (h.setLane l x).radio = h.radio ∧ (h.setLane l x).station = h.station ∧
      (h.setLane l x).standby = h.standby ∧ (h.setLane l x).due = h.due ∧ (h.setLane l x).outbox = h.outbox := by
  exact ⟨rfl, rfl, rfl, rfl, rfl, rfl, rfl, rfl, rfl, rfl⟩

@[simp] theorem Hub.addDue_frame (d : Due) (h : Hub) :
    (h.addDue d).clock = h.clock ∧ (h.addDue d).zones = h.zones ∧ (h.addDue d).decoder = h.decoder ∧
      (h.addDue d).renderer = h.renderer ∧ (h.addDue d).lanes = h.lanes ∧ (h.addDue d).protection = h.protection ∧
      (h.addDue d).radio = h.radio ∧ (h.addDue d).station = h.station ∧ (h.addDue d).standby = h.standby ∧
      (h.addDue d).outbox = h.outbox := by
  unfold Hub.addDue
  split <;> simp

@[simp] theorem Hub.addDueIf_frame (c : Bool) (d : Due) (h : Hub) :
    (h.addDueIf c d).clock = h.clock ∧ (h.addDueIf c d).zones = h.zones ∧ (h.addDueIf c d).decoder = h.decoder ∧
      (h.addDueIf c d).renderer = h.renderer ∧ (h.addDueIf c d).lanes = h.lanes ∧
      (h.addDueIf c d).protection = h.protection ∧ (h.addDueIf c d).radio = h.radio ∧
      (h.addDueIf c d).station = h.station ∧ (h.addDueIf c d).standby = h.standby ∧
      (h.addDueIf c d).outbox = h.outbox := by
  unfold Hub.addDueIf
  split <;> simp

@[simp] theorem Hub.dropDue_frame (d : Due) (h : Hub) :
    (h.dropDue d).clock = h.clock ∧ (h.dropDue d).zones = h.zones ∧ (h.dropDue d).decoder = h.decoder ∧
      (h.dropDue d).renderer = h.renderer ∧ (h.dropDue d).lanes = h.lanes ∧
      (h.dropDue d).protection = h.protection ∧ (h.dropDue d).radio = h.radio ∧
      (h.dropDue d).station = h.station ∧ (h.dropDue d).standby = h.standby ∧ (h.dropDue d).outbox = h.outbox := by
  exact ⟨rfl, rfl, rfl, rfl, rfl, rfl, rfl, rfl, rfl, rfl⟩

@[simp] theorem post_frame (n : Notice) (h : Hub) :
    (post n h).clock = h.clock ∧ (post n h).zones = h.zones ∧ (post n h).decoder = h.decoder ∧
      (post n h).renderer = h.renderer ∧ (post n h).lanes = h.lanes ∧ (post n h).protection = h.protection ∧
      (post n h).radio = h.radio ∧ (post n h).station = h.station ∧ (post n h).standby = h.standby ∧
      (post n h).due = h.due := by
  exact ⟨rfl, rfl, rfl, rfl, rfl, rfl, rfl, rfl, rfl, rfl⟩

@[simp] theorem postIf_frame (c : Bool) (n : Notice) (h : Hub) :
    (postIf c n h).clock = h.clock ∧ (postIf c n h).zones = h.zones ∧ (postIf c n h).decoder = h.decoder ∧
      (postIf c n h).renderer = h.renderer ∧ (postIf c n h).lanes = h.lanes ∧
      (postIf c n h).protection = h.protection ∧ (postIf c n h).radio = h.radio ∧
      (postIf c n h).station = h.station ∧ (postIf c n h).standby = h.standby ∧ (postIf c n h).due = h.due := by
  unfold postIf
  split <;> simp

@[simp] theorem Hub.setClock_frame (c : Clock) (h : Hub) :
    (h.setClock c).zones = h.zones ∧ (h.setClock c).decoder = h.decoder ∧ (h.setClock c).renderer = h.renderer ∧
      (h.setClock c).lanes = h.lanes ∧ (h.setClock c).protection = h.protection ∧ (h.setClock c).radio = h.radio ∧
      (h.setClock c).station = h.station ∧ (h.setClock c).standby = h.standby ∧ (h.setClock c).due = h.due := by
  simp [Hub.setClock]

@[simp] theorem Hub.deriveReferenceWith_frame (src : Vector Source 8) (m : ClockMode) (h : Hub) :
    (h.deriveReferenceWith src m).zones = h.zones ∧ (h.deriveReferenceWith src m).decoder = h.decoder ∧
      (h.deriveReferenceWith src m).renderer = h.renderer ∧ (h.deriveReferenceWith src m).lanes = h.lanes ∧
      (h.deriveReferenceWith src m).protection = h.protection ∧ (h.deriveReferenceWith src m).radio = h.radio ∧
      (h.deriveReferenceWith src m).station = h.station ∧ (h.deriveReferenceWith src m).standby = h.standby ∧
      (h.deriveReferenceWith src m).due = h.due := by
  unfold Hub.deriveReferenceWith
  dsimp only
  split <;> simp

@[simp] theorem Hub.deriveReference_frame (src : Vector Source 8) (h : Hub) :
    (h.deriveReference src).zones = h.zones ∧ (h.deriveReference src).decoder = h.decoder ∧
      (h.deriveReference src).renderer = h.renderer ∧ (h.deriveReference src).lanes = h.lanes ∧
      (h.deriveReference src).protection = h.protection ∧ (h.deriveReference src).radio = h.radio ∧
      (h.deriveReference src).station = h.station ∧ (h.deriveReference src).standby = h.standby ∧
      (h.deriveReference src).due = h.due := by
  simp [Hub.deriveReference]

@[simp] theorem Hub.referenceEnters_frame (i : SourceId) (h : Hub) :
    (h.referenceEnters i).zones = h.zones ∧ (h.referenceEnters i).decoder = h.decoder ∧
      (h.referenceEnters i).renderer = h.renderer ∧ (h.referenceEnters i).lanes = h.lanes ∧
      (h.referenceEnters i).protection = h.protection ∧ (h.referenceEnters i).radio = h.radio ∧
      (h.referenceEnters i).station = h.station ∧ (h.referenceEnters i).standby = h.standby ∧
      (h.referenceEnters i).due = h.due := by
  unfold Hub.referenceEnters
  split <;> simp

@[simp] theorem Hub.referenceLeaves_frame (i : SourceId) (h : Hub) :
    (h.referenceLeaves i).zones = h.zones ∧ (h.referenceLeaves i).decoder = h.decoder ∧
      (h.referenceLeaves i).renderer = h.renderer ∧ (h.referenceLeaves i).lanes = h.lanes ∧
      (h.referenceLeaves i).protection = h.protection ∧ (h.referenceLeaves i).radio = h.radio ∧
      (h.referenceLeaves i).station = h.station ∧ (h.referenceLeaves i).standby = h.standby ∧
      (h.referenceLeaves i).due = h.due := by
  unfold Hub.referenceLeaves
  split <;> simp

@[simp] theorem Hub.startClock_frame (src : Vector Source 8) (h : Hub) :
    (h.startClock src).zones = h.zones ∧ (h.startClock src).decoder = h.decoder ∧
      (h.startClock src).renderer = h.renderer ∧ (h.startClock src).lanes = h.lanes ∧
      (h.startClock src).protection = h.protection ∧ (h.startClock src).radio = h.radio ∧
      (h.startClock src).station = h.station ∧ (h.startClock src).standby = h.standby ∧
      (h.startClock src).due = h.due := by
  simp [Hub.startClock]

@[simp] theorem Hub.stopClock_frame (h : Hub) :
    (h.stopClock).zones = h.zones ∧ (h.stopClock).decoder = h.decoder ∧ (h.stopClock).renderer = h.renderer ∧
      (h.stopClock).lanes = h.lanes ∧ (h.stopClock).protection = h.protection ∧ (h.stopClock).radio = h.radio ∧
      (h.stopClock).station = h.station ∧ (h.stopClock).standby = h.standby ∧ (h.stopClock).due = h.due := by
  simp [Hub.stopClock]

@[simp] theorem Hub.clockInterval_frame (src : Vector Source 8) (h : Hub) :
    (h.clockInterval src).zones = h.zones ∧ (h.clockInterval src).decoder = h.decoder ∧
      (h.clockInterval src).renderer = h.renderer ∧ (h.clockInterval src).lanes = h.lanes ∧
      (h.clockInterval src).protection = h.protection ∧ (h.clockInterval src).radio = h.radio ∧
      (h.clockInterval src).station = h.station ∧ (h.clockInterval src).standby = h.standby := by
  unfold Hub.clockInterval
  dsimp only
  repeat' split
  all_goals simp

@[simp] theorem Hub.expireHoldover_frame (h : Hub) :
    (h.expireHoldover).zones = h.zones ∧ (h.expireHoldover).decoder = h.decoder ∧
      (h.expireHoldover).renderer = h.renderer ∧ (h.expireHoldover).lanes = h.lanes ∧
      (h.expireHoldover).protection = h.protection ∧ (h.expireHoldover).radio = h.radio ∧
      (h.expireHoldover).station = h.station ∧ (h.expireHoldover).standby = h.standby ∧
      (h.expireHoldover).due = h.due := by
  unfold Hub.expireHoldover
  split <;> simp

end Sys2Proof.Machine
end

