-- ==== Sys2Proof/Laws/LayoutFrames.lean ====
section
/-! SUPPORT. What each operation of the delay allocator, the decoder and the layout leaves unchanged in the hub. -/

namespace Sys2Proof.Machine

@[simp] theorem Hub.enterZone_frame (z : ZoneId) (x : Zone) (h : Hub) :
    (h.enterZone z x).clock = h.clock ∧ (h.enterZone z x).decoder = h.decoder ∧
      (h.enterZone z x).renderer = h.renderer ∧ (h.enterZone z x).lanes = h.lanes ∧
      (h.enterZone z x).protection = h.protection ∧ (h.enterZone z x).radio = h.radio ∧
      (h.enterZone z x).station = h.station ∧ (h.enterZone z x).standby = h.standby ∧
      (h.enterZone z x).outbox = h.outbox := by
  exact ⟨rfl, rfl, rfl, rfl, rfl, rfl, rfl, rfl, rfl⟩

@[simp] theorem Hub.postZoneState_frame (z : ZoneId) (h : Hub) :
    (h.postZoneState z).clock = h.clock ∧ (h.postZoneState z).zones = h.zones ∧
      (h.postZoneState z).decoder = h.decoder ∧ (h.postZoneState z).renderer = h.renderer ∧
      (h.postZoneState z).lanes = h.lanes ∧ (h.postZoneState z).protection = h.protection ∧
      (h.postZoneState z).radio = h.radio ∧ (h.postZoneState z).station = h.station ∧
      (h.postZoneState z).standby = h.standby ∧ (h.postZoneState z).due = h.due := by
  exact ⟨rfl, rfl, rfl, rfl, rfl, rfl, rfl, rfl, rfl, rfl⟩

@[simp] theorem Hub.holdItem_frame (join : Items → Items) (z : ZoneId) (h : Hub) :
    (h.holdItem join z).clock = h.clock ∧ (h.holdItem join z).decoder = h.decoder ∧
      (h.holdItem join z).renderer = h.renderer ∧ (h.holdItem join z).lanes = h.lanes ∧
      (h.holdItem join z).protection = h.protection ∧ (h.holdItem join z).radio = h.radio ∧
      (h.holdItem join z).station = h.station ∧ (h.holdItem join z).standby = h.standby := by
  unfold Hub.holdItem
  dsimp only
  split <;> simp

@[simp] theorem Hub.squeeze_frame (z : ZoneId) (h : Hub) :
    (h.squeeze z).clock = h.clock ∧ (h.squeeze z).decoder = h.decoder ∧ (h.squeeze z).renderer = h.renderer ∧
      (h.squeeze z).lanes = h.lanes ∧ (h.squeeze z).protection = h.protection ∧ (h.squeeze z).radio = h.radio ∧
      (h.squeeze z).station = h.station ∧ (h.squeeze z).standby = h.standby ∧ (h.squeeze z).due = h.due ∧
      (h.squeeze z).outbox = h.outbox := by
  unfold Hub.squeeze
  dsimp only
  split <;> simp

@[simp] theorem Hub.makeRoomFrom_frame (skip : Option ZoneId) (extra : Nat) (z : ZoneId) (h : Hub) :
    (h.makeRoomFrom skip extra z).clock = h.clock ∧ (h.makeRoomFrom skip extra z).decoder = h.decoder ∧
      (h.makeRoomFrom skip extra z).renderer = h.renderer ∧ (h.makeRoomFrom skip extra z).lanes = h.lanes ∧
      (h.makeRoomFrom skip extra z).protection = h.protection ∧ (h.makeRoomFrom skip extra z).radio = h.radio ∧
      (h.makeRoomFrom skip extra z).station = h.station ∧ (h.makeRoomFrom skip extra z).standby = h.standby ∧
      (h.makeRoomFrom skip extra z).due = h.due ∧ (h.makeRoomFrom skip extra z).outbox = h.outbox := by
  unfold Hub.makeRoomFrom
  split <;> simp

@[simp] theorem Hub.makeRoom_frame (skip : Option ZoneId) (extra : Nat) (h : Hub) :
    (h.makeRoom skip extra).clock = h.clock ∧ (h.makeRoom skip extra).decoder = h.decoder ∧
      (h.makeRoom skip extra).renderer = h.renderer ∧ (h.makeRoom skip extra).lanes = h.lanes ∧
      (h.makeRoom skip extra).protection = h.protection ∧ (h.makeRoom skip extra).radio = h.radio ∧
      (h.makeRoom skip extra).station = h.station ∧ (h.makeRoom skip extra).standby = h.standby ∧
      (h.makeRoom skip extra).due = h.due ∧ (h.makeRoom skip extra).outbox = h.outbox := by
  simp [Hub.makeRoom]

@[simp] theorem Hub.applyLipsync_frame (z : ZoneId) (h : Hub) :
    (h.applyLipsync z).clock = h.clock ∧ (h.applyLipsync z).decoder = h.decoder ∧
      (h.applyLipsync z).renderer = h.renderer ∧ (h.applyLipsync z).lanes = h.lanes ∧
      (h.applyLipsync z).protection = h.protection ∧ (h.applyLipsync z).radio = h.radio ∧
      (h.applyLipsync z).station = h.station ∧ (h.applyLipsync z).standby = h.standby ∧
      (h.applyLipsync z).due = h.due ∧ (h.applyLipsync z).outbox = h.outbox := by
  simp [Hub.applyLipsync]

@[simp] theorem Hub.tellGrant_frame (z : ZoneId) (ms : Nat) (h : Hub) :
    (h.tellGrant z ms).clock = h.clock ∧ (h.tellGrant z ms).decoder = h.decoder ∧
      (h.tellGrant z ms).renderer = h.renderer ∧ (h.tellGrant z ms).lanes = h.lanes ∧
      (h.tellGrant z ms).protection = h.protection ∧ (h.tellGrant z ms).radio = h.radio ∧
      (h.tellGrant z ms).station = h.station ∧ (h.tellGrant z ms).standby = h.standby := by
  unfold Hub.tellGrant
  dsimp only
  split <;> simp

@[simp] theorem Hub.applyGrant_frame (z : ZoneId) (h : Hub) :
    (h.applyGrant z).clock = h.clock ∧ (h.applyGrant z).decoder = h.decoder ∧
      (h.applyGrant z).renderer = h.renderer ∧ (h.applyGrant z).lanes = h.lanes ∧
      (h.applyGrant z).protection = h.protection ∧ (h.applyGrant z).radio = h.radio ∧
      (h.applyGrant z).station = h.station ∧ (h.applyGrant z).standby = h.standby ∧ (h.applyGrant z).due = h.due ∧
      (h.applyGrant z).outbox = h.outbox := by
  unfold Hub.applyGrant
  split <;> simp

@[simp] theorem Hub.recompute_frame (h : Hub) :
    (h.recompute).clock = h.clock ∧ (h.recompute).decoder = h.decoder ∧ (h.recompute).renderer = h.renderer ∧
      (h.recompute).lanes = h.lanes ∧ (h.recompute).protection = h.protection ∧ (h.recompute).radio = h.radio ∧
      (h.recompute).station = h.station ∧ (h.recompute).standby = h.standby := by
  simp [Hub.recompute]

@[simp] theorem Hub.adoptDecode_frame (h : Hub) :
    (h.adoptDecode).clock = h.clock ∧ (h.adoptDecode).zones = h.zones ∧ (h.adoptDecode).lanes = h.lanes ∧
      (h.adoptDecode).protection = h.protection ∧ (h.adoptDecode).radio = h.radio ∧
      (h.adoptDecode).station = h.station ∧ (h.adoptDecode).standby = h.standby ∧ (h.adoptDecode).due = h.due := by
  unfold Hub.adoptDecode
  dsimp only
  split <;> simp

@[simp] theorem Hub.applyDecode_frame (h : Hub) :
    (h.applyDecode).clock = h.clock ∧ (h.applyDecode).zones = h.zones ∧ (h.applyDecode).lanes = h.lanes ∧
      (h.applyDecode).protection = h.protection ∧ (h.applyDecode).radio = h.radio ∧
      (h.applyDecode).station = h.station ∧ (h.applyDecode).standby = h.standby ∧ (h.applyDecode).due = h.due := by
  simp [Hub.applyDecode]

@[simp] theorem Hub.handover_frame (src : Vector Source 8) (i : SourceId) (h : Hub) :
    (h.handover src i).clock = h.clock ∧ (h.handover src i).zones = h.zones ∧ (h.handover src i).lanes = h.lanes ∧
      (h.handover src i).protection = h.protection ∧ (h.handover src i).radio = h.radio ∧
      (h.handover src i).station = h.station ∧ (h.handover src i).standby = h.standby ∧
      (h.handover src i).due = h.due := by
  simp [Hub.handover]

@[simp] theorem Hub.decideBlock_frame (src : Vector Source 8) (h : Hub) :
    (h.decideBlock src).clock = h.clock ∧ (h.decideBlock src).zones = h.zones ∧
      (h.decideBlock src).lanes = h.lanes ∧ (h.decideBlock src).protection = h.protection ∧
      (h.decideBlock src).radio = h.radio ∧ (h.decideBlock src).station = h.station ∧
      (h.decideBlock src).standby = h.standby ∧ (h.decideBlock src).due = h.due ∧
      (h.decideBlock src).outbox = h.outbox := by
  exact ⟨rfl, rfl, rfl, rfl, rfl, rfl, rfl, rfl, rfl⟩

@[simp] theorem Hub.adoptLayout_frame (h : Hub) :
    (h.adoptLayout).clock = h.clock ∧ (h.adoptLayout).decoder = h.decoder ∧ (h.adoptLayout).lanes = h.lanes ∧
      (h.adoptLayout).protection = h.protection ∧ (h.adoptLayout).radio = h.radio ∧
      (h.adoptLayout).station = h.station ∧ (h.adoptLayout).standby = h.standby := by
  unfold Hub.adoptLayout
  dsimp only
  repeat' split
  all_goals simp

@[simp] theorem Hub.applyLayout_frame (h : Hub) :
    (h.applyLayout).clock = h.clock ∧ (h.applyLayout).decoder = h.decoder ∧ (h.applyLayout).lanes = h.lanes ∧
      (h.applyLayout).protection = h.protection ∧ (h.applyLayout).radio = h.radio ∧
      (h.applyLayout).station = h.station ∧ (h.applyLayout).standby = h.standby := by
  simp [Hub.applyLayout]

@[simp] theorem Hub.rewriteDerived_frame (x : Layout) (h : Hub) :
    (h.rewriteDerived x).clock = h.clock ∧ (h.rewriteDerived x).decoder = h.decoder ∧
      (h.rewriteDerived x).lanes = h.lanes ∧ (h.rewriteDerived x).protection = h.protection ∧
      (h.rewriteDerived x).radio = h.radio ∧ (h.rewriteDerived x).station = h.station ∧
      (h.rewriteDerived x).standby = h.standby := by
  unfold Hub.rewriteDerived
  split <;> simp

@[simp] theorem Hub.takeDerived_frame (cause : Cause) (b : Bool) (h : Hub) :
    (h.takeDerived cause b).clock = h.clock ∧ (h.takeDerived cause b).decoder = h.decoder ∧
      (h.takeDerived cause b).lanes = h.lanes ∧ (h.takeDerived cause b).protection = h.protection ∧
      (h.takeDerived cause b).radio = h.radio ∧ (h.takeDerived cause b).station = h.station ∧
      (h.takeDerived cause b).standby = h.standby := by
  unfold Hub.takeDerived Hub.raiseItem
  dsimp only
  repeat' split
  all_goals simp

@[simp] theorem Hub.deriveLayout_frame (cause : Cause) (h : Hub) :
    (h.deriveLayout cause).clock = h.clock ∧ (h.deriveLayout cause).decoder = h.decoder ∧
      (h.deriveLayout cause).lanes = h.lanes ∧ (h.deriveLayout cause).protection = h.protection ∧
      (h.deriveLayout cause).radio = h.radio ∧ (h.deriveLayout cause).station = h.station ∧
      (h.deriveLayout cause).standby = h.standby := by
  simp [Hub.deriveLayout]

@[simp] theorem Hub.adoptForFault_frame (h : Hub) :
    (h.adoptForFault).clock = h.clock ∧ (h.adoptForFault).decoder = h.decoder ∧
      (h.adoptForFault).lanes = h.lanes ∧ (h.adoptForFault).protection = h.protection ∧
      (h.adoptForFault).radio = h.radio ∧ (h.adoptForFault).station = h.station ∧
      (h.adoptForFault).standby = h.standby := by
  simp [Hub.adoptForFault]

end Sys2Proof.Machine
end

