-- ==== Sys2Proof/Laws/ZoneFrames.lean ====
section
/-! SUPPORT. What each operation of the Zone Router leaves unchanged in the hub. -/

namespace Sys2Proof.Machine

@[simp] theorem Hub.clearLines_frame (z : ZoneId) (h : Hub) :
    (h.clearLines z).clock = h.clock ∧ (h.clearLines z).decoder = h.decoder ∧ (h.clearLines z).lanes = h.lanes ∧
      (h.clearLines z).protection = h.protection ∧ (h.clearLines z).radio = h.radio ∧
      (h.clearLines z).station = h.station ∧ (h.clearLines z).standby = h.standby ∧ (h.clearLines z).due = h.due ∧
      (h.clearLines z).outbox = h.outbox := by
  unfold Hub.clearLines
  split <;> simp

@[simp] theorem Hub.makeCurrent_frame (src : Vector Source 8) (z : ZoneId) (i : SourceId) (h : Hub) :
    (h.makeCurrent src z i).clock = h.clock ∧ (h.makeCurrent src z i).lanes = h.lanes ∧
      (h.makeCurrent src z i).protection = h.protection ∧ (h.makeCurrent src z i).radio = h.radio ∧
      (h.makeCurrent src z i).station = h.station ∧ (h.makeCurrent src z i).standby = h.standby ∧
      (h.makeCurrent src z i).due = h.due := by
  unfold Hub.makeCurrent
  split <;> simp

@[simp] theorem Hub.zoneOff_frame (z : ZoneId) (h : Hub) :
    (h.zoneOff z).clock = h.clock ∧ (h.zoneOff z).lanes = h.lanes ∧ (h.zoneOff z).protection = h.protection ∧
      (h.zoneOff z).radio = h.radio ∧ (h.zoneOff z).station = h.station ∧ (h.zoneOff z).standby = h.standby ∧
      (h.zoneOff z).outbox = h.outbox := by
  unfold Hub.zoneOff
  split <;> simp

@[simp] theorem Hub.followMain_frame (src : Vector Source 8) (z : ZoneId) (h : Hub) :
    (h.followMain src z).zones = h.zones ∧ (h.followMain src z).decoder = h.decoder ∧
      (h.followMain src z).renderer = h.renderer ∧ (h.followMain src z).lanes = h.lanes ∧
      (h.followMain src z).protection = h.protection ∧ (h.followMain src z).radio = h.radio ∧
      (h.followMain src z).station = h.station ∧ (h.followMain src z).standby = h.standby ∧
      (h.followMain src z).due = h.due := by
  unfold Hub.followMain
  split <;> simp

@[simp] theorem Hub.applyItems_frame (z : ZoneId) (h : Hub) :
    (h.applyItems z).clock = h.clock ∧ (h.applyItems z).lanes = h.lanes ∧
      (h.applyItems z).protection = h.protection ∧ (h.applyItems z).radio = h.radio ∧
      (h.applyItems z).station = h.station ∧ (h.applyItems z).standby = h.standby := by
  unfold Hub.applyItems
  dsimp only
  repeat' split
  all_goals simp

@[simp] theorem Hub.leaveFade_frame (src : Vector Source 8) (z : ZoneId) (p : Purpose) (h : Hub) :
    (h.leaveFade src z p).clock = h.clock ∧ (h.leaveFade src z p).lanes = h.lanes ∧
      (h.leaveFade src z p).protection = h.protection ∧ (h.leaveFade src z p).radio = h.radio ∧
      (h.leaveFade src z p).station = h.station ∧ (h.leaveFade src z p).standby = h.standby := by
  unfold Hub.leaveFade
  dsimp only
  repeat' split
  all_goals simp

@[simp] theorem Hub.endFadeOut_frame (src : Vector Source 8) (z : ZoneId) (h : Hub) :
    (h.endFadeOut src z).lanes = h.lanes ∧ (h.endFadeOut src z).protection = h.protection ∧
      (h.endFadeOut src z).radio = h.radio ∧ (h.endFadeOut src z).station = h.station ∧
      (h.endFadeOut src z).standby = h.standby := by
  unfold Hub.endFadeOut
  split <;> simp

@[simp] theorem Hub.zoneSourceLeaves_frame (src : Vector Source 8) (i : SourceId) (z : ZoneId) (h : Hub) :
    (h.zoneSourceLeaves src i z).lanes = h.lanes ∧ (h.zoneSourceLeaves src i z).protection = h.protection ∧
      (h.zoneSourceLeaves src i z).radio = h.radio ∧ (h.zoneSourceLeaves src i z).station = h.station ∧
      (h.zoneSourceLeaves src i z).standby = h.standby := by
  unfold Hub.zoneSourceLeaves
  dsimp only
  repeat' split
  all_goals simp

@[simp] theorem Hub.zoneSourceEnters_frame (i : SourceId) (z : ZoneId) (h : Hub) :
    (h.zoneSourceEnters i z).clock = h.clock ∧ (h.zoneSourceEnters i z).decoder = h.decoder ∧
      (h.zoneSourceEnters i z).renderer = h.renderer ∧ (h.zoneSourceEnters i z).lanes = h.lanes ∧
      (h.zoneSourceEnters i z).protection = h.protection ∧ (h.zoneSourceEnters i z).radio = h.radio ∧
      (h.zoneSourceEnters i z).station = h.station ∧ (h.zoneSourceEnters i z).standby = h.standby := by
  unfold Hub.zoneSourceEnters
  dsimp only
  split <;> simp

@[simp] theorem Hub.rederiveSilently_frame (src : Vector Source 8) (h : Hub) :
    (h.rederive id src).clock = h.clock ∧ (h.rederive id src).lanes = h.lanes ∧
      (h.rederive id src).protection = h.protection ∧ (h.rederive id src).radio = h.radio ∧
      (h.rederive id src).station = h.station ∧ (h.rederive id src).standby = h.standby := by
  unfold Hub.rederive Hub.raiseItem
  dsimp only
  repeat' split
  all_goals simp

@[simp] theorem Hub.sourceChanged_frame (src : Vector Source 8) (i : SourceId) (was b : Bool) (h : Hub) :
    (h.sourceChanged src i was b).lanes = h.lanes ∧ (h.sourceChanged src i was b).protection = h.protection ∧
      (h.sourceChanged src i was b).radio = h.radio ∧ (h.sourceChanged src i was b).station = h.station ∧
      (h.sourceChanged src i was b).standby = h.standby := by
  unfold Hub.sourceChanged
  dsimp only
  repeat' split
  all_goals simp

@[simp] theorem Hub.zoneBlockStart_frame (z : ZoneId) (h : Hub) :
    (h.zoneBlockStart z).clock = h.clock ∧ (h.zoneBlockStart z).decoder = h.decoder ∧
      (h.zoneBlockStart z).renderer = h.renderer ∧ (h.zoneBlockStart z).lanes = h.lanes ∧
      (h.zoneBlockStart z).protection = h.protection ∧ (h.zoneBlockStart z).radio = h.radio ∧
      (h.zoneBlockStart z).station = h.station ∧ (h.zoneBlockStart z).standby = h.standby ∧
      (h.zoneBlockStart z).outbox = h.outbox := by
  unfold Hub.zoneBlockStart
  dsimp only
  split <;> simp

@[simp] theorem Hub.decideForMain_frame (src : Vector Source 8) (z : ZoneId) (h : Hub) :
    (h.decideForMain src z).clock = h.clock ∧ (h.decideForMain src z).zones = h.zones ∧
      (h.decideForMain src z).lanes = h.lanes ∧ (h.decideForMain src z).protection = h.protection ∧
      (h.decideForMain src z).radio = h.radio ∧ (h.decideForMain src z).station = h.station ∧
      (h.decideForMain src z).standby = h.standby ∧ (h.decideForMain src z).due = h.due ∧
      (h.decideForMain src z).outbox = h.outbox := by
  unfold Hub.decideForMain
  split <;> simp

@[simp] theorem Hub.takeFadeOutEnd_frame (src : Vector Source 8) (z : ZoneId) (h : Hub) :
    (h.takeFadeOutEnd src z).lanes = h.lanes ∧ (h.takeFadeOutEnd src z).protection = h.protection ∧
      (h.takeFadeOutEnd src z).radio = h.radio ∧ (h.takeFadeOutEnd src z).station = h.station ∧
      (h.takeFadeOutEnd src z).standby = h.standby := by
  unfold Hub.takeFadeOutEnd
  dsimp only
  repeat' split
  all_goals simp

@[simp] theorem Hub.takeFadeInEnd_frame (z : ZoneId) (h : Hub) :
    (h.takeFadeInEnd z).clock = h.clock ∧ (h.takeFadeInEnd z).decoder = h.decoder ∧
      (h.takeFadeInEnd z).renderer = h.renderer ∧ (h.takeFadeInEnd z).lanes = h.lanes ∧
      (h.takeFadeInEnd z).protection = h.protection ∧ (h.takeFadeInEnd z).radio = h.radio ∧
      (h.takeFadeInEnd z).station = h.station ∧ (h.takeFadeInEnd z).standby = h.standby := by
  unfold Hub.takeFadeInEnd
  dsimp only
  split <;> simp

@[simp] theorem Hub.takeNoSignal_frame (z : ZoneId) (h : Hub) :
    (h.takeNoSignal z).clock = h.clock ∧ (h.takeNoSignal z).decoder = h.decoder ∧
      (h.takeNoSignal z).renderer = h.renderer ∧ (h.takeNoSignal z).lanes = h.lanes ∧
      (h.takeNoSignal z).protection = h.protection ∧ (h.takeNoSignal z).radio = h.radio ∧
      (h.takeNoSignal z).station = h.station ∧ (h.takeNoSignal z).standby = h.standby ∧
      (h.takeNoSignal z).due = h.due := by
  unfold Hub.takeNoSignal
  dsimp only
  split <;> simp

@[simp] theorem Hub.startZone_frame (src : Vector Source 8) (z : ZoneId) (h : Hub) :
    (h.startZone src z).clock = h.clock ∧ (h.startZone src z).lanes = h.lanes ∧
      (h.startZone src z).protection = h.protection ∧ (h.startZone src z).radio = h.radio ∧
      (h.startZone src z).station = h.station ∧ (h.startZone src z).standby = h.standby := by
  simp [Hub.startZone]

@[simp] theorem Hub.zonePowerOn_frame (src : Vector Source 8) (z : ZoneId) (h : Hub) :
    (h.zonePowerOn src z).lanes = h.lanes ∧ (h.zonePowerOn src z).protection = h.protection ∧
      (h.zonePowerOn src z).radio = h.radio ∧ (h.zonePowerOn src z).station = h.station ∧
      (h.zonePowerOn src z).standby = h.standby := by
  unfold Hub.zonePowerOn
  dsimp only
  split <;> simp

@[simp] theorem Hub.zonePowerOff_frame (src : Vector Source 8) (z : ZoneId) (h : Hub) :
    (h.zonePowerOff src z).lanes = h.lanes ∧ (h.zonePowerOff src z).protection = h.protection ∧
      (h.zonePowerOff src z).radio = h.radio ∧ (h.zonePowerOff src z).station = h.station ∧
      (h.zonePowerOff src z).standby = h.standby := by
  unfold Hub.zonePowerOff
  dsimp only
  split <;> simp

@[simp] theorem Hub.selectSource_frame (src : Vector Source 8) (z : ZoneId) (i : SourceId) (h : Hub) :
    (h.selectSource src z i).lanes = h.lanes ∧ (h.selectSource src z i).protection = h.protection ∧
      (h.selectSource src z i).radio = h.radio ∧ (h.selectSource src z i).station = h.station ∧
      (h.selectSource src z i).standby = h.standby := by
  unfold Hub.selectSource
  dsimp only
  repeat' split
  all_goals simp

end Sys2Proof.Machine
end

