-- ==== Sys2Proof/Laws/LaneFrames.lean ====
section
/-! SUPPORT. What each operation of the Lane Supervisor leaves unchanged in the hub. -/

namespace Sys2Proof.Machine

/-- What each lane's turn keeps, the turns of all lanes keep. -/
theorem Hub.eachLane_keeps {α : Type} (g : Hub → α) (f : LaneId → Hub → Hub) (keeps : ∀ l h, g (f l h) = g h) (h : Hub) :
    g (h.eachLane f) = g h := by
  have all : ∀ (ls : List LaneId) (k : Hub), g (ls.foldl (fun m l => f l m) k) = g k := by
    intro ls
    induction ls with
    | nil => exact fun _ => rfl
    | cons l ls ih => exact fun k => (ih (f l k)).trans (keeps l k)
  exact all allLanes h

@[simp] theorem Hub.postLaneState_frame (l : LaneId) (h : Hub) :
    (h.postLaneState l).clock = h.clock ∧ (h.postLaneState l).zones = h.zones ∧
      (h.postLaneState l).decoder = h.decoder ∧ (h.postLaneState l).renderer = h.renderer ∧
      (h.postLaneState l).lanes = h.lanes ∧ (h.postLaneState l).protection = h.protection ∧
      (h.postLaneState l).radio = h.radio ∧ (h.postLaneState l).station = h.station ∧
      (h.postLaneState l).standby = h.standby ∧ (h.postLaneState l).due = h.due := by
  exact ⟨rfl, rfl, rfl, rfl, rfl, rfl, rfl, rfl, rfl, rfl⟩

@[simp] theorem Hub.openRelay_frame (l : LaneId) (h : Hub) :
    (h.openRelay l).clock = h.clock ∧ (h.openRelay l).decoder = h.decoder ∧
      (h.openRelay l).protection = h.protection ∧ (h.openRelay l).radio = h.radio ∧
      (h.openRelay l).station = h.station ∧ (h.openRelay l).standby = h.standby := by
  unfold Hub.openRelay
  dsimp only
  split <;> simp

@[simp] theorem Hub.trip_frame (l : LaneId) (h : Hub) :
    (h.trip l).clock = h.clock ∧ (h.trip l).decoder = h.decoder ∧ (h.trip l).protection = h.protection ∧
      (h.trip l).radio = h.radio ∧ (h.trip l).station = h.station ∧ (h.trip l).standby = h.standby := by
  unfold Hub.trip
  dsimp only
  split <;> simp

@[simp] theorem Hub.enterClosing_frame (l : LaneId) (h : Hub) :
    (h.enterClosing l).clock = h.clock ∧ (h.enterClosing l).decoder = h.decoder ∧
      (h.enterClosing l).protection = h.protection ∧ (h.enterClosing l).radio = h.radio ∧
      (h.enterClosing l).station = h.station ∧ (h.enterClosing l).standby = h.standby := by
  unfold Hub.enterClosing
  split <;> simp

@[simp] theorem Hub.enterOpening_frame (l : LaneId) (h : Hub) :
    (h.enterOpening l).clock = h.clock ∧ (h.enterOpening l).zones = h.zones ∧
      (h.enterOpening l).decoder = h.decoder ∧ (h.enterOpening l).renderer = h.renderer ∧
      (h.enterOpening l).protection = h.protection ∧ (h.enterOpening l).radio = h.radio ∧
      (h.enterOpening l).station = h.station ∧ (h.enterOpening l).standby = h.standby ∧
      (h.enterOpening l).due = h.due := by
  exact ⟨rfl, rfl, rfl, rfl, rfl, rfl, rfl, rfl, rfl⟩

@[simp] theorem Hub.examine_frame (l : LaneId) (h : Hub) :
    (h.examine l).clock = h.clock ∧ (h.examine l).decoder = h.decoder ∧ (h.examine l).protection = h.protection ∧
      (h.examine l).radio = h.radio ∧ (h.examine l).station = h.station ∧ (h.examine l).standby = h.standby := by
  unfold Hub.examine
  dsimp only
  split <;> simp

@[simp] theorem Hub.examineAll_frame (h : Hub) :
    (h.examineAll).clock = h.clock ∧ (h.examineAll).decoder = h.decoder ∧
      (h.examineAll).protection = h.protection ∧ (h.examineAll).radio = h.radio ∧
      (h.examineAll).station = h.station ∧ (h.examineAll).standby = h.standby := by
  exact ⟨Hub.eachLane_keeps Hub.clock Hub.examine (by simp) h,
    Hub.eachLane_keeps Hub.decoder Hub.examine (by simp) h,
    Hub.eachLane_keeps Hub.protection Hub.examine (by simp) h,
    Hub.eachLane_keeps Hub.radio Hub.examine (by simp) h,
    Hub.eachLane_keeps Hub.station Hub.examine (by simp) h,
    Hub.eachLane_keeps Hub.standby Hub.examine (by simp) h⟩

@[simp] theorem Hub.enterOpen_frame (l : LaneId) (h : Hub) :
    (h.enterOpen l).clock = h.clock ∧ (h.enterOpen l).decoder = h.decoder ∧
      (h.enterOpen l).protection = h.protection ∧ (h.enterOpen l).radio = h.radio ∧
      (h.enterOpen l).station = h.station ∧ (h.enterOpen l).standby = h.standby := by
  simp [Hub.enterOpen]

@[simp] theorem Hub.openAtOnce_frame (l : LaneId) (h : Hub) :
    (h.openAtOnce l).clock = h.clock ∧ (h.openAtOnce l).decoder = h.decoder ∧
      (h.openAtOnce l).protection = h.protection ∧ (h.openAtOnce l).radio = h.radio ∧
      (h.openAtOnce l).station = h.station ∧ (h.openAtOnce l).standby = h.standby := by
  unfold Hub.openAtOnce
  split <;> simp

@[simp] theorem Hub.openEvery_frame (h : Hub) :
    (h.eachLane Hub.openAtOnce).clock = h.clock ∧ (h.eachLane Hub.openAtOnce).decoder = h.decoder ∧
      (h.eachLane Hub.openAtOnce).protection = h.protection ∧ (h.eachLane Hub.openAtOnce).radio = h.radio ∧
      (h.eachLane Hub.openAtOnce).station = h.station ∧ (h.eachLane Hub.openAtOnce).standby = h.standby := by
  exact ⟨Hub.eachLane_keeps Hub.clock Hub.openAtOnce (by simp) h,
    Hub.eachLane_keeps Hub.decoder Hub.openAtOnce (by simp) h,
    Hub.eachLane_keeps Hub.protection Hub.openAtOnce (by simp) h,
    Hub.eachLane_keeps Hub.radio Hub.openAtOnce (by simp) h,
    Hub.eachLane_keeps Hub.station Hub.openAtOnce (by simp) h,
    Hub.eachLane_keeps Hub.standby Hub.openAtOnce (by simp) h⟩

@[simp] theorem Hub.assignNow_frame (l : LaneId) (t : Fin 12) (h : Hub) :
    (h.assignNow l t).clock = h.clock ∧ (h.assignNow l t).decoder = h.decoder ∧
      (h.assignNow l t).protection = h.protection ∧ (h.assignNow l t).radio = h.radio ∧
      (h.assignNow l t).station = h.station ∧ (h.assignNow l t).standby = h.standby := by
  simp [Hub.assignNow]

@[simp] theorem Hub.assign_frame (l : LaneId) (t : Fin 12) (h : Hub) :
    (h.assign l t).clock = h.clock ∧ (h.assign l t).decoder = h.decoder ∧
      (h.assign l t).protection = h.protection ∧ (h.assign l t).radio = h.radio ∧
      (h.assign l t).station = h.station ∧ (h.assign l t).standby = h.standby := by
  unfold Hub.assign
  dsimp only
  repeat' split
  all_goals simp

@[simp] theorem Hub.laneBlockStart_frame (l : LaneId) (h : Hub) :
    (h.laneBlockStart l).clock = h.clock ∧ (h.laneBlockStart l).zones = h.zones ∧
      (h.laneBlockStart l).decoder = h.decoder ∧ (h.laneBlockStart l).renderer = h.renderer ∧
      (h.laneBlockStart l).protection = h.protection ∧ (h.laneBlockStart l).radio = h.radio ∧
      (h.laneBlockStart l).station = h.station ∧ (h.laneBlockStart l).standby = h.standby ∧
      (h.laneBlockStart l).outbox = h.outbox := by
  simp [Hub.laneBlockStart]

@[simp] theorem Hub.takeRelayClosed_frame (l : LaneId) (h : Hub) :
    (h.takeRelayClosed l).clock = h.clock ∧ (h.takeRelayClosed l).zones = h.zones ∧
      (h.takeRelayClosed l).decoder = h.decoder ∧ (h.takeRelayClosed l).renderer = h.renderer ∧
      (h.takeRelayClosed l).protection = h.protection ∧ (h.takeRelayClosed l).radio = h.radio ∧
      (h.takeRelayClosed l).station = h.station ∧ (h.takeRelayClosed l).standby = h.standby ∧
      (h.takeRelayClosed l).due = h.due := by
  unfold Hub.takeRelayClosed
  dsimp only
  split <;> simp

@[simp] theorem Hub.takeRampEnd_frame (l : LaneId) (h : Hub) :
    (h.takeRampEnd l).clock = h.clock ∧ (h.takeRampEnd l).zones = h.zones ∧
      (h.takeRampEnd l).decoder = h.decoder ∧ (h.takeRampEnd l).renderer = h.renderer ∧
      (h.takeRampEnd l).protection = h.protection ∧ (h.takeRampEnd l).radio = h.radio ∧
      (h.takeRampEnd l).station = h.station ∧ (h.takeRampEnd l).standby = h.standby ∧
      (h.takeRampEnd l).due = h.due := by
  unfold Hub.takeRampEnd
  split <;> simp

@[simp] theorem Hub.takeRelayOpened_frame (l : LaneId) (h : Hub) :
    (h.takeRelayOpened l).clock = h.clock ∧ (h.takeRelayOpened l).decoder = h.decoder ∧
      (h.takeRelayOpened l).protection = h.protection ∧ (h.takeRelayOpened l).radio = h.radio ∧
      (h.takeRelayOpened l).station = h.station ∧ (h.takeRelayOpened l).standby = h.standby := by
  unfold Hub.takeRelayOpened
  split <;> simp

@[simp] theorem Hub.takeRetryEnd_frame (l : LaneId) (h : Hub) :
    (h.takeRetryEnd l).clock = h.clock ∧ (h.takeRetryEnd l).decoder = h.decoder ∧
      (h.takeRetryEnd l).protection = h.protection ∧ (h.takeRetryEnd l).radio = h.radio ∧
      (h.takeRetryEnd l).station = h.station ∧ (h.takeRetryEnd l).standby = h.standby := by
  unfold Hub.takeRetryEnd
  dsimp only
  split <;> simp

@[simp] theorem Hub.takeTripExpiry_frame (l : LaneId) (h : Hub) :
    (h.takeTripExpiry l).clock = h.clock ∧ (h.takeTripExpiry l).zones = h.zones ∧
      (h.takeTripExpiry l).decoder = h.decoder ∧ (h.takeTripExpiry l).renderer = h.renderer ∧
      (h.takeTripExpiry l).protection = h.protection ∧ (h.takeTripExpiry l).radio = h.radio ∧
      (h.takeTripExpiry l).station = h.station ∧ (h.takeTripExpiry l).standby = h.standby ∧
      (h.takeTripExpiry l).due = h.due ∧ (h.takeTripExpiry l).outbox = h.outbox := by
  exact ⟨rfl, rfl, rfl, rfl, rfl, rfl, rfl, rfl, rfl, rfl⟩

@[simp] theorem Hub.setFaultInput_frame (l : LaneId) (v : Bool) (h : Hub) :
    (h.setFaultInput l v).clock = h.clock ∧ (h.setFaultInput l v).zones = h.zones ∧
      (h.setFaultInput l v).decoder = h.decoder ∧ (h.setFaultInput l v).renderer = h.renderer ∧
      (h.setFaultInput l v).protection = h.protection ∧ (h.setFaultInput l v).radio = h.radio ∧
      (h.setFaultInput l v).station = h.station ∧ (h.setFaultInput l v).standby = h.standby ∧
      (h.setFaultInput l v).due = h.due ∧ (h.setFaultInput l v).outbox = h.outbox ∧
      (h.setFaultInput l v).lanes = h.lanes.set l { h.lanes[l] with faultInput := v } :=
  ⟨rfl, rfl, rfl, rfl, rfl, rfl, rfl, rfl, rfl, rfl, rfl⟩

@[simp] theorem Hub.faultInput_frame (l : LaneId) (v : Bool) (h : Hub) :
    (h.faultInput l v).clock = h.clock ∧ (h.faultInput l v).decoder = h.decoder ∧
      (h.faultInput l v).protection = h.protection ∧ (h.faultInput l v).radio = h.radio ∧
      (h.faultInput l v).station = h.station ∧ (h.faultInput l v).standby = h.standby := by
  unfold Hub.faultInput
  dsimp only
  split <;> simp

@[simp] theorem Hub.dcReading_frame (l : LaneId) (c : BitVec 12) (h : Hub) :
    (h.dcReading l c).clock = h.clock ∧ (h.dcReading l c).decoder = h.decoder ∧
      (h.dcReading l c).protection = h.protection ∧ (h.dcReading l c).radio = h.radio ∧
      (h.dcReading l c).station = h.station ∧ (h.dcReading l c).standby = h.standby := by
  unfold Hub.dcReading
  dsimp only
  repeat' split
  all_goals simp

@[simp] theorem Hub.clearFault_frame (l : LaneId) (b : Bool) (h : Hub) :
    (h.clearFault l b).clock = h.clock ∧ (h.clearFault l b).decoder = h.decoder ∧
      (h.clearFault l b).protection = h.protection ∧ (h.clearFault l b).radio = h.radio ∧
      (h.clearFault l b).station = h.station ∧ (h.clearFault l b).standby = h.standby := by
  unfold Hub.clearFault
  dsimp only
  split <;> simp

@[simp] theorem Hub.judgeTemperature_frame (h : Hub) :
    (h.judgeTemperature).clock = h.clock ∧ (h.judgeTemperature).decoder = h.decoder ∧
      (h.judgeTemperature).radio = h.radio ∧ (h.judgeTemperature).station = h.station ∧
      (h.judgeTemperature).standby = h.standby := by
  unfold Hub.judgeTemperature
  dsimp only
  split <;> simp

@[simp] theorem Hub.takeTemperature_frame (h : Hub) :
    (h.takeTemperature).clock = h.clock ∧ (h.takeTemperature).decoder = h.decoder ∧
      (h.takeTemperature).radio = h.radio ∧ (h.takeTemperature).station = h.station ∧
      (h.takeTemperature).standby = h.standby := by
  simp [Hub.takeTemperature]

@[simp] theorem Hub.adoptDuty_frame (h : Hub) :
    (h.adoptDuty).clock = h.clock ∧ (h.adoptDuty).zones = h.zones ∧ (h.adoptDuty).decoder = h.decoder ∧
      (h.adoptDuty).renderer = h.renderer ∧ (h.adoptDuty).lanes = h.lanes ∧ (h.adoptDuty).radio = h.radio ∧
      (h.adoptDuty).station = h.station ∧ (h.adoptDuty).standby = h.standby ∧ (h.adoptDuty).due = h.due ∧
      (h.adoptDuty).outbox = h.outbox := by
  exact ⟨rfl, rfl, rfl, rfl, rfl, rfl, rfl, rfl, rfl, rfl⟩

@[simp] theorem Hub.onFan_frame (f : Fan → Fan) (h : Hub) :
    (h.onFan f).clock = h.clock ∧ (h.onFan f).zones = h.zones ∧ (h.onFan f).decoder = h.decoder ∧
      (h.onFan f).renderer = h.renderer ∧ (h.onFan f).lanes = h.lanes ∧ (h.onFan f).radio = h.radio ∧
      (h.onFan f).station = h.station ∧ (h.onFan f).standby = h.standby ∧ (h.onFan f).due = h.due ∧
      (h.onFan f).outbox = h.outbox := by
  exact ⟨rfl, rfl, rfl, rfl, rfl, rfl, rfl, rfl, rfl, rfl⟩

@[simp] theorem Hub.onFan_fan (f : Fan → Fan) (h : Hub) :
    (h.onFan f).protection = { h.protection with fan := f h.protection.fan } := rfl

@[simp] theorem Hub.crystalTick_frame (h : Hub) :
    (h.crystalTick).clock = h.clock ∧ (h.crystalTick).zones = h.zones ∧ (h.crystalTick).decoder = h.decoder ∧
      (h.crystalTick).renderer = h.renderer ∧ (h.crystalTick).lanes = h.lanes ∧ (h.crystalTick).radio = h.radio ∧
      (h.crystalTick).station = h.station ∧ (h.crystalTick).standby = h.standby ∧ (h.crystalTick).due = h.due ∧
      (h.crystalTick).outbox = h.outbox := by
  unfold Hub.crystalTick
  split <;> simp

@[simp] theorem Hub.tachPulse_frame (h : Hub) :
    (h.tachPulse).clock = h.clock ∧ (h.tachPulse).zones = h.zones ∧ (h.tachPulse).decoder = h.decoder ∧
      (h.tachPulse).renderer = h.renderer ∧ (h.tachPulse).lanes = h.lanes ∧ (h.tachPulse).radio = h.radio ∧
      (h.tachPulse).station = h.station ∧ (h.tachPulse).standby = h.standby ∧ (h.tachPulse).due = h.due ∧
      (h.tachPulse).outbox = h.outbox := by
  unfold Hub.tachPulse
  split <;> simp

@[simp] theorem Hub.takeFanWindow_frame (h : Hub) :
    (h.takeFanWindow).clock = h.clock ∧ (h.takeFanWindow).decoder = h.decoder ∧
      (h.takeFanWindow).radio = h.radio ∧ (h.takeFanWindow).station = h.station ∧
      (h.takeFanWindow).standby = h.standby := by
  unfold Hub.takeFanWindow
  dsimp only
  repeat' split
  all_goals simp

@[simp] theorem Hub.supplyReading_frame (c : BitVec 12) (h : Hub) :
    (h.supplyReading c).clock = h.clock ∧ (h.supplyReading c).decoder = h.decoder ∧
      (h.supplyReading c).radio = h.radio ∧ (h.supplyReading c).station = h.station ∧
      (h.supplyReading c).standby = h.standby := by
  unfold Hub.supplyReading
  dsimp only
  repeat' split
  all_goals simp

@[simp] theorem Hub.conversion_frame (k : SenseChannel) (c : BitVec 12) (h : Hub) :
    (h.conversion k c).clock = h.clock ∧ (h.conversion k c).decoder = h.decoder ∧
      (h.conversion k c).radio = h.radio ∧ (h.conversion k c).station = h.station ∧
      (h.conversion k c).standby = h.standby := by
  unfold Hub.conversion
  repeat' split
  all_goals simp

end Sys2Proof.Machine
end

