-- ==== Sys2Proof/Laws/RadioFrames.lean ====
section
/-! SUPPORT. What each operation of the Radio Unit and the Station Data Decoder leaves unchanged in the hub. -/

namespace Sys2Proof.Machine

/-- What the taking of each word keeps, the taking of a list of words keeps. -/
theorem Hub.takeWords_keeps {α : Type} (g : Hub → α) (keeps : ∀ w h, g (Hub.takeWord w h) = g h) (ws : List CodeWord) :
    ∀ h, g (Hub.takeWords ws h) = g h := by
  induction ws with
  | nil => exact fun _ => rfl
  | cons w ws ih => exact fun h => (ih (h.takeWord w)).trans (keeps w h)

@[simp] theorem Hub.setStation_frame (x : Station) (h : Hub) :
    (h.setStation x).clock = h.clock ∧ (h.setStation x).zones = h.zones ∧ (h.setStation x).decoder = h.decoder ∧
      (h.setStation x).renderer = h.renderer ∧ (h.setStation x).lanes = h.lanes ∧
      (h.setStation x).protection = h.protection ∧ (h.setStation x).radio = h.radio ∧
      (h.setStation x).standby = h.standby ∧ (h.setStation x).due = h.due ∧ (h.setStation x).outbox = h.outbox := by
  exact ⟨rfl, rfl, rfl, rfl, rfl, rfl, rfl, rfl, rfl, rfl⟩

@[simp] theorem Hub.fillEntry_frame (f : StationEntry → StationEntry) (h : Hub) :
    (h.fillEntry f).clock = h.clock ∧ (h.fillEntry f).zones = h.zones ∧ (h.fillEntry f).decoder = h.decoder ∧
      (h.fillEntry f).renderer = h.renderer ∧ (h.fillEntry f).lanes = h.lanes ∧
      (h.fillEntry f).protection = h.protection ∧ (h.fillEntry f).station = h.station ∧
      (h.fillEntry f).standby = h.standby ∧ (h.fillEntry f).due = h.due ∧ (h.fillEntry f).outbox = h.outbox := by
  unfold Hub.fillEntry
  split <;> simp

@[simp] theorem Hub.adoptCode_frame (c : BitVec 16) (x : Station) (h : Hub) :
    (h.adoptCode c x).clock = h.clock ∧ (h.adoptCode c x).zones = h.zones ∧
      (h.adoptCode c x).decoder = h.decoder ∧ (h.adoptCode c x).renderer = h.renderer ∧
      (h.adoptCode c x).lanes = h.lanes ∧ (h.adoptCode c x).protection = h.protection ∧
      (h.adoptCode c x).standby = h.standby ∧ (h.adoptCode c x).due = h.due := by
  simp [Hub.adoptCode]

@[simp] theorem Hub.codeWord_frame (v : BitVec 16) (h : Hub) :
    (h.codeWord v).clock = h.clock ∧ (h.codeWord v).zones = h.zones ∧ (h.codeWord v).decoder = h.decoder ∧
      (h.codeWord v).renderer = h.renderer ∧ (h.codeWord v).lanes = h.lanes ∧
      (h.codeWord v).protection = h.protection ∧ (h.codeWord v).standby = h.standby ∧ (h.codeWord v).due = h.due := by
  unfold Hub.codeWord
  dsimp only
  repeat' split
  all_goals simp

@[simp] theorem Hub.commitName_frame (h : Hub) :
    (h.commitName).clock = h.clock ∧ (h.commitName).zones = h.zones ∧ (h.commitName).decoder = h.decoder ∧
      (h.commitName).renderer = h.renderer ∧ (h.commitName).lanes = h.lanes ∧
      (h.commitName).protection = h.protection ∧ (h.commitName).standby = h.standby ∧ (h.commitName).due = h.due := by
  unfold Hub.commitName
  repeat' split
  all_goals simp

@[simp] theorem Hub.nameWord_frame (i : Nat) (v : BitVec 16) (h : Hub) :
    (h.nameWord i v).clock = h.clock ∧ (h.nameWord i v).zones = h.zones ∧ (h.nameWord i v).decoder = h.decoder ∧
      (h.nameWord i v).renderer = h.renderer ∧ (h.nameWord i v).lanes = h.lanes ∧
      (h.nameWord i v).protection = h.protection ∧ (h.nameWord i v).standby = h.standby ∧
      (h.nameWord i v).due = h.due := by
  unfold Hub.nameWord
  dsimp only
  repeat' split
  all_goals simp

@[simp] theorem Hub.commitText_frame (b : Bool) (h : Hub) :
    (h.commitText b).clock = h.clock ∧ (h.commitText b).zones = h.zones ∧ (h.commitText b).decoder = h.decoder ∧
      (h.commitText b).renderer = h.renderer ∧ (h.commitText b).lanes = h.lanes ∧
      (h.commitText b).protection = h.protection ∧ (h.commitText b).standby = h.standby ∧
      (h.commitText b).due = h.due := by
  unfold Hub.commitText
  repeat' split
  all_goals simp

@[simp] theorem Hub.textWord_frame (i : Nat) (b : Bool) (v : BitVec 16) (h : Hub) :
    (h.textWord i b v).clock = h.clock ∧ (h.textWord i b v).zones = h.zones ∧
      (h.textWord i b v).decoder = h.decoder ∧ (h.textWord i b v).renderer = h.renderer ∧
      (h.textWord i b v).lanes = h.lanes ∧ (h.textWord i b v).protection = h.protection ∧
      (h.textWord i b v).standby = h.standby ∧ (h.textWord i b v).due = h.due := by
  unfold Hub.textWord
  split <;> simp

@[simp] theorem Hub.alternativeWord_frame (v : BitVec 16) (h : Hub) :
    (h.alternativeWord v).clock = h.clock ∧ (h.alternativeWord v).zones = h.zones ∧
      (h.alternativeWord v).decoder = h.decoder ∧ (h.alternativeWord v).renderer = h.renderer ∧
      (h.alternativeWord v).lanes = h.lanes ∧ (h.alternativeWord v).protection = h.protection ∧
      (h.alternativeWord v).standby = h.standby ∧ (h.alternativeWord v).due = h.due := by
  unfold Hub.alternativeWord
  dsimp only
  split <;> simp

@[simp] theorem Hub.clockWord_frame (v : BitVec 16) (h : Hub) :
    (h.clockWord v).clock = h.clock ∧ (h.clockWord v).zones = h.zones ∧ (h.clockWord v).decoder = h.decoder ∧
      (h.clockWord v).renderer = h.renderer ∧ (h.clockWord v).lanes = h.lanes ∧
      (h.clockWord v).protection = h.protection ∧ (h.clockWord v).standby = h.standby ∧
      (h.clockWord v).due = h.due := by
  unfold Hub.clockWord
  dsimp only
  split <;> simp

@[simp] theorem Hub.categoryWord_frame (v : BitVec 16) (h : Hub) :
    (h.categoryWord v).clock = h.clock ∧ (h.categoryWord v).zones = h.zones ∧
      (h.categoryWord v).decoder = h.decoder ∧ (h.categoryWord v).renderer = h.renderer ∧
      (h.categoryWord v).lanes = h.lanes ∧ (h.categoryWord v).protection = h.protection ∧
      (h.categoryWord v).standby = h.standby ∧ (h.categoryWord v).due = h.due := by
  unfold Hub.categoryWord
  dsimp only
  split <;> simp

@[simp] theorem Hub.stationData_frame (w : StationWord) (h : Hub) :
    (h.stationData w).clock = h.clock ∧ (h.stationData w).zones = h.zones ∧
      (h.stationData w).decoder = h.decoder ∧ (h.stationData w).renderer = h.renderer ∧
      (h.stationData w).lanes = h.lanes ∧ (h.stationData w).protection = h.protection ∧
      (h.stationData w).standby = h.standby ∧ (h.stationData w).due = h.due := by
  unfold Hub.stationData
  split <;> simp

@[simp] theorem Hub.takeWord_frame (w : CodeWord) (h : Hub) :
    (h.takeWord w).clock = h.clock ∧ (h.takeWord w).zones = h.zones ∧ (h.takeWord w).decoder = h.decoder ∧
      (h.takeWord w).renderer = h.renderer ∧ (h.takeWord w).lanes = h.lanes ∧
      (h.takeWord w).protection = h.protection ∧ (h.takeWord w).standby = h.standby ∧ (h.takeWord w).due = h.due := by
  unfold Hub.takeWord
  dsimp only
  split <;> simp

@[simp] theorem Hub.takeWords_frame (ws : List CodeWord) (h : Hub) :
    (h.takeWords ws).clock = h.clock ∧ (h.takeWords ws).zones = h.zones ∧ (h.takeWords ws).decoder = h.decoder ∧
      (h.takeWords ws).renderer = h.renderer ∧ (h.takeWords ws).lanes = h.lanes ∧
      (h.takeWords ws).protection = h.protection ∧ (h.takeWords ws).standby = h.standby ∧
      (h.takeWords ws).due = h.due := by
  exact ⟨Hub.takeWords_keeps Hub.clock (by simp) ws h,
    Hub.takeWords_keeps Hub.zones (by simp) ws h,
    Hub.takeWords_keeps Hub.decoder (by simp) ws h,
    Hub.takeWords_keeps Hub.renderer (by simp) ws h,
    Hub.takeWords_keeps Hub.lanes (by simp) ws h,
    Hub.takeWords_keeps Hub.protection (by simp) ws h,
    Hub.takeWords_keeps Hub.standby (by simp) ws h,
    Hub.takeWords_keeps Hub.due (by simp) ws h⟩

@[simp] theorem Hub.setRadio_frame (x : Radio) (h : Hub) :
    (h.setRadio x).clock = h.clock ∧ (h.setRadio x).zones = h.zones ∧ (h.setRadio x).decoder = h.decoder ∧
      (h.setRadio x).renderer = h.renderer ∧ (h.setRadio x).lanes = h.lanes ∧
      (h.setRadio x).protection = h.protection ∧ (h.setRadio x).station = h.station ∧
      (h.setRadio x).standby = h.standby ∧ (h.setRadio x).due = h.due ∧ (h.setRadio x).outbox = h.outbox := by
  exact ⟨rfl, rfl, rfl, rfl, rfl, rfl, rfl, rfl, rfl, rfl⟩

@[simp] theorem Hub.deriveHolder_frame (h : Hub) :
    (h.deriveHolder).clock = h.clock ∧ (h.deriveHolder).zones = h.zones ∧ (h.deriveHolder).decoder = h.decoder ∧
      (h.deriveHolder).renderer = h.renderer ∧ (h.deriveHolder).lanes = h.lanes ∧
      (h.deriveHolder).protection = h.protection ∧ (h.deriveHolder).station = h.station ∧
      (h.deriveHolder).standby = h.standby ∧ (h.deriveHolder).due = h.due := by
  simp [Hub.deriveHolder]

@[simp] theorem Hub.startOperation_frame (st : RadioState) (op : Operation) (h : Hub) :
    (h.startOperation st op).clock = h.clock ∧ (h.startOperation st op).zones = h.zones ∧
      (h.startOperation st op).decoder = h.decoder ∧ (h.startOperation st op).renderer = h.renderer ∧
      (h.startOperation st op).lanes = h.lanes ∧ (h.startOperation st op).protection = h.protection ∧
      (h.startOperation st op).standby = h.standby ∧ (h.startOperation st op).due = h.due ∧
      (h.startOperation st op).outbox = h.outbox := by
  exact ⟨rfl, rfl, rfl, rfl, rfl, rfl, rfl, rfl, rfl⟩

@[simp] theorem Hub.enterTuning_frame (k : OpKind) (ph : Phase) (h : Hub) :
    (h.enterTuning k ph).clock = h.clock ∧ (h.enterTuning k ph).zones = h.zones ∧
      (h.enterTuning k ph).decoder = h.decoder ∧ (h.enterTuning k ph).renderer = h.renderer ∧
      (h.enterTuning k ph).lanes = h.lanes ∧ (h.enterTuning k ph).protection = h.protection ∧
      (h.enterTuning k ph).standby = h.standby ∧ (h.enterTuning k ph).due = h.due ∧
      (h.enterTuning k ph).outbox = h.outbox := by
  exact ⟨rfl, rfl, rfl, rfl, rfl, rfl, rfl, rfl, rfl⟩

@[simp] theorem Hub.enterIdle_frame (h : Hub) :
    (h.enterIdle).clock = h.clock ∧ (h.enterIdle).zones = h.zones ∧ (h.enterIdle).decoder = h.decoder ∧
      (h.enterIdle).renderer = h.renderer ∧ (h.enterIdle).lanes = h.lanes ∧
      (h.enterIdle).protection = h.protection ∧ (h.enterIdle).station = h.station ∧
      (h.enterIdle).standby = h.standby ∧ (h.enterIdle).due = h.due ∧ (h.enterIdle).outbox = h.outbox := by
  exact ⟨rfl, rfl, rfl, rfl, rfl, rfl, rfl, rfl, rfl, rfl⟩

@[simp] theorem Hub.postTuned_frame (q : Quality) (h : Hub) :
    (h.postTuned q).clock = h.clock ∧ (h.postTuned q).zones = h.zones ∧ (h.postTuned q).decoder = h.decoder ∧
      (h.postTuned q).renderer = h.renderer ∧ (h.postTuned q).lanes = h.lanes ∧
      (h.postTuned q).protection = h.protection ∧ (h.postTuned q).radio = h.radio ∧
      (h.postTuned q).station = h.station ∧ (h.postTuned q).standby = h.standby ∧ (h.postTuned q).due = h.due := by
  exact ⟨rfl, rfl, rfl, rfl, rfl, rfl, rfl, rfl, rfl, rfl⟩

@[simp] theorem Hub.toPhase_frame (op : Operation) (ph : Phase) (h : Hub) :
    (h.toPhase op ph).clock = h.clock ∧ (h.toPhase op ph).zones = h.zones ∧
      (h.toPhase op ph).decoder = h.decoder ∧ (h.toPhase op ph).renderer = h.renderer ∧
      (h.toPhase op ph).lanes = h.lanes ∧ (h.toPhase op ph).protection = h.protection ∧
      (h.toPhase op ph).station = h.station ∧ (h.toPhase op ph).standby = h.standby ∧
      (h.toPhase op ph).due = h.due ∧ (h.toPhase op ph).outbox = h.outbox := by
  exact ⟨rfl, rfl, rfl, rfl, rfl, rfl, rfl, rfl, rfl, rfl⟩

@[simp] theorem Hub.setBackOff_frame (h : Hub) :
    (h.setBackOff).clock = h.clock ∧ (h.setBackOff).zones = h.zones ∧ (h.setBackOff).decoder = h.decoder ∧
      (h.setBackOff).renderer = h.renderer ∧ (h.setBackOff).lanes = h.lanes ∧
      (h.setBackOff).protection = h.protection ∧ (h.setBackOff).radio = h.radio ∧
      (h.setBackOff).standby = h.standby ∧ (h.setBackOff).due = h.due ∧ (h.setBackOff).outbox = h.outbox := by
  exact ⟨rfl, rfl, rfl, rfl, rfl, rfl, rfl, rfl, rfl, rfl⟩

@[simp] theorem Hub.endOperation_frame (o : SearchOutcome) (h : Hub) :
    (h.endOperation o).clock = h.clock ∧ (h.endOperation o).zones = h.zones ∧
      (h.endOperation o).decoder = h.decoder ∧ (h.endOperation o).renderer = h.renderer ∧
      (h.endOperation o).lanes = h.lanes ∧ (h.endOperation o).protection = h.protection ∧
      (h.endOperation o).radio = h.radio ∧ (h.endOperation o).standby = h.standby ∧ (h.endOperation o).due = h.due := by
  unfold Hub.endOperation
  split <;> simp

@[simp] theorem Hub.tuneTo_frame (z : ZoneId) (f : Freq) (h : Hub) :
    (h.tuneTo z f).clock = h.clock ∧ (h.tuneTo z f).zones = h.zones ∧ (h.tuneTo z f).decoder = h.decoder ∧
      (h.tuneTo z f).renderer = h.renderer ∧ (h.tuneTo z f).lanes = h.lanes ∧
      (h.tuneTo z f).protection = h.protection ∧ (h.tuneTo z f).standby = h.standby ∧ (h.tuneTo z f).due = h.due := by
  unfold Hub.tuneTo
  split <;> simp

@[simp] theorem Hub.startSeek_frame (z : ZoneId) (b : Bool) (h : Hub) :
    (h.startSeek z b).clock = h.clock ∧ (h.startSeek z b).zones = h.zones ∧
      (h.startSeek z b).decoder = h.decoder ∧ (h.startSeek z b).renderer = h.renderer ∧
      (h.startSeek z b).lanes = h.lanes ∧ (h.startSeek z b).protection = h.protection ∧
      (h.startSeek z b).standby = h.standby ∧ (h.startSeek z b).due = h.due := by
  simp [Hub.startSeek]

@[simp] theorem Hub.startScan_frame (z : ZoneId) (b : Band) (h : Hub) :
    (h.startScan z b).clock = h.clock ∧ (h.startScan z b).zones = h.zones ∧
      (h.startScan z b).decoder = h.decoder ∧ (h.startScan z b).renderer = h.renderer ∧
      (h.startScan z b).lanes = h.lanes ∧ (h.startScan z b).protection = h.protection ∧
      (h.startScan z b).standby = h.standby ∧ (h.startScan z b).due = h.due := by
  simp [Hub.startScan]

@[simp] theorem Hub.cancelSearch_frame (h : Hub) :
    (h.cancelSearch).clock = h.clock ∧ (h.cancelSearch).zones = h.zones ∧ (h.cancelSearch).decoder = h.decoder ∧
      (h.cancelSearch).renderer = h.renderer ∧ (h.cancelSearch).lanes = h.lanes ∧
      (h.cancelSearch).protection = h.protection ∧ (h.cancelSearch).standby = h.standby ∧
      (h.cancelSearch).due = h.due := by
  unfold Hub.cancelSearch
  split <;> simp

@[simp] theorem Hub.seekStep_frame (z : ZoneId) (up : Bool) (st : Freq) (k n : Nat) (q : Quality) (h : Hub) :
    (h.seekStep z up st k n q).clock = h.clock ∧ (h.seekStep z up st k n q).zones = h.zones ∧
      (h.seekStep z up st k n q).decoder = h.decoder ∧ (h.seekStep z up st k n q).renderer = h.renderer ∧
      (h.seekStep z up st k n q).lanes = h.lanes ∧ (h.seekStep z up st k n q).protection = h.protection ∧
      (h.seekStep z up st k n q).standby = h.standby ∧ (h.seekStep z up st k n q).due = h.due := by
  unfold Hub.seekStep
  dsimp only
  repeat' split
  all_goals simp

@[simp] theorem Hub.scanStep_frame (z : ZoneId) (b : Band) (k : Nat) (q : Quality) (h : Hub) :
    (h.scanStep z b k q).clock = h.clock ∧ (h.scanStep z b k q).zones = h.zones ∧
      (h.scanStep z b k q).decoder = h.decoder ∧ (h.scanStep z b k q).renderer = h.renderer ∧
      (h.scanStep z b k q).lanes = h.lanes ∧ (h.scanStep z b k q).protection = h.protection ∧
      (h.scanStep z b k q).standby = h.standby ∧ (h.scanStep z b k q).due = h.due := by
  unfold Hub.scanStep
  dsimp only
  repeat' split
  all_goals simp

@[simp] theorem Hub.nextCandidate_frame (v : Nat) (cs : List Nat) (p c : Nat) (h : Hub) :
    (h.nextCandidate v cs p c).clock = h.clock ∧ (h.nextCandidate v cs p c).zones = h.zones ∧
      (h.nextCandidate v cs p c).decoder = h.decoder ∧ (h.nextCandidate v cs p c).renderer = h.renderer ∧
      (h.nextCandidate v cs p c).lanes = h.lanes ∧ (h.nextCandidate v cs p c).protection = h.protection ∧
      (h.nextCandidate v cs p c).standby = h.standby ∧ (h.nextCandidate v cs p c).due = h.due := by
  unfold Hub.nextCandidate
  split <;> simp

@[simp] theorem Hub.measured_frame (op : Operation) (q : Quality) (h : Hub) :
    (h.measured op q).clock = h.clock ∧ (h.measured op q).zones = h.zones ∧
      (h.measured op q).decoder = h.decoder ∧ (h.measured op q).renderer = h.renderer ∧
      (h.measured op q).lanes = h.lanes ∧ (h.measured op q).protection = h.protection ∧
      (h.measured op q).standby = h.standby ∧ (h.measured op q).due = h.due := by
  unfold Hub.measured
  repeat' split
  all_goals simp

@[simp] theorem Hub.polledQuality_frame (q : Quality) (h : Hub) :
    (h.polledQuality q).clock = h.clock ∧ (h.polledQuality q).zones = h.zones ∧
      (h.polledQuality q).decoder = h.decoder ∧ (h.polledQuality q).renderer = h.renderer ∧
      (h.polledQuality q).lanes = h.lanes ∧ (h.polledQuality q).protection = h.protection ∧
      (h.polledQuality q).standby = h.standby ∧ (h.polledQuality q).due = h.due := by
  unfold Hub.polledQuality
  split <;> simp

@[simp] theorem Hub.startFollow_frame (h : Hub) :
    (h.startFollow).clock = h.clock ∧ (h.startFollow).zones = h.zones ∧ (h.startFollow).decoder = h.decoder ∧
      (h.startFollow).renderer = h.renderer ∧ (h.startFollow).lanes = h.lanes ∧
      (h.startFollow).protection = h.protection ∧ (h.startFollow).standby = h.standby ∧
      (h.startFollow).due = h.due := by
  unfold Hub.startFollow
  split <;> simp

@[simp] theorem Hub.switchTo_frame (c : Nat) (h : Hub) :
    (h.switchTo c).clock = h.clock ∧ (h.switchTo c).zones = h.zones ∧ (h.switchTo c).decoder = h.decoder ∧
      (h.switchTo c).renderer = h.renderer ∧ (h.switchTo c).lanes = h.lanes ∧
      (h.switchTo c).protection = h.protection ∧ (h.switchTo c).standby = h.standby ∧ (h.switchTo c).due = h.due := by
  exact ⟨rfl, rfl, rfl, rfl, rfl, rfl, rfl, rfl⟩

@[simp] theorem Hub.followData_frame (op : Operation) (ws : List CodeWord) (h : Hub) :
    (h.followData op ws).clock = h.clock ∧ (h.followData op ws).zones = h.zones ∧
      (h.followData op ws).decoder = h.decoder ∧ (h.followData op ws).renderer = h.renderer ∧
      (h.followData op ws).lanes = h.lanes ∧ (h.followData op ws).protection = h.protection ∧
      (h.followData op ws).standby = h.standby ∧ (h.followData op ws).due = h.due := by
  unfold Hub.followData
  repeat' split
  all_goals simp

@[simp] theorem Hub.frequencySent_frame (f : Freq) (h : Hub) :
    (h.frequencySent f).clock = h.clock ∧ (h.frequencySent f).zones = h.zones ∧
      (h.frequencySent f).decoder = h.decoder ∧ (h.frequencySent f).renderer = h.renderer ∧
      (h.frequencySent f).lanes = h.lanes ∧ (h.frequencySent f).protection = h.protection ∧
      (h.frequencySent f).standby = h.standby ∧ (h.frequencySent f).due = h.due := by
  unfold Hub.frequencySent
  split <;> simp

@[simp] theorem Hub.sendMessage_frame (m : LinkMessage) (u : ExchangeUse) (h : Hub) :
    (h.sendMessage m u).clock = h.clock ∧ (h.sendMessage m u).zones = h.zones ∧
      (h.sendMessage m u).decoder = h.decoder ∧ (h.sendMessage m u).renderer = h.renderer ∧
      (h.sendMessage m u).lanes = h.lanes ∧ (h.sendMessage m u).protection = h.protection ∧
      (h.sendMessage m u).standby = h.standby ∧ (h.sendMessage m u).due = h.due := by
  unfold Hub.sendMessage
  split <;> simp

@[simp] theorem Hub.linkSend_frame (h : Hub) :
    (h.linkSend).clock = h.clock ∧ (h.linkSend).zones = h.zones ∧ (h.linkSend).decoder = h.decoder ∧
      (h.linkSend).renderer = h.renderer ∧ (h.linkSend).lanes = h.lanes ∧ (h.linkSend).protection = h.protection ∧
      (h.linkSend).standby = h.standby ∧ (h.linkSend).due = h.due := by
  unfold Hub.linkSend
  split <;> simp

@[simp] theorem Hub.linkOffline_frame (h : Hub) :
    (h.linkOffline).clock = h.clock ∧ (h.linkOffline).zones = h.zones ∧ (h.linkOffline).decoder = h.decoder ∧
      (h.linkOffline).renderer = h.renderer ∧ (h.linkOffline).lanes = h.lanes ∧
      (h.linkOffline).protection = h.protection ∧ (h.linkOffline).standby = h.standby ∧
      (h.linkOffline).due = h.due := by
  simp [Hub.linkOffline]

@[simp] theorem Hub.attemptFailed_frame (h : Hub) :
    (h.attemptFailed).clock = h.clock ∧ (h.attemptFailed).zones = h.zones ∧
      (h.attemptFailed).decoder = h.decoder ∧ (h.attemptFailed).renderer = h.renderer ∧
      (h.attemptFailed).lanes = h.lanes ∧ (h.attemptFailed).protection = h.protection ∧
      (h.attemptFailed).standby = h.standby ∧ (h.attemptFailed).due = h.due := by
  unfold Hub.attemptFailed
  repeat' split
  all_goals simp

@[simp] theorem Hub.linkReturns_frame (h : Hub) :
    (h.linkReturns).clock = h.clock ∧ (h.linkReturns).zones = h.zones ∧ (h.linkReturns).decoder = h.decoder ∧
      (h.linkReturns).renderer = h.renderer ∧ (h.linkReturns).lanes = h.lanes ∧
      (h.linkReturns).protection = h.protection ∧ (h.linkReturns).standby = h.standby ∧
      (h.linkReturns).due = h.due := by
  unfold Hub.linkReturns
  split <;> simp

@[simp] theorem Hub.statusReplied_frame (u : ExchangeUse) (h : Hub) :
    (h.statusReplied u).clock = h.clock ∧ (h.statusReplied u).zones = h.zones ∧
      (h.statusReplied u).decoder = h.decoder ∧ (h.statusReplied u).renderer = h.renderer ∧
      (h.statusReplied u).lanes = h.lanes ∧ (h.statusReplied u).protection = h.protection ∧
      (h.statusReplied u).standby = h.standby ∧ (h.statusReplied u).due = h.due := by
  unfold Hub.statusReplied Hub.forStep
  repeat' split
  all_goals simp

@[simp] theorem Hub.startRadio_frame (h : Hub) :
    (h.startRadio).clock = h.clock ∧ (h.startRadio).zones = h.zones ∧ (h.startRadio).decoder = h.decoder ∧
      (h.startRadio).renderer = h.renderer ∧ (h.startRadio).lanes = h.lanes ∧
      (h.startRadio).protection = h.protection ∧ (h.startRadio).standby = h.standby ∧ (h.startRadio).due = h.due := by
  exact ⟨rfl, rfl, rfl, rfl, rfl, rfl, rfl, rfl⟩

@[simp] theorem Hub.stopRadio_frame (h : Hub) :
    (h.stopRadio).clock = h.clock ∧ (h.stopRadio).zones = h.zones ∧ (h.stopRadio).decoder = h.decoder ∧
      (h.stopRadio).renderer = h.renderer ∧ (h.stopRadio).lanes = h.lanes ∧
      (h.stopRadio).protection = h.protection ∧ (h.stopRadio).standby = h.standby ∧ (h.stopRadio).due = h.due := by
  simp [Hub.stopRadio]

@[simp] theorem Hub.takeSettleEnd_frame (h : Hub) :
    (h.takeSettleEnd).clock = h.clock ∧ (h.takeSettleEnd).zones = h.zones ∧
      (h.takeSettleEnd).decoder = h.decoder ∧ (h.takeSettleEnd).renderer = h.renderer ∧
      (h.takeSettleEnd).lanes = h.lanes ∧ (h.takeSettleEnd).protection = h.protection ∧
      (h.takeSettleEnd).standby = h.standby ∧ (h.takeSettleEnd).due = h.due := by
  unfold Hub.takeSettleEnd
  repeat' split
  all_goals simp

@[simp] theorem Hub.takeWaitEnd_frame (h : Hub) :
    (h.takeWaitEnd).clock = h.clock ∧ (h.takeWaitEnd).zones = h.zones ∧ (h.takeWaitEnd).decoder = h.decoder ∧
      (h.takeWaitEnd).renderer = h.renderer ∧ (h.takeWaitEnd).lanes = h.lanes ∧
      (h.takeWaitEnd).protection = h.protection ∧ (h.takeWaitEnd).standby = h.standby ∧
      (h.takeWaitEnd).due = h.due := by
  unfold Hub.takeWaitEnd
  repeat' split
  all_goals simp

@[simp] theorem Hub.takeDataPoll_frame (h : Hub) :
    (h.takeDataPoll).clock = h.clock ∧ (h.takeDataPoll).zones = h.zones ∧ (h.takeDataPoll).decoder = h.decoder ∧
      (h.takeDataPoll).renderer = h.renderer ∧ (h.takeDataPoll).lanes = h.lanes ∧
      (h.takeDataPoll).protection = h.protection ∧ (h.takeDataPoll).standby = h.standby ∧
      (h.takeDataPoll).due = h.due := by
  unfold Hub.takeDataPoll
  split <;> simp

@[simp] theorem Hub.takeQualityPoll_frame (h : Hub) :
    (h.takeQualityPoll).clock = h.clock ∧ (h.takeQualityPoll).zones = h.zones ∧
      (h.takeQualityPoll).decoder = h.decoder ∧ (h.takeQualityPoll).renderer = h.renderer ∧
      (h.takeQualityPoll).lanes = h.lanes ∧ (h.takeQualityPoll).protection = h.protection ∧
      (h.takeQualityPoll).standby = h.standby ∧ (h.takeQualityPoll).due = h.due := by
  unfold Hub.takeQualityPoll
  split <;> simp

@[simp] theorem Hub.takeLinkProbe_frame (h : Hub) :
    (h.takeLinkProbe).clock = h.clock ∧ (h.takeLinkProbe).zones = h.zones ∧
      (h.takeLinkProbe).decoder = h.decoder ∧ (h.takeLinkProbe).renderer = h.renderer ∧
      (h.takeLinkProbe).lanes = h.lanes ∧ (h.takeLinkProbe).protection = h.protection ∧
      (h.takeLinkProbe).standby = h.standby ∧ (h.takeLinkProbe).due = h.due := by
  unfold Hub.takeLinkProbe
  dsimp only
  split <;> simp

@[simp] theorem Hub.operationBlockStart_frame (h : Hub) :
    (h.operationBlockStart).clock = h.clock ∧ (h.operationBlockStart).zones = h.zones ∧
      (h.operationBlockStart).decoder = h.decoder ∧ (h.operationBlockStart).renderer = h.renderer ∧
      (h.operationBlockStart).lanes = h.lanes ∧ (h.operationBlockStart).protection = h.protection ∧
      (h.operationBlockStart).standby = h.standby := by
  unfold Hub.operationBlockStart
  repeat' split
  all_goals simp

@[simp] theorem Hub.pollBlockStart_frame (h : Hub) :
    (h.pollBlockStart).clock = h.clock ∧ (h.pollBlockStart).zones = h.zones ∧
      (h.pollBlockStart).decoder = h.decoder ∧ (h.pollBlockStart).renderer = h.renderer ∧
      (h.pollBlockStart).lanes = h.lanes ∧ (h.pollBlockStart).protection = h.protection ∧
      (h.pollBlockStart).standby = h.standby := by
  unfold Hub.pollBlockStart
  dsimp only
  split <;> simp

@[simp] theorem Hub.probeBlockStart_frame (h : Hub) :
    (h.probeBlockStart).clock = h.clock ∧ (h.probeBlockStart).zones = h.zones ∧
      (h.probeBlockStart).decoder = h.decoder ∧ (h.probeBlockStart).renderer = h.renderer ∧
      (h.probeBlockStart).lanes = h.lanes ∧ (h.probeBlockStart).protection = h.protection ∧
      (h.probeBlockStart).standby = h.standby := by
  unfold Hub.probeBlockStart
  dsimp only
  split <;> simp

@[simp] theorem Hub.radioBlockStart_frame (h : Hub) :
    (h.radioBlockStart).clock = h.clock ∧ (h.radioBlockStart).zones = h.zones ∧
      (h.radioBlockStart).decoder = h.decoder ∧ (h.radioBlockStart).renderer = h.renderer ∧
      (h.radioBlockStart).lanes = h.lanes ∧ (h.radioBlockStart).protection = h.protection ∧
      (h.radioBlockStart).standby = h.standby := by
  simp [Hub.radioBlockStart]

end Sys2Proof.Machine
end

