-- ==== Sys2Proof/Laws/BlockFrames.lean ====
section
/-! SUPPORT. What each operation of Standby Control, the output stage and the block start leaves unchanged in the hub. -/

namespace Sys2Proof.Machine

@[simp] theorem Hub.wakeReport_frame (i : SourceId) (r : StatusRecord) (h : Hub) :
    (h.wakeReport i r).clock = h.clock ∧ (h.wakeReport i r).zones = h.zones ∧
      (h.wakeReport i r).decoder = h.decoder ∧ (h.wakeReport i r).renderer = h.renderer ∧
      (h.wakeReport i r).lanes = h.lanes ∧ (h.wakeReport i r).protection = h.protection ∧
      (h.wakeReport i r).radio = h.radio ∧ (h.wakeReport i r).station = h.station ∧ (h.wakeReport i r).due = h.due := by
  unfold Hub.wakeReport
  split <;> simp

@[simp] theorem Hub.startWaking_frame (src : Vector Source 8) (h : Hub) :
    (h.startWaking src).zones = h.zones ∧ (h.startWaking src).decoder = h.decoder ∧
      (h.startWaking src).renderer = h.renderer ∧ (h.startWaking src).lanes = h.lanes ∧
      (h.startWaking src).protection = h.protection ∧ (h.startWaking src).radio = h.radio ∧
      (h.startWaking src).station = h.station ∧ (h.startWaking src).due = h.due := by
  simp [Hub.startWaking]

@[simp] theorem Hub.standbyBlockStart_frame (h : Hub) :
    (h.standbyBlockStart).clock = h.clock ∧ (h.standbyBlockStart).zones = h.zones ∧
      (h.standbyBlockStart).decoder = h.decoder ∧ (h.standbyBlockStart).renderer = h.renderer ∧
      (h.standbyBlockStart).lanes = h.lanes ∧ (h.standbyBlockStart).protection = h.protection ∧
      (h.standbyBlockStart).radio = h.radio ∧ (h.standbyBlockStart).station = h.station ∧
      (h.standbyBlockStart).outbox = h.outbox := by
  simp [Hub.standbyBlockStart]

@[simp] theorem Hub.takeActive_frame (h : Hub) :
    (h.takeActive).clock = h.clock ∧ (h.takeActive).zones = h.zones ∧ (h.takeActive).decoder = h.decoder ∧
      (h.takeActive).renderer = h.renderer ∧ (h.takeActive).lanes = h.lanes ∧
      (h.takeActive).protection = h.protection ∧ (h.takeActive).due = h.due := by
  unfold Hub.takeActive
  split <;> simp

@[simp] theorem Hub.takeDelayEnd_frame (h : Hub) :
    (h.takeDelayEnd).clock = h.clock ∧ (h.takeDelayEnd).decoder = h.decoder ∧
      (h.takeDelayEnd).protection = h.protection ∧ (h.takeDelayEnd).radio = h.radio ∧
      (h.takeDelayEnd).station = h.station := by
  unfold Hub.takeDelayEnd
  split <;> simp

@[simp] theorem Hub.driveLanes_frame (x : Feeds) (h : Hub) :
    (h.driveLanes x).clock = h.clock ∧ (h.driveLanes x).zones = h.zones ∧ (h.driveLanes x).decoder = h.decoder ∧
      (h.driveLanes x).protection = h.protection ∧ (h.driveLanes x).radio = h.radio ∧
      (h.driveLanes x).station = h.station ∧ (h.driveLanes x).standby = h.standby ∧ (h.driveLanes x).due = h.due ∧
      (h.driveLanes x).outbox = h.outbox := by
  exact ⟨rfl, rfl, rfl, rfl, rfl, rfl, rfl, rfl, rfl⟩

@[simp] theorem Hub.driveLines_frame (x : Feeds) (h : Hub) :
    (h.driveLines x).clock = h.clock ∧ (h.driveLines x).zones = h.zones ∧ (h.driveLines x).decoder = h.decoder ∧
      (h.driveLines x).lanes = h.lanes ∧ (h.driveLines x).protection = h.protection ∧
      (h.driveLines x).radio = h.radio ∧ (h.driveLines x).station = h.station ∧
      (h.driveLines x).standby = h.standby ∧ (h.driveLines x).due = h.due ∧ (h.driveLines x).outbox = h.outbox := by
  exact ⟨rfl, rfl, rfl, rfl, rfl, rfl, rfl, rfl, rfl, rfl⟩

@[simp] theorem Hub.latchOutputs_frame (h : Hub) :
    (h.latchOutputs).clock = h.clock ∧ (h.latchOutputs).zones = h.zones ∧ (h.latchOutputs).decoder = h.decoder ∧
      (h.latchOutputs).lanes = h.lanes ∧ (h.latchOutputs).protection = h.protection ∧
      (h.latchOutputs).radio = h.radio ∧ (h.latchOutputs).station = h.station ∧
      (h.latchOutputs).standby = h.standby ∧ (h.latchOutputs).due = h.due ∧ (h.latchOutputs).outbox = h.outbox := by
  exact ⟨rfl, rfl, rfl, rfl, rfl, rfl, rfl, rfl, rfl, rfl⟩

@[simp] theorem Hub.endPeriod_frame (h : Hub) :
    (h.endPeriod).zones = h.zones ∧ (h.endPeriod).decoder = h.decoder ∧ (h.endPeriod).renderer = h.renderer ∧
      (h.endPeriod).lanes = h.lanes ∧ (h.endPeriod).radio = h.radio ∧ (h.endPeriod).station = h.station ∧
      (h.endPeriod).standby = h.standby ∧ (h.endPeriod).outbox = h.outbox := by
  simp [Hub.endPeriod]

@[simp] theorem Hub.clockBlockStart_frame (h : Hub) :
    (h.clockBlockStart).zones = h.zones ∧ (h.clockBlockStart).decoder = h.decoder ∧
      (h.clockBlockStart).renderer = h.renderer ∧ (h.clockBlockStart).lanes = h.lanes ∧
      (h.clockBlockStart).protection = h.protection ∧ (h.clockBlockStart).radio = h.radio ∧
      (h.clockBlockStart).station = h.station ∧ (h.clockBlockStart).standby = h.standby ∧
      (h.clockBlockStart).outbox = h.outbox := by
  simp [Hub.clockBlockStart]

@[simp] theorem Hub.protectionBlockStart_frame (h : Hub) :
    (h.protectionBlockStart).clock = h.clock ∧ (h.protectionBlockStart).zones = h.zones ∧
      (h.protectionBlockStart).decoder = h.decoder ∧ (h.protectionBlockStart).renderer = h.renderer ∧
      (h.protectionBlockStart).lanes = h.lanes ∧ (h.protectionBlockStart).radio = h.radio ∧
      (h.protectionBlockStart).station = h.station ∧ (h.protectionBlockStart).standby = h.standby ∧
      (h.protectionBlockStart).outbox = h.outbox := by
  simp [Hub.protectionBlockStart]

@[simp] theorem Hub.playPeriod_frame (src : Vector Source 8) (f : SourceId → Frame) (h : Hub) :
    (h.playPeriod src f).clock = h.clock ∧ (h.playPeriod src f).protection = h.protection ∧
      (h.playPeriod src f).radio = h.radio ∧ (h.playPeriod src f).station = h.station ∧
      (h.playPeriod src f).standby = h.standby ∧ (h.playPeriod src f).due = h.due ∧
      (h.playPeriod src f).outbox = h.outbox := by
  exact ⟨rfl, rfl, rfl, rfl, rfl, rfl, rfl⟩

@[simp] theorem Hub.laneToStandby_frame (l : LaneId) (h : Hub) :
    (h.laneToStandby l).clock = h.clock ∧ (h.laneToStandby l).decoder = h.decoder ∧
      (h.laneToStandby l).protection = h.protection ∧ (h.laneToStandby l).radio = h.radio ∧
      (h.laneToStandby l).station = h.station ∧ (h.laneToStandby l).standby = h.standby := by
  unfold Hub.laneToStandby
  dsimp only
  split <;> simp

@[simp] theorem Hub.lanesToStandby_frame (h : Hub) :
    (h.eachLane Hub.laneToStandby).clock = h.clock ∧ (h.eachLane Hub.laneToStandby).decoder = h.decoder ∧
      (h.eachLane Hub.laneToStandby).protection = h.protection ∧ (h.eachLane Hub.laneToStandby).radio = h.radio ∧
      (h.eachLane Hub.laneToStandby).station = h.station ∧ (h.eachLane Hub.laneToStandby).standby = h.standby := by
  exact ⟨Hub.eachLane_keeps Hub.clock Hub.laneToStandby (by simp) h,
    Hub.eachLane_keeps Hub.decoder Hub.laneToStandby (by simp) h,
    Hub.eachLane_keeps Hub.protection Hub.laneToStandby (by simp) h,
    Hub.eachLane_keeps Hub.radio Hub.laneToStandby (by simp) h,
    Hub.eachLane_keeps Hub.station Hub.laneToStandby (by simp) h,
    Hub.eachLane_keeps Hub.standby Hub.laneToStandby (by simp) h⟩

@[simp] theorem Hub.lanesBlockStart_frame (h : Hub) :
    (h.eachLane Hub.laneBlockStart).clock = h.clock ∧ (h.eachLane Hub.laneBlockStart).zones = h.zones ∧
      (h.eachLane Hub.laneBlockStart).decoder = h.decoder ∧
      (h.eachLane Hub.laneBlockStart).renderer = h.renderer ∧
      (h.eachLane Hub.laneBlockStart).protection = h.protection ∧
      (h.eachLane Hub.laneBlockStart).radio = h.radio ∧ (h.eachLane Hub.laneBlockStart).station = h.station ∧
      (h.eachLane Hub.laneBlockStart).standby = h.standby ∧ (h.eachLane Hub.laneBlockStart).outbox = h.outbox := by
  exact ⟨Hub.eachLane_keeps Hub.clock Hub.laneBlockStart (by simp) h,
    Hub.eachLane_keeps Hub.zones Hub.laneBlockStart (by simp) h,
    Hub.eachLane_keeps Hub.decoder Hub.laneBlockStart (by simp) h,
    Hub.eachLane_keeps Hub.renderer Hub.laneBlockStart (by simp) h,
    Hub.eachLane_keeps Hub.protection Hub.laneBlockStart (by simp) h,
    Hub.eachLane_keeps Hub.radio Hub.laneBlockStart (by simp) h,
    Hub.eachLane_keeps Hub.station Hub.laneBlockStart (by simp) h,
    Hub.eachLane_keeps Hub.standby Hub.laneBlockStart (by simp) h,
    Hub.eachLane_keeps Hub.outbox Hub.laneBlockStart (by simp) h⟩

@[simp] theorem Hub.audioToStandby_frame (h : Hub) :
    (h.audioToStandby).clock = h.clock ∧ (h.audioToStandby).lanes = h.lanes ∧
      (h.audioToStandby).protection = h.protection ∧ (h.audioToStandby).radio = h.radio ∧
      (h.audioToStandby).station = h.station ∧ (h.audioToStandby).standby = h.standby := by
  unfold Hub.audioToStandby
  dsimp only
  split <;> simp

@[simp] theorem Hub.blockStart_frame (src : Vector Source 8) (h : Hub) :
    (h.blockStart src).clock = h.clock := by
  simp [Hub.blockStart]

@[simp] theorem Hub.temperatureEvent_frame (h : Hub) :
    (h.temperatureEvent).clock = h.clock ∧ (h.temperatureEvent).decoder = h.decoder ∧
      (h.temperatureEvent).radio = h.radio ∧ (h.temperatureEvent).station = h.station ∧
      (h.temperatureEvent).standby = h.standby := by
  unfold Hub.temperatureEvent
  split <;> simp

@[simp] theorem Hub.faultLayoutEvent_frame (src : Vector Source 8) (h : Hub) :
    (h.faultLayoutEvent src).clock = h.clock ∧ (h.faultLayoutEvent src).lanes = h.lanes ∧
      (h.faultLayoutEvent src).protection = h.protection ∧ (h.faultLayoutEvent src).radio = h.radio ∧
      (h.faultLayoutEvent src).station = h.station ∧ (h.faultLayoutEvent src).standby = h.standby := by
  unfold Hub.faultLayoutEvent
  split <;> simp

@[simp] theorem Hub.powerChanged_frame (h : Hub) :
    (h.powerChanged).clock = h.clock ∧ (h.powerChanged).decoder = h.decoder ∧
      (h.powerChanged).protection = h.protection ∧ (h.powerChanged).station = h.station ∧
      (h.powerChanged).standby = h.standby := by
  simp [Hub.powerChanged]

@[simp] theorem Hub.turnOff_frame (src : Vector Source 8) (z : ZoneId) (h : Hub) :
    (h.turnOff src z).protection = h.protection ∧ (h.turnOff src z).station = h.station ∧
      (h.turnOff src z).standby = h.standby := by
  unfold Hub.turnOff
  split <;> simp

@[simp] theorem Hub.turnOn_frame (src : Vector Source 8) (z : ZoneId) (h : Hub) :
    (h.turnOn src z).protection = h.protection ∧ (h.turnOn src z).station = h.station ∧
      (h.turnOn src z).standby = h.standby := by
  unfold Hub.turnOn
  split <;> simp

end Sys2Proof.Machine
end

