-- ==== Sys2Proof/Laws/Courses.lean ====
section
/-! SUPPORT. What each shared operation of the Zone Router may do to the course of a zone it does not itself move: stay on its
course, or send it into a fade with purpose RECONFIGURE (R50, R97); that none takes back a notice already posted; and
what the end of a fade-out makes of its zone (R53, R54). -/

namespace Sys2Proof.Machine

/-- A zone record that keeps to the course of another: only its lip-sync, its line and its volume may differ, and a LIPSYNC item
may leave its pending set. -/
def Zone.onCourse (x y : Zone) : Prop :=
  y.power = x.power ∧ y.selected = x.selected ∧ y.current = x.current ∧ y.state = x.state ∧ y.gain = x.gain ∧
    y.noSignal = x.noSignal ∧ y.noSignalReported = x.noSignalReported ∧ y.pending.layout = x.pending.layout ∧
    y.pending.decode = x.pending.decode ∧ (x.pending.lipsync = false → y.pending.lipsync = false)

/-- A zone record that a recomputation of the grants may have sent into a fade: on its course, or in FADING_OUT with
purpose RECONFIGURE out of PLAYING or FADING_IN (R50). -/
def Zone.nudged (x y : Zone) : Prop :=
  y.power = x.power ∧ y.selected = x.selected ∧ y.current = x.current ∧
    ((y.state = x.state ∧ y.gain = x.gain ∧ y.noSignal = x.noSignal ∧ y.noSignalReported = x.noSignalReported) ∨
      ((x.state = .playing ∨ x.state = .fadingIn) ∧ y.state = .fadingOut .reconfigure ∧ y.gain = x.gain))

theorem Zone.onCourse.rfl {x : Zone} : x.onCourse x := by simp [Zone.onCourse]
theorem Zone.nudged.rfl {x : Zone} : x.nudged x := by simp [Zone.nudged]

theorem Zone.onCourse.trans {x y z : Zone} (a : x.onCourse y) (b : y.onCourse z) : x.onCourse z := by
  simp_all [Zone.onCourse]

theorem Zone.onCourse.nudged {x y : Zone} (a : x.onCourse y) : x.nudged y := by
  simp_all [Zone.onCourse, Zone.nudged]

theorem Zone.nudged.trans {x y z : Zone} (a : x.nudged y) (b : y.nudged z) : x.nudged z := by
  obtain ⟨a1, a2, a3, ⟨a4, a5, a6, a7⟩ | ⟨a4, a5, a6⟩⟩ := a <;>
  obtain ⟨b1, b2, b3, ⟨b4, b5, b6, b7⟩ | ⟨b4, b5, b6⟩⟩ := b <;>
  simp_all [Zone.nudged]

/-- Every zone of `g` on the course it has in `h`. -/
def Hub.onCourse (h g : Hub) : Prop := ∀ z, (h.zone z).onCourse (g.zone z)
def Hub.nudged (h g : Hub) : Prop := ∀ z, (h.zone z).nudged (g.zone z)

theorem Hub.onCourse_of_zones {h g : Hub} (e : g.zones = h.zones) : h.onCourse g := by
  intro z; rw [Hub.zone_eq_of_zones e]; exact .rfl
theorem Hub.onCourse.trans {h g k : Hub} (a : h.onCourse g) (b : g.onCourse k) : h.onCourse k :=
  fun z => (a z).trans (b z)
theorem Hub.onCourse.nudged {h g : Hub} (a : h.onCourse g) : h.nudged g := fun z => (a z).nudged
theorem Hub.nudged.trans {h g k : Hub} (a : h.nudged g) (b : g.nudged k) : h.nudged k :=
  fun z => (a z).trans (b z)

theorem Hub.setZone_onCourse {z : ZoneId} {x : Zone} {h : Hub} (e : (h.zone z).onCourse x) : h.onCourse (h.setZone z x) := by
  intro w
  by_cases hw : w = z
  · subst hw; simpa using e
  · simp [hw, Zone.onCourse.rfl]

theorem Hub.setZone_nudged {z : ZoneId} {x : Zone} {h : Hub} (e : (h.zone z).nudged x) : h.nudged (h.setZone z x) := by
  intro w
  by_cases hw : w = z
  · subst hw; simpa using e
  · simp [hw, Zone.nudged.rfl]

theorem Zone.adoptGrant_onCourse (x : Zone) : x.onCourse x.adoptGrant := by
  unfold Zone.adoptGrant
  split <;> simp [Zone.onCourse, Zone.clearLine]

theorem Hub.squeeze_onCourse (z : ZoneId) (h : Hub) : h.onCourse (h.squeeze z) := by
  unfold Hub.squeeze
  dsimp only
  split
  · exact Hub.setZone_onCourse (by have := (h.zone z).adoptGrant_onCourse; simp_all [Zone.onCourse])
  · exact Hub.onCourse_of_zones rfl

theorem Hub.makeRoom_onCourse (s : Option ZoneId) (n : Nat) (h : Hub) : h.onCourse (h.makeRoom s n) := by
  have one (z : ZoneId) (k : Hub) : k.onCourse (k.makeRoomFrom s n z) := by
    unfold Hub.makeRoomFrom
    split
    · exact k.squeeze_onCourse z
    · exact Hub.onCourse_of_zones rfl
  exact ((one _ _).trans (one _ _)).trans (one _ _)

theorem Hub.applyLipsync_onCourse (z : ZoneId) (h : Hub) : h.onCourse (h.applyLipsync z) := by
  unfold Hub.applyLipsync
  exact (h.makeRoom_onCourse _ _).trans (Hub.setZone_onCourse (Zone.adoptGrant_onCourse _))

theorem Hub.clearLines_onCourse (z : ZoneId) (h : Hub) : h.onCourse (h.clearLines z) := by
  have e : (h.clearLines z).zones = (h.setZone z (h.zone z).clearLine).zones := by
    unfold Hub.clearLines; cases z <;> rfl
  exact (Hub.setZone_onCourse (by simp [Zone.onCourse, Zone.clearLine])).trans (Hub.onCourse_of_zones e)

theorem Hub.holdItem_lipsync_nudged (z : ZoneId) (h : Hub) : h.nudged (h.holdItem (fun s => { s with lipsync := true }) z) := by
  unfold Hub.holdItem
  dsimp only
  split
  · exact (Hub.onCourse_of_zones rfl).nudged
  · exact (Hub.onCourse_of_zones rfl).nudged
  · rename_i e
    refine Hub.nudged.trans (Hub.setZone_nudged (z := z) ?_) ((Hub.onCourse_of_zones (h := h.setZone z _) rfl).nudged)
    simp [Zone.nudged, e, Zone.fadeOut, Zone.newWait]
  · rename_i e
    refine Hub.nudged.trans (Hub.setZone_nudged (z := z) ?_) ((Hub.onCourse_of_zones (h := h.setZone z _) rfl).nudged)
    simp [Zone.nudged, e, Zone.fadeOut, Zone.newWait]
  · rename_i e
    refine Hub.setZone_nudged ?_
    simp [Zone.nudged]

theorem Hub.tellGrant_nudged (z : ZoneId) (n : Nat) (h : Hub) : h.nudged (h.tellGrant z n) := by
  unfold Hub.tellGrant
  dsimp only
  split
  · exact (Hub.onCourse_of_zones rfl).nudged
  · refine Hub.nudged.trans ?_ (Hub.holdItem_lipsync_nudged z _)
    exact Hub.nudged.trans (Hub.setZone_nudged (z := z) (by simp [Zone.nudged])) (Hub.onCourse_of_zones rfl).nudged

theorem Hub.applyGrant_onCourse (z : ZoneId) (h : Hub) : h.onCourse (h.applyGrant z) := by
  unfold Hub.applyGrant
  split
  · exact h.applyLipsync_onCourse z
  · exact h.applyLipsync_onCourse z
  · exact Hub.onCourse_of_zones rfl

/-- R50, R97: a recomputation of the grants sends audible zones into a fade and does nothing else to their courses. -/
theorem Hub.recompute_nudged (h : Hub) : h.nudged h.recompute := by
  unfold Hub.recompute
  exact (((((Hub.tellGrant_nudged _ _ _).trans (Hub.tellGrant_nudged _ _ _)).trans (Hub.tellGrant_nudged _ _ _)).trans
    (Hub.applyGrant_onCourse _ _).nudged).trans (Hub.applyGrant_onCourse _ _).nudged).trans
    (Hub.applyGrant_onCourse _ _).nudged

theorem Hub.adoptLayout_nudged (h : Hub) : h.nudged h.adoptLayout := by
  unfold Hub.adoptLayout
  dsimp only
  split
  · exact (Hub.onCourse_of_zones rfl).nudged
  · have e := h.makeRoom_onCourse none (h.renderer.derived.cells - h.renderer.inForce.cells)
    split
    · exact (e.trans (Hub.onCourse_of_zones (by simp))).nudged
    · exact ((e.trans (Hub.onCourse_of_zones (by simp))).nudged).trans (Hub.recompute_nudged _)

theorem Hub.applyLayout_nudged (h : Hub) : h.nudged h.applyLayout := by
  have e : h.onCourse { h with renderer := { h.renderer with itemPending := false } } := Hub.onCourse_of_zones rfl
  exact e.nudged.trans (Hub.adoptLayout_nudged _)

/-- R53: applying the items leaves every zone on its course where no LAYOUT item is among them. -/
theorem Hub.applyItems_course (z : ZoneId) (h : Hub) :
    (∃ k : Hub, k.zones = h.zones.set z { h.zone z with pending := .none } ∧ k.nudged (h.applyItems z)) ∧
    ((h.zone z).pending.layout = false →
      ∃ k : Hub, k.zones = h.zones.set z { h.zone z with pending := .none } ∧ k.onCourse (h.applyItems z)) := by
  have b (k : Hub) (c d : Bool) : k.onCourse (if d then (if c then k.applyLipsync z else k).applyDecode else if c then k.applyLipsync z else k) := by
    have : k.onCourse (if c then k.applyLipsync z else k) := by
      cases c
      · exact Hub.onCourse_of_zones rfl
      · exact k.applyLipsync_onCourse z
    cases d
    · exact this
    · exact this.trans (Hub.onCourse_of_zones (by simp))
  refine ⟨⟨h.setZone z { h.zone z with pending := .none }, rfl, ?_⟩, fun e => ⟨h.setZone z { h.zone z with pending := .none }, rfl, ?_⟩⟩
  · unfold Hub.applyItems
    dsimp only
    have e := (b (h.setZone z { h.zone z with pending := .none }) (h.zone z).pending.lipsync (h.zone z).pending.decode).nudged
    split
    · exact e.trans (Hub.applyLayout_nudged _)
    · exact e
  · unfold Hub.applyItems
    dsimp only
    rw [if_neg (by simp [e])]
    exact b _ _ _


/-! ### Notices -/

/-- From `h` to `g` notices have been posted, and none of those posted before is gone. -/
def Hub.keepsPosted (h g : Hub) : Prop := ∃ ns, g.outbox = h.outbox ++ ns

/-- From `h` to `g` the notice `n` has been posted, among others. -/
def Hub.hasPosted (n : Notice) (h g : Hub) : Prop := ∃ ns, g.outbox = h.outbox ++ ns ∧ n ∈ ns

theorem Hub.keepsPosted_of_eq {h g : Hub} (e : g.outbox = h.outbox) : h.keepsPosted g := ⟨[], by simp [e]⟩

theorem Hub.keepsPosted.trans {h g k : Hub} (a : h.keepsPosted g) (b : g.keepsPosted k) : h.keepsPosted k := by
  obtain ⟨x, ex⟩ := a
  obtain ⟨y, ey⟩ := b
  exact ⟨x ++ y, by simp [ex, ey]⟩

theorem Hub.hasPosted.after {n : Notice} {h g k : Hub} (a : Hub.hasPosted n h g) (b : g.keepsPosted k) : Hub.hasPosted n h k := by
  obtain ⟨x, ex, m⟩ := a
  obtain ⟨y, ey⟩ := b
  exact ⟨x ++ y, by simp [ex, ey], by simp [m]⟩

theorem Hub.hasPosted.before {n : Notice} {h g k : Hub} (a : h.keepsPosted g) (b : Hub.hasPosted n g k) : Hub.hasPosted n h k := by
  obtain ⟨x, ex⟩ := a
  obtain ⟨y, ey, m⟩ := b
  exact ⟨x ++ y, by simp [ex, ey], by simp [m]⟩

theorem post_keepsPosted (n : Notice) (h : Hub) : h.keepsPosted (post n h) := ⟨[n], rfl⟩
theorem post_hasPosted (n : Notice) (h : Hub) : Hub.hasPosted n h (post n h) := ⟨[n], rfl, by simp⟩

theorem postIf_keepsPosted (c : Bool) (n : Notice) (h : Hub) : h.keepsPosted (postIf c n h) :=
  ⟨_, postIf_outbox c n h⟩

theorem Hub.squeeze_outbox (z : ZoneId) (h : Hub) : (h.squeeze z).outbox = h.outbox := by
  unfold Hub.squeeze
  dsimp only
  split <;> rfl

theorem Hub.makeRoom_outbox (s : Option ZoneId) (n : Nat) (h : Hub) : (h.makeRoom s n).outbox = h.outbox := by
  have one (z : ZoneId) (k : Hub) : (k.makeRoomFrom s n z).outbox = k.outbox := by
    unfold Hub.makeRoomFrom
    split
    · exact k.squeeze_outbox z
    · rfl
  unfold Hub.makeRoom
  rw [one, one, one]

theorem Hub.applyLipsync_outbox (z : ZoneId) (h : Hub) : (h.applyLipsync z).outbox = h.outbox := by
  unfold Hub.applyLipsync
  exact h.makeRoom_outbox _ _

theorem Hub.holdItem_keepsPosted (join : Items → Items) (z : ZoneId) (h : Hub) : h.keepsPosted (h.holdItem join z) := by
  unfold Hub.holdItem
  dsimp only
  split
  · exact Hub.keepsPosted_of_eq rfl
  · exact Hub.keepsPosted_of_eq rfl
  · exact ⟨[_], rfl⟩
  · exact ⟨[_], rfl⟩
  · exact Hub.keepsPosted_of_eq rfl

theorem Hub.tellGrant_keepsPosted (z : ZoneId) (n : Nat) (h : Hub) : h.keepsPosted (h.tellGrant z n) := by
  unfold Hub.tellGrant
  dsimp only
  split
  · exact Hub.keepsPosted_of_eq rfl
  · exact Hub.keepsPosted.trans ⟨[_], rfl⟩ (Hub.holdItem_keepsPosted _ z _)

theorem Hub.applyGrant_keepsPosted (z : ZoneId) (h : Hub) : h.keepsPosted (h.applyGrant z) := by
  unfold Hub.applyGrant
  split
  · exact Hub.keepsPosted_of_eq (h.applyLipsync_outbox z)
  · exact Hub.keepsPosted_of_eq (h.applyLipsync_outbox z)
  · exact Hub.keepsPosted_of_eq rfl

theorem Hub.recompute_keepsPosted (h : Hub) : h.keepsPosted h.recompute := by
  unfold Hub.recompute
  exact (((((Hub.tellGrant_keepsPosted _ _ _).trans (Hub.tellGrant_keepsPosted _ _ _)).trans
    (Hub.tellGrant_keepsPosted _ _ _)).trans (Hub.applyGrant_keepsPosted _ _)).trans
    (Hub.applyGrant_keepsPosted _ _)).trans (Hub.applyGrant_keepsPosted _ _)

theorem Hub.adoptLayout_keepsPosted (h : Hub) : h.keepsPosted h.adoptLayout := by
  unfold Hub.adoptLayout
  dsimp only
  split
  · exact Hub.keepsPosted_of_eq rfl
  · have e := Hub.keepsPosted_of_eq (h.makeRoom_outbox none (h.renderer.derived.cells - h.renderer.inForce.cells))
    split
    · exact e.trans (Hub.keepsPosted.trans ⟨[_], rfl⟩ (postIf_keepsPosted _ _ _))
    · exact (e.trans (Hub.keepsPosted.trans ⟨[_], rfl⟩ (postIf_keepsPosted _ _ _))).trans (Hub.recompute_keepsPosted _)

theorem Hub.applyLayout_keepsPosted (h : Hub) : h.keepsPosted h.applyLayout := by
  have e : h.keepsPosted { h with renderer := { h.renderer with itemPending := false } } := Hub.keepsPosted_of_eq rfl
  exact e.trans (Hub.adoptLayout_keepsPosted _)

theorem Hub.adoptDecode_keepsPosted (h : Hub) : h.keepsPosted h.adoptDecode := by
  unfold Hub.adoptDecode
  dsimp only
  split
  · have e (d : Decoder) (r : Renderer) : h.keepsPosted { h with decoder := d, renderer := r } := Hub.keepsPosted_of_eq rfl
    exact (e _ _).trans (postIf_keepsPosted _ _ _)
  · have e (d : Decoder) : h.keepsPosted { h with decoder := d } := Hub.keepsPosted_of_eq rfl
    exact (e _).trans (postIf_keepsPosted _ _ _)

theorem Hub.applyDecode_keepsPosted (h : Hub) : h.keepsPosted h.applyDecode := by
  have e : h.keepsPosted { h with decoder := { h.decoder with itemPending := false } } := Hub.keepsPosted_of_eq rfl
  exact e.trans (Hub.adoptDecode_keepsPosted _)

theorem Hub.handover_keepsPosted (src : Vector Source 8) (i : SourceId) (h : Hub) : h.keepsPosted (h.handover src i) := by
  have e : h.keepsPosted { h with decoder := { h.decoder with source := some i }.derive src i } := Hub.keepsPosted_of_eq rfl
  exact e.trans (Hub.adoptDecode_keepsPosted _)

theorem Hub.makeCurrent_keepsPosted (src : Vector Source 8) (z : ZoneId) (i : SourceId) (h : Hub) :
    h.keepsPosted (h.makeCurrent src z i) := by
  unfold Hub.makeCurrent
  have e : h.keepsPosted (post (zoneSourceNotice z (some i)) (h.setZone z { h.zone z with current := some i })) := ⟨[_], rfl⟩
  have f := e.trans (Hub.keepsPosted_of_eq (Hub.clearLines_frame z _).2.2.2.2.2.2.2.2)
  cases z
  · exact f.trans (Hub.handover_keepsPosted _ _ _)
  · exact f
  · exact f

theorem Hub.applyItems_keepsPosted (z : ZoneId) (h : Hub) : h.keepsPosted (h.applyItems z) := by
  have b (k : Hub) (c d : Bool) :
      k.keepsPosted (if d then (if c then k.applyLipsync z else k).applyDecode else if c then k.applyLipsync z else k) := by
    have e : k.keepsPosted (if c then k.applyLipsync z else k) := by
      cases c
      · exact Hub.keepsPosted_of_eq rfl
      · exact Hub.keepsPosted_of_eq (k.applyLipsync_outbox z)
    cases d
    · exact e
    · exact e.trans (Hub.applyDecode_keepsPosted _)
  have e : h.keepsPosted (h.setZone z { h.zone z with pending := .none }) := Hub.keepsPosted_of_eq rfl
  have f := e.trans (b (h.setZone z { h.zone z with pending := .none }) (h.zone z).pending.lipsync (h.zone z).pending.decode)
  unfold Hub.applyItems
  dsimp only
  split
  · exact f.trans (Hub.applyLayout_keepsPosted _)
  · exact f

theorem Hub.leaveFade_keepsPosted (src : Vector Source 8) (z : ZoneId) (p : Purpose) (h : Hub) :
    h.keepsPosted (h.leaveFade src z p) := by
  have c := Hub.keepsPosted_of_eq (Hub.clearLines_frame z h).2.2.2.2.2.2.2.2
  unfold Hub.leaveFade
  dsimp only
  cases p
  · dsimp only
    split
    · exact c
    · exact h.makeCurrent_keepsPosted src z _
  · exact Hub.keepsPosted_of_eq (Hub.zoneOff_frame z h).2.2.2.2.2.2
  · exact c

/-! ### The end of a fade -/

theorem Hub.clearLines_zones (z : ZoneId) (h : Hub) :
    (h.clearLines z).zones = (h.setZone z (h.zone z).clearLine).zones := by
  unfold Hub.clearLines
  cases z <;> rfl

theorem Hub.clearLines_zone_other {z w : ZoneId} (hw : w ≠ z) (h : Hub) : (h.clearLines z).zone w = h.zone w := by
  rw [Hub.zone_eq_of_zones (Hub.clearLines_zones z h), Hub.zone_setZone_other hw]

theorem Hub.clearLines_zone_same (z : ZoneId) (h : Hub) : (h.clearLines z).zone z = (h.zone z).clearLine := by
  rw [Hub.zone_eq_of_zones (Hub.clearLines_zones z h), Hub.zone_setZone_same]

theorem Hub.makeCurrent_zones (src : Vector Source 8) (z : ZoneId) (i : SourceId) (h : Hub) :
    (h.makeCurrent src z i).zones =
      ((post (zoneSourceNotice z (some i)) (h.setZone z { h.zone z with current := some i })).clearLines z).zones := by
  unfold Hub.makeCurrent
  cases z
  · exact (Hub.handover_frame src i _).2.1
  · rfl
  · rfl

theorem Hub.makeCurrent_zone_same (src : Vector Source 8) (z : ZoneId) (i : SourceId) (h : Hub) :
    (h.makeCurrent src z i).zone z = Zone.clearLine { h.zone z with current := some i } := by
  rw [Hub.zone_eq_of_zones (Hub.makeCurrent_zones src z i h), Hub.clearLines_zone_same]
  exact congrArg Zone.clearLine (Hub.zone_setZone_same z _ h)

theorem Hub.makeCurrent_zone_other (src : Vector Source 8) {z w : ZoneId} (hw : w ≠ z) (i : SourceId) (h : Hub) :
    (h.makeCurrent src z i).zone w = h.zone w := by
  rw [Hub.zone_eq_of_zones (Hub.makeCurrent_zones src z i h), Hub.clearLines_zone_other hw]
  exact Hub.zone_setZone_other hw _ h

theorem Hub.enterZone_zone_same (z : ZoneId) (x : Zone) (h : Hub) : (h.enterZone z x).zone z = x :=
  Hub.zone_setZone_same z x h

theorem Hub.enterZone_zone_other {z w : ZoneId} (hw : w ≠ z) (x : Zone) (h : Hub) : (h.enterZone z x).zone w = h.zone w :=
  Hub.zone_setZone_other hw x h

theorem Hub.zoneOff_zones (z : ZoneId) (h : Hub) :
    (h.zoneOff z).zones = ((h.enterZone z (h.zone z).turnOff).clearLines z).zones := by
  unfold Hub.zoneOff
  cases z <;> rfl

theorem Zone.fadeInOrWait_eq (b : Bool) (x : Zone) :
    x.fadeInOrWait b = { x.newWait with state := if b then .fadingIn else .waiting, gain := -1 } := by
  cases b <;> rfl

/-- R54: what the end of a fade-out makes of its zone, before the pending set is applied, and that it is one zone's
alone. -/
theorem Hub.leaveFade_zone (src : Vector Source 8) (z : ZoneId) (p : Purpose) (h : Hub) :
    let x := h.zone z
    let y := (h.leaveFade src z p).zone z
    (y.gain = -1 ∧ y.noSignal = 0 ∧ y.noSignalReported = false ∧ y.pending = x.pending ∧ y.selected = x.selected ∧
      y.power = x.power) ∧
    (p = .switch → y.current = some x.selected ∧
      y.state = (if src[x.selected].isRunning then .fadingIn else .waiting)) ∧
    (p = .reconfigure → y.current = x.current ∧ y.state = (if runningRef src x.current then .fadingIn else .waiting)) ∧
    (p = .powerOff → y.current = none ∧ y.state = .off) ∧
    ∀ w, w ≠ z → (h.leaveFade src z p).zone w = h.zone w := by
  dsimp only
  unfold Hub.leaveFade
  dsimp only
  cases p
  · dsimp only
    split
    · rename_i e
      refine ⟨?_, ?_, nofun, nofun, fun w hw => ?_⟩
      · simp [Hub.enterZone_zone_same, Hub.clearLines_zone_same, Zone.fadeInOrWait_eq, Zone.newWait, Zone.clearLine]
      · simp [Hub.enterZone_zone_same, Hub.clearLines_zone_same, Zone.fadeInOrWait_eq, Zone.newWait, Zone.clearLine, e]
      · rw [Hub.enterZone_zone_other hw, Hub.clearLines_zone_other hw]
    · refine ⟨?_, ?_, nofun, nofun, fun w hw => ?_⟩
      · simp [Hub.enterZone_zone_same, Hub.makeCurrent_zone_same, Zone.fadeInOrWait_eq, Zone.newWait, Zone.clearLine]
      · simp [Hub.enterZone_zone_same, Hub.makeCurrent_zone_same, Zone.fadeInOrWait_eq, Zone.newWait, Zone.clearLine]
      · rw [Hub.enterZone_zone_other hw, Hub.makeCurrent_zone_other src hw]
  · dsimp only
    rw [Hub.zone_eq_of_zones (Hub.zoneOff_zones z h)]
    refine ⟨?_, nofun, nofun, ?_, fun w hw => ?_⟩
    · simp [Hub.enterZone_zone_same, Hub.clearLines_zone_same, Zone.newWait, Zone.clearLine, Zone.turnOff]
    · simp [Hub.enterZone_zone_same, Hub.clearLines_zone_same, Zone.newWait, Zone.clearLine, Zone.turnOff]
    · rw [Hub.zone_eq_of_zones (Hub.zoneOff_zones z h), Hub.clearLines_zone_other hw, Hub.enterZone_zone_other hw]
  · dsimp only
    refine ⟨?_, nofun, ?_, nofun, fun w hw => ?_⟩
    · simp [Hub.enterZone_zone_same, Hub.clearLines_zone_same, Zone.fadeInOrWait_eq, Zone.newWait, Zone.clearLine]
    · simp [Hub.enterZone_zone_same, Hub.clearLines_zone_same, Zone.fadeInOrWait_eq, Zone.newWait, Zone.clearLine]
    · rw [Hub.enterZone_zone_other hw, Hub.clearLines_zone_other hw]

theorem Hub.followMain_keepsPosted (src : Vector Source 8) (z : ZoneId) (h : Hub) : h.keepsPosted (h.followMain src z) := by
  unfold Hub.followMain Hub.deriveReference Hub.deriveReferenceWith
  dsimp only
  cases z
  · dsimp only
    split
    · exact Hub.keepsPosted.trans (Hub.keepsPosted_of_eq rfl) (postIf_keepsPosted _ _ _)
    · exact Hub.keepsPosted.trans (Hub.keepsPosted_of_eq rfl) (postIf_keepsPosted _ _ _)
  · exact Hub.keepsPosted_of_eq rfl
  · exact Hub.keepsPosted_of_eq rfl

/-- R53, R54: the end of a fade-out: the zone leaves its fade, and then the items of its pending set may send zones into a
fade, which they do not where no LAYOUT item is among them. -/
theorem Hub.endFadeOut_course (src : Vector Source 8) (z : ZoneId) (k : Purpose) (h : Hub)
    (e : (h.zone z).state = .fadingOut k) :
    let y := { (h.leaveFade src z k).zone z with pending := Items.none }
    y.nudged ((h.endFadeOut src z).zone z) ∧ (∀ w, w ≠ z → (h.zone w).nudged ((h.endFadeOut src z).zone w)) ∧
      ((h.zone z).pending.layout = false →
        y.onCourse ((h.endFadeOut src z).zone z) ∧ ∀ w, w ≠ z → (h.zone w).onCourse ((h.endFadeOut src z).zone w)) ∧
      Hub.hasPosted (zoneStateNotice z ((h.endFadeOut src z).zone z)) h (h.endFadeOut src z) := by
  have hz : (h.endFadeOut src z).zones = ((h.leaveFade src z k).applyItems z).zones := by
    simp [Hub.endFadeOut, e, Hub.postZoneState]
  obtain ⟨-, -, -, -, o⟩ := Hub.leaveFade_zone src z k h
  obtain ⟨⟨-, -, -, pe, -, -⟩, -, -, -, -⟩ := Hub.leaveFade_zone src z k h
  obtain ⟨⟨u, uz, un⟩, c⟩ := Hub.applyItems_course z (h.leaveFade src z k)
  have us : u.zone z = { (h.leaveFade src z k).zone z with pending := Items.none } := by
    simp [Hub.zone, uz]
  have uo : ∀ w, w ≠ z → u.zone w = h.zone w := by
    intro w hw; rw [← o w hw]; simp [Hub.zone, uz, hw]
  simp only [Hub.zone_eq_of_zones hz]
  refine ⟨us ▸ un z, fun w hw => uo w hw ▸ un w, fun l => ?_, ?_⟩
  · obtain ⟨v, vz, vc⟩ := c (by rw [pe]; exact l)
    have vs : v.zone z = { (h.leaveFade src z k).zone z with pending := Items.none } := by
      simp [Hub.zone, vz]
    have vo : ∀ w, w ≠ z → v.zone w = h.zone w := by
      intro w hw; rw [← o w hw]; simp [Hub.zone, vz, hw]
    exact ⟨vs ▸ vc z, fun w hw => vo w hw ▸ vc w⟩
  · have a := (Hub.leaveFade_keepsPosted src z k h).trans (Hub.applyItems_keepsPosted z _)
    have b : Hub.hasPosted (zoneStateNotice z (((h.leaveFade src z k).applyItems z).zone z)) ((h.leaveFade src z k).applyItems z)
        (((h.leaveFade src z k).applyItems z).postZoneState z) := post_hasPosted _ _
    have e2 : h.endFadeOut src z = (((h.leaveFade src z k).applyItems z).postZoneState z).followMain src z := by
      simp [Hub.endFadeOut, e]
    rw [e2]
    exact (Hub.hasPosted.before a b).after (Hub.followMain_keepsPosted src z _)

end Sys2Proof.Machine
end

