-- ==== Sys2Proof/Laws/Requests.lean ====
section
/-! SUPPORT. What the shared operations of a request and of an event can do, said once: a request at a port that keeps
nothing, a request that is run, an event, and an event of a part that is kept in reset. -/

namespace Sys2Proof.Machine

variable {p : Port} {kind : Nat} {params : List Word}

/-- R173: the number of the free words of a reply, whatever they hold: at least `least`, up to the limit of 63. -/
theorem freeWords_length (least index : Nat) :
    (freeWords least index).length = min 63 (max least (Config.replyWords index)) := by
  simp [freeWords]

/-- R168, R187: a port listens where it does not keep nothing. -/
theorem State.keepsNothing_iff {s : State} : s.keepsNothing p = true ↔ ¬ s.listens p := by
  by_cases e : (s.ports.get p).receive = .ignoring <;> simp [State.keepsNothing, State.listens, e]

/-- R168, R187: a port that listens keeps what is shifted in. -/
theorem State.keeps_of_listens {s : State} (h : s.listens p) : s.keepsNothing p = false :=
  Bool.eq_false_iff.mpr fun k => State.keepsNothing_iff.mp k h

/-- R168, R187: a request frame at a port that does not listen has no effect but the port's return to IDLE. -/
theorem request_ignoring {s : State} (rule : State → State × Answer) (h : ¬ s.listens p) :
    request p kind params rule s = .next (s.setPort p { s.ports.get p with receive := .idle }) := by
  simp [request, State.keepsNothing_iff.mpr h, State.releaseSelect]

/-- R171, R172: what a request that is run leaves, whatever its rule. -/
theorem request_run {s : State} (rule : State → State × Answer) (h : s.listens p) :
    request p kind params rule s =
      .next
        (finishFrame p
          (rule (s.setPort p
            { (s.ports.get p).shiftIn (requestWord0 kind params.length) params (1 + params.length) with
              run := bump (s.ports.get p).run })).2
          (deliverOutbox (some p)
            (rule (s.setPort p
              { (s.ports.get p).shiftIn (requestWord0 kind params.length) params (1 + params.length) with
                run := bump (s.ports.get p).run })).1)) := by
  simp [request, State.keeps_of_listens h]

/-- R171, R172, R180: a request whose rule acts on the blocks behind Source Intake. -/
theorem request_onHub {s : State} (rule : Vector Source 8 → Hub → Hub × Answer) (h : s.listens p) :
    ∃ t, request p kind params (onHub rule) s = .next t ∧
      s.answers t p (s.ports.get p) (rule s.sources s.hub).2.status (rule s.sources s.hub).2.data
        (rule s.sources s.hub).1.outbox ∧
      t.sources = s.sources ∧ t.hub = { (rule s.sources s.hub).1 with outbox := [] } := by
  refine ⟨_, request_run _ h, ⟨?_, ?_, rfl, rfl⟩, rfl, rfl⟩
  · simp [PortRecord.answeredBy, finishFrame_port_same, deliverOutbox_port, onHub, PortRecord.place]
  · intro q hq
    have hpq : ¬ p = q := fun e => hq e.symm
    simp [hq, hpq, deliverOutbox_port, onHub]

/-- R171, R172, R180: a request whose rule acts on the sources and on the blocks behind them, and on no port. -/
theorem request_answers {s : State} (rule : State → State × Answer)
    (ports : ∀ u : State, (rule u).1.ports = u.ports ∧ (rule u).1.freeIndex = u.freeIndex ∧
      (rule u).1.pending = u.pending)
    (blocks : ∀ (u : State) (x : PortRecord), (rule (u.setPort p x)).2 = (rule u).2 ∧
      (rule (u.setPort p x)).1.sources = (rule u).1.sources ∧ (rule (u.setPort p x)).1.hub = (rule u).1.hub)
    (h : s.listens p) :
    ∃ t, request p kind params rule s = .next t ∧
      s.answers t p (s.ports.get p) (rule s).2.status (rule s).2.data (rule s).1.hub.outbox ∧
      t.sources = (rule s).1.sources ∧ t.hub = { (rule s).1.hub with outbox := [] } := by
  refine ⟨_, request_run _ h, ⟨?_, ?_, ?_, ?_⟩, ?_, ?_⟩
  · simp [PortRecord.answeredBy, deliverOutbox_port, PortRecord.place, ports, blocks]
  · intro q hq
    have hpq : ¬ p = q := fun e => hq e.symm
    simp [hq, hpq, deliverOutbox_port, ports, blocks]
  · simp [ports]
  · simp [ports]
  · simp [blocks]
  · simp [blocks]

/-- An event delivers its notices to every port, where the part is not kept in reset. -/
theorem event_next (f : State → State) {s : State} (h : s.hub.standby.inReset = false) :
    event f s = .next (deliverOutbox none (f s)) := by
  simp [event, tell, h]

/-- R187: an event has no effect while the part is kept in reset. -/
theorem event_inReset (f : State → State) {s : State} (h : s.hub.standby.inReset = true) : event f s = .next s := by
  simp [event, h]

/-- R180: an event that touches no port tells the ports its notices and no more. -/
theorem event_tells {f : State → State} {s : State} (h : s.hub.standby.inReset = false)
    (ports : (f s).ports = s.ports) (index : (f s).freeIndex = s.freeIndex) (pending : (f s).pending = s.pending) :
    ∃ t, event f s = .next t ∧ s.tells t (f s).hub.outbox ∧ t.sources = (f s).sources ∧
      t.hub = { (f s).hub with outbox := [] } := by
  refine ⟨_, event_next f h, ⟨fun q => ?_, index, pending⟩, rfl, rfl⟩
  simp [deliverOutbox_port, ports]

/-- R180: an event of the blocks behind Source Intake. -/
theorem event_onHub (f : Hub → Hub) {s : State} (h : s.hub.standby.inReset = false) :
    ∃ t, event (State.onHub f) s = .next t ∧ s.tells t (f s.hub).outbox ∧ t.sources = s.sources ∧
      t.hub = { f s.hub with outbox := [] } :=
  event_tells h rfl rfl rfl

end Sys2Proof.Machine
end

