-- ==== Sys2Proof/Laws/Settings.lean ====
section
/-! SUPPORT. What each operation that writes zone records leaves of the zones' settings: all of them, but for the operations of the
requests that write settings. -/

namespace Sys2Proof.Machine

@[simp] theorem Hub.holdItem_settings (join : Items → Items) (z : ZoneId) (h : Hub) :
    settingsOf (h.holdItem join z).zones = settingsOf h.zones := by
  unfold Hub.holdItem
  dsimp only
  repeat' split
  all_goals first | rfl | exact settingsOf_set rfl | simp

@[simp] theorem Hub.squeeze_settings (z : ZoneId) (h : Hub) :
    settingsOf (h.squeeze z).zones = settingsOf h.zones := by
  unfold Hub.squeeze
  dsimp only
  split
  · exact settingsOf_set (Zone.adoptGrant_settings (h.zone z))
  · rfl

@[simp] theorem Hub.makeRoomFrom_settings (skip : Option ZoneId) (extra : Nat) (z : ZoneId) (h : Hub) :
    settingsOf (h.makeRoomFrom skip extra z).zones = settingsOf h.zones := by
  unfold Hub.makeRoomFrom
  split <;> simp [Hub.zone, settingsOf_set]

@[simp] theorem Hub.makeRoom_settings (skip : Option ZoneId) (extra : Nat) (h : Hub) :
    settingsOf (h.makeRoom skip extra).zones = settingsOf h.zones := by
  simp [Hub.makeRoom, Hub.zone, settingsOf_set]

@[simp] theorem Hub.applyLipsync_settings (z : ZoneId) (h : Hub) :
    settingsOf (h.applyLipsync z).zones = settingsOf h.zones := by
  exact (settingsOf_set (Zone.adoptGrant_settings _)).trans (by simp)

@[simp] theorem Hub.tellGrant_settings (z : ZoneId) (ms : Nat) (h : Hub) :
    settingsOf (h.tellGrant z ms).zones = settingsOf h.zones := by
  unfold Hub.tellGrant
  dsimp only
  repeat' split
  all_goals
    first
    | rfl
    | exact settingsOf_set rfl
    | (simp; done)
    | (simp [Hub.zone]; exact settingsOf_set rfl)

@[simp] theorem Hub.applyGrant_settings (z : ZoneId) (h : Hub) :
    settingsOf (h.applyGrant z).zones = settingsOf h.zones := by
  unfold Hub.applyGrant
  split <;> simp [Hub.zone, settingsOf_set]

@[simp] theorem Hub.recompute_settings (h : Hub) : settingsOf (h.recompute).zones = settingsOf h.zones := by
  simp [Hub.recompute, Hub.zone, settingsOf_set]

@[simp] theorem Hub.adoptLayout_settings (h : Hub) : settingsOf (h.adoptLayout).zones = settingsOf h.zones := by
  unfold Hub.adoptLayout
  dsimp only
  repeat' split
  all_goals simp [Hub.zone, settingsOf_set]

@[simp] theorem Hub.applyLayout_settings (h : Hub) : settingsOf (h.applyLayout).zones = settingsOf h.zones := by
  simp [Hub.applyLayout, Hub.zone, settingsOf_set]

@[simp] theorem Hub.rewriteDerived_settings (x : Layout) (h : Hub) :
    settingsOf (h.rewriteDerived x).zones = settingsOf h.zones := by
  unfold Hub.rewriteDerived
  split <;> simp [Hub.zone, settingsOf_set]

@[simp] theorem Hub.takeDerived_settings (cause : Cause) (b : Bool) (h : Hub) :
    settingsOf (h.takeDerived cause b).zones = settingsOf h.zones := by
  unfold Hub.takeDerived Hub.raiseItem
  dsimp only
  repeat' split
  all_goals simp [Hub.zone, settingsOf_set]

@[simp] theorem Hub.deriveLayout_settings (cause : Cause) (h : Hub) :
    settingsOf (h.deriveLayout cause).zones = settingsOf h.zones := by
  simp [Hub.deriveLayout, Hub.zone, settingsOf_set]

@[simp] theorem Hub.adoptForFault_settings (h : Hub) : settingsOf (h.adoptForFault).zones = settingsOf h.zones := by
  simp [Hub.adoptForFault, Hub.zone, settingsOf_set]

@[simp] theorem Hub.clearLines_settings (z : ZoneId) (h : Hub) :
    settingsOf (h.clearLines z).zones = settingsOf h.zones := by
  unfold Hub.clearLines
  dsimp only
  repeat' split
  all_goals first | rfl | exact settingsOf_set rfl | simp

@[simp] theorem Hub.makeCurrent_settings (src : Vector Source 8) (z : ZoneId) (i : SourceId) (h : Hub) :
    settingsOf (h.makeCurrent src z i).zones = settingsOf h.zones := by
  unfold Hub.makeCurrent
  dsimp only
  repeat' split
  all_goals
    first
    | rfl
    | exact settingsOf_set rfl
    | (simp; done)
    | (simp [Hub.zone]; exact settingsOf_set rfl)

@[simp] theorem Hub.zoneOff_settings (z : ZoneId) (h : Hub) :
    settingsOf (h.zoneOff z).zones = settingsOf h.zones := by
  unfold Hub.zoneOff
  dsimp only
  repeat' split
  all_goals
    first
    | rfl
    | exact settingsOf_set rfl
    | (simp; done)
    | (simp [Hub.zone]; exact settingsOf_set rfl)

@[simp] theorem Hub.applyItems_settings (z : ZoneId) (h : Hub) :
    settingsOf (h.applyItems z).zones = settingsOf h.zones := by
  have e : settingsOf (h.setZone z { h.zone z with pending := .none }).zones = settingsOf h.zones := settingsOf_set rfl
  unfold Hub.applyItems
  dsimp only
  repeat' split
  all_goals simpa using e

@[simp] theorem Hub.leaveFade_settings (src : Vector Source 8) (z : ZoneId) (p : Purpose) (h : Hub) :
    settingsOf (h.leaveFade src z p).zones = settingsOf h.zones := by
  unfold Hub.leaveFade
  dsimp only
  repeat' split
  all_goals simp [Hub.zone, settingsOf_set]

@[simp] theorem Hub.endFadeOut_settings (src : Vector Source 8) (z : ZoneId) (h : Hub) :
    settingsOf (h.endFadeOut src z).zones = settingsOf h.zones := by
  unfold Hub.endFadeOut
  split <;> simp [Hub.zone, settingsOf_set]

@[simp] theorem Hub.zoneSourceLeaves_settings (src : Vector Source 8) (i : SourceId) (z : ZoneId) (h : Hub) :
    settingsOf (h.zoneSourceLeaves src i z).zones = settingsOf h.zones := by
  unfold Hub.zoneSourceLeaves
  dsimp only
  repeat' split
  all_goals
    first
    | rfl
    | exact settingsOf_set rfl
    | (simp; done)
    | (simp [Hub.zone]; exact settingsOf_set rfl)

@[simp] theorem Hub.zoneSourceEnters_settings (i : SourceId) (z : ZoneId) (h : Hub) :
    settingsOf (h.zoneSourceEnters i z).zones = settingsOf h.zones := by
  unfold Hub.zoneSourceEnters
  dsimp only
  repeat' split
  all_goals first | rfl | exact settingsOf_set rfl | simp

@[simp] theorem Hub.rederiveSilently_settings (src : Vector Source 8) (h : Hub) :
    settingsOf (h.rederive id src).zones = settingsOf h.zones := by
  unfold Hub.rederive Hub.raiseItem
  dsimp only
  repeat' split
  all_goals simp [Hub.zone, settingsOf_set]

@[simp] theorem Hub.sourceChanged_settings (src : Vector Source 8) (i : SourceId) (was b : Bool) (h : Hub) :
    settingsOf (h.sourceChanged src i was b).zones = settingsOf h.zones := by
  unfold Hub.sourceChanged
  dsimp only
  repeat' split
  all_goals simp [Hub.zone, settingsOf_set]

@[simp] theorem Hub.zoneBlockStart_settings (z : ZoneId) (h : Hub) :
    settingsOf (h.zoneBlockStart z).zones = settingsOf h.zones := by
  unfold Hub.zoneBlockStart
  dsimp only
  repeat' split
  all_goals simp [Hub.zone, settingsOf_set]

@[simp] theorem Hub.takeFadeOutEnd_settings (src : Vector Source 8) (z : ZoneId) (h : Hub) :
    settingsOf (h.takeFadeOutEnd src z).zones = settingsOf h.zones := by
  unfold Hub.takeFadeOutEnd
  dsimp only
  repeat' split
  all_goals simp [Hub.zone, settingsOf_set]

@[simp] theorem Hub.takeFadeInEnd_settings (z : ZoneId) (h : Hub) :
    settingsOf (h.takeFadeInEnd z).zones = settingsOf h.zones := by
  unfold Hub.takeFadeInEnd
  dsimp only
  repeat' split
  all_goals first | rfl | exact settingsOf_set rfl | simp

@[simp] theorem Hub.takeNoSignal_settings (z : ZoneId) (h : Hub) :
    settingsOf (h.takeNoSignal z).zones = settingsOf h.zones := by
  unfold Hub.takeNoSignal
  dsimp only
  repeat' split
  all_goals first | rfl | exact settingsOf_set rfl | simp

@[simp] theorem Hub.startZone_settings (src : Vector Source 8) (z : ZoneId) (h : Hub) :
    settingsOf (h.startZone src z).zones = settingsOf h.zones := by
  exact (settingsOf_set (Zone.fadeInOrWait_settings _ _)).trans (by simp)

@[simp] theorem Hub.openRelay_settings (l : LaneId) (h : Hub) :
    settingsOf (h.openRelay l).zones = settingsOf h.zones := by
  unfold Hub.openRelay
  dsimp only
  repeat' split
  all_goals simp [Hub.zone, settingsOf_set]

@[simp] theorem Hub.trip_settings (l : LaneId) (h : Hub) : settingsOf (h.trip l).zones = settingsOf h.zones := by
  unfold Hub.trip
  dsimp only
  repeat' split
  all_goals simp [Hub.zone, settingsOf_set]

@[simp] theorem Hub.enterClosing_settings (l : LaneId) (h : Hub) :
    settingsOf (h.enterClosing l).zones = settingsOf h.zones := by
  unfold Hub.enterClosing
  split <;> simp [Hub.zone, settingsOf_set]

@[simp] theorem Hub.examine_settings (l : LaneId) (h : Hub) :
    settingsOf (h.examine l).zones = settingsOf h.zones := by
  unfold Hub.examine
  dsimp only
  repeat' split
  all_goals simp [Hub.zone, settingsOf_set]

@[simp] theorem Hub.examineAll_settings (h : Hub) : settingsOf (h.examineAll).zones = settingsOf h.zones := by
  exact Hub.eachLane_keeps (fun g => settingsOf g.zones) Hub.examine (by simp) h

@[simp] theorem Hub.enterOpen_settings (l : LaneId) (h : Hub) :
    settingsOf (h.enterOpen l).zones = settingsOf h.zones := by
  simp [Hub.enterOpen, Hub.zone, settingsOf_set]

@[simp] theorem Hub.openAtOnce_settings (l : LaneId) (h : Hub) :
    settingsOf (h.openAtOnce l).zones = settingsOf h.zones := by
  unfold Hub.openAtOnce
  split <;> simp [Hub.zone, settingsOf_set]

@[simp] theorem Hub.openEvery_settings (h : Hub) :
    settingsOf (h.eachLane Hub.openAtOnce).zones = settingsOf h.zones := by
  exact Hub.eachLane_keeps (fun g => settingsOf g.zones) Hub.openAtOnce (by simp) h

@[simp] theorem Hub.assignNow_settings (l : LaneId) (t : Fin 12) (h : Hub) :
    settingsOf (h.assignNow l t).zones = settingsOf h.zones := by
  simp [Hub.assignNow, Hub.zone, settingsOf_set]

@[simp] theorem Hub.assign_settings (l : LaneId) (t : Fin 12) (h : Hub) :
    settingsOf (h.assign l t).zones = settingsOf h.zones := by
  unfold Hub.assign
  dsimp only
  repeat' split
  all_goals simp [Hub.zone, settingsOf_set]

@[simp] theorem Hub.takeRelayOpened_settings (l : LaneId) (h : Hub) :
    settingsOf (h.takeRelayOpened l).zones = settingsOf h.zones := by
  unfold Hub.takeRelayOpened
  split <;> simp [Hub.zone, settingsOf_set]

@[simp] theorem Hub.takeRetryEnd_settings (l : LaneId) (h : Hub) :
    settingsOf (h.takeRetryEnd l).zones = settingsOf h.zones := by
  unfold Hub.takeRetryEnd
  dsimp only
  repeat' split
  all_goals simp [Hub.zone, settingsOf_set]

@[simp] theorem Hub.faultInput_settings (l : LaneId) (v : Bool) (h : Hub) :
    settingsOf (h.faultInput l v).zones = settingsOf h.zones := by
  unfold Hub.faultInput
  dsimp only
  repeat' split
  all_goals simp [Hub.zone, settingsOf_set]

@[simp] theorem Hub.dcReading_settings (l : LaneId) (c : BitVec 12) (h : Hub) :
    settingsOf (h.dcReading l c).zones = settingsOf h.zones := by
  unfold Hub.dcReading
  dsimp only
  repeat' split
  all_goals simp [Hub.zone, settingsOf_set]

@[simp] theorem Hub.clearFault_settings (l : LaneId) (b : Bool) (h : Hub) :
    settingsOf (h.clearFault l b).zones = settingsOf h.zones := by
  unfold Hub.clearFault
  dsimp only
  repeat' split
  all_goals simp [Hub.zone, settingsOf_set]

@[simp] theorem Hub.judgeTemperature_settings (h : Hub) :
    settingsOf (h.judgeTemperature).zones = settingsOf h.zones := by
  unfold Hub.judgeTemperature
  dsimp only
  repeat' split
  all_goals simp [Hub.zone, settingsOf_set]

@[simp] theorem Hub.takeTemperature_settings (h : Hub) :
    settingsOf (h.takeTemperature).zones = settingsOf h.zones := by
  simp [Hub.takeTemperature, Hub.zone, settingsOf_set]

@[simp] theorem Hub.takeFanWindow_settings (h : Hub) : settingsOf (h.takeFanWindow).zones = settingsOf h.zones := by
  unfold Hub.takeFanWindow
  dsimp only
  repeat' split
  all_goals simp [Hub.zone, settingsOf_set]

@[simp] theorem Hub.supplyReading_settings (c : BitVec 12) (h : Hub) :
    settingsOf (h.supplyReading c).zones = settingsOf h.zones := by
  unfold Hub.supplyReading
  dsimp only
  repeat' split
  all_goals simp [Hub.zone, settingsOf_set]

@[simp] theorem Hub.conversion_settings (k : SenseChannel) (c : BitVec 12) (h : Hub) :
    settingsOf (h.conversion k c).zones = settingsOf h.zones := by
  unfold Hub.conversion
  dsimp only
  repeat' split
  all_goals simp [Hub.zone, settingsOf_set]

@[simp] theorem Hub.takeDelayEnd_settings (h : Hub) : settingsOf (h.takeDelayEnd).zones = settingsOf h.zones := by
  unfold Hub.takeDelayEnd
  split <;> simp [Hub.zone, settingsOf_set]

@[simp] theorem Hub.playPeriod_settings (src : Vector Source 8) (f : SourceId → Frame) (h : Hub) :
    settingsOf (h.playPeriod src f).zones = settingsOf h.zones := by
  unfold Hub.playPeriod
  dsimp only
  repeat' split
  all_goals first | rfl | exact settingsOf_set rfl | simp

@[simp] theorem Hub.laneToStandby_settings (l : LaneId) (h : Hub) :
    settingsOf (h.laneToStandby l).zones = settingsOf h.zones := by
  unfold Hub.laneToStandby
  dsimp only
  repeat' split
  all_goals simp [Hub.zone, settingsOf_set]

@[simp] theorem Hub.lanesToStandby_settings (h : Hub) :
    settingsOf (h.eachLane Hub.laneToStandby).zones = settingsOf h.zones := by
  exact Hub.eachLane_keeps (fun g => settingsOf g.zones) Hub.laneToStandby (by simp) h

@[simp] theorem Hub.audioToStandby_settings (h : Hub) :
    settingsOf (h.audioToStandby).zones = settingsOf h.zones := by
  unfold Hub.audioToStandby
  dsimp only
  repeat' split
  all_goals simp [Hub.zone, settingsOf_set]

@[simp] theorem Hub.enterStandby_settings (h : Hub) : settingsOf (h.enterStandby).zones = settingsOf h.zones := by
  simp [Hub.enterStandby, Hub.zone, settingsOf_set]

@[simp] theorem Hub.blockStart_settings (src : Vector Source 8) (h : Hub) :
    settingsOf (h.blockStart src).zones = settingsOf h.zones := by
  simp [Hub.blockStart, Hub.zone, settingsOf_set]

@[simp] theorem Hub.temperatureEvent_settings (h : Hub) :
    settingsOf (h.temperatureEvent).zones = settingsOf h.zones := by
  unfold Hub.temperatureEvent
  split <;> simp [Hub.zone, settingsOf_set]

@[simp] theorem Hub.faultLayoutEvent_settings (src : Vector Source 8) (h : Hub) :
    settingsOf (h.faultLayoutEvent src).zones = settingsOf h.zones := by
  unfold Hub.faultLayoutEvent
  split <;> simp [Hub.zone, settingsOf_set]

@[simp] theorem Hub.takeDue_settings (src : Vector Source 8) (d : Due) (h : Hub) :
    settingsOf (h.takeDue src d).zones = settingsOf h.zones := by
  unfold Hub.takeDue
  split <;> simp [Hub.zone, settingsOf_set]

@[simp] theorem Hub.powerChanged_settings (h : Hub) : settingsOf (h.powerChanged).zones = settingsOf h.zones := by
  simp [Hub.powerChanged, Hub.zone, settingsOf_set]

end Sys2Proof.Machine
end

