-- ==== Sys2Proof/Laws/Tables.lean ====
section
/-! SUPPORT. What each operation that writes the renderer record leaves of the layout tables: all of them. -/

namespace Sys2Proof.Machine

@[simp] theorem Hub.adoptDecode_tables (h : Hub) : (h.adoptDecode).renderer.tables = h.renderer.tables := by
  unfold Hub.adoptDecode
  dsimp only
  repeat' split
  all_goals simp

@[simp] theorem Hub.applyDecode_tables (h : Hub) : (h.applyDecode).renderer.tables = h.renderer.tables := by
  simp [Hub.applyDecode]

@[simp] theorem Hub.handover_tables (src : Vector Source 8) (i : SourceId) (h : Hub) :
    (h.handover src i).renderer.tables = h.renderer.tables := by
  simp [Hub.handover]

@[simp] theorem Hub.decideBlock_tables (src : Vector Source 8) (h : Hub) :
    (h.decideBlock src).renderer.tables = h.renderer.tables := by
  simp [Hub.decideBlock]

@[simp] theorem Hub.adoptLayout_tables (h : Hub) : (h.adoptLayout).renderer.tables = h.renderer.tables := by
  unfold Hub.adoptLayout
  dsimp only
  repeat' split
  all_goals simp

@[simp] theorem Hub.applyLayout_tables (h : Hub) : (h.applyLayout).renderer.tables = h.renderer.tables := by
  simp [Hub.applyLayout]

@[simp] theorem Hub.rewriteDerived_tables (x : Layout) (h : Hub) :
    (h.rewriteDerived x).renderer.tables = h.renderer.tables := by
  unfold Hub.rewriteDerived
  split <;> simp

@[simp] theorem Hub.takeDerived_tables (cause : Cause) (b : Bool) (h : Hub) :
    (h.takeDerived cause b).renderer.tables = h.renderer.tables := by
  unfold Hub.takeDerived Hub.raiseItem
  dsimp only
  repeat' split
  all_goals simp

@[simp] theorem Hub.deriveLayout_tables (cause : Cause) (h : Hub) :
    (h.deriveLayout cause).renderer.tables = h.renderer.tables := by
  simp [Hub.deriveLayout]

@[simp] theorem Hub.adoptForFault_tables (h : Hub) : (h.adoptForFault).renderer.tables = h.renderer.tables := by
  simp [Hub.adoptForFault]

@[simp] theorem Hub.clearLines_tables (z : ZoneId) (h : Hub) :
    (h.clearLines z).renderer.tables = h.renderer.tables := by
  unfold Hub.clearLines
  split <;> simp

@[simp] theorem Hub.makeCurrent_tables (src : Vector Source 8) (z : ZoneId) (i : SourceId) (h : Hub) :
    (h.makeCurrent src z i).renderer.tables = h.renderer.tables := by
  unfold Hub.makeCurrent
  split <;> simp

@[simp] theorem Hub.zoneOff_tables (z : ZoneId) (h : Hub) : (h.zoneOff z).renderer.tables = h.renderer.tables := by
  unfold Hub.zoneOff
  split <;> simp

@[simp] theorem Hub.applyItems_tables (z : ZoneId) (h : Hub) :
    (h.applyItems z).renderer.tables = h.renderer.tables := by
  unfold Hub.applyItems
  dsimp only
  repeat' split
  all_goals simp

@[simp] theorem Hub.leaveFade_tables (src : Vector Source 8) (z : ZoneId) (p : Purpose) (h : Hub) :
    (h.leaveFade src z p).renderer.tables = h.renderer.tables := by
  unfold Hub.leaveFade
  dsimp only
  repeat' split
  all_goals simp

@[simp] theorem Hub.endFadeOut_tables (src : Vector Source 8) (z : ZoneId) (h : Hub) :
    (h.endFadeOut src z).renderer.tables = h.renderer.tables := by
  unfold Hub.endFadeOut
  split <;> simp

@[simp] theorem Hub.zoneSourceLeaves_tables (src : Vector Source 8) (i : SourceId) (z : ZoneId) (h : Hub) :
    (h.zoneSourceLeaves src i z).renderer.tables = h.renderer.tables := by
  unfold Hub.zoneSourceLeaves
  dsimp only
  repeat' split
  all_goals simp

@[simp] theorem Hub.rederiveSilently_tables (src : Vector Source 8) (h : Hub) :
    (h.rederive id src).renderer.tables = h.renderer.tables := by
  unfold Hub.rederive Hub.raiseItem
  dsimp only
  repeat' split
  all_goals simp

@[simp] theorem Hub.sourceChanged_tables (src : Vector Source 8) (i : SourceId) (was b : Bool) (h : Hub) :
    (h.sourceChanged src i was b).renderer.tables = h.renderer.tables := by
  unfold Hub.sourceChanged
  dsimp only
  repeat' split
  all_goals simp

@[simp] theorem Hub.decideForMain_tables (src : Vector Source 8) (z : ZoneId) (h : Hub) :
    (h.decideForMain src z).renderer.tables = h.renderer.tables := by
  unfold Hub.decideForMain
  split <;> simp

@[simp] theorem Hub.takeFadeOutEnd_tables (src : Vector Source 8) (z : ZoneId) (h : Hub) :
    (h.takeFadeOutEnd src z).renderer.tables = h.renderer.tables := by
  unfold Hub.takeFadeOutEnd
  dsimp only
  repeat' split
  all_goals simp

@[simp] theorem Hub.startZone_tables (src : Vector Source 8) (z : ZoneId) (h : Hub) :
    (h.startZone src z).renderer.tables = h.renderer.tables := by
  simp [Hub.startZone]

@[simp] theorem Hub.zonePowerOn_tables (src : Vector Source 8) (z : ZoneId) (h : Hub) :
    (h.zonePowerOn src z).renderer.tables = h.renderer.tables := by
  unfold Hub.zonePowerOn
  dsimp only
  repeat' split
  all_goals simp

@[simp] theorem Hub.zonePowerOff_tables (src : Vector Source 8) (z : ZoneId) (h : Hub) :
    (h.zonePowerOff src z).renderer.tables = h.renderer.tables := by
  unfold Hub.zonePowerOff
  dsimp only
  repeat' split
  all_goals simp

@[simp] theorem Hub.selectSource_tables (src : Vector Source 8) (z : ZoneId) (i : SourceId) (h : Hub) :
    (h.selectSource src z i).renderer.tables = h.renderer.tables := by
  unfold Hub.selectSource
  dsimp only
  repeat' split
  all_goals simp

@[simp] theorem Hub.openRelay_tables (l : LaneId) (h : Hub) :
    (h.openRelay l).renderer.tables = h.renderer.tables := by
  unfold Hub.openRelay
  dsimp only
  repeat' split
  all_goals simp

@[simp] theorem Hub.trip_tables (l : LaneId) (h : Hub) : (h.trip l).renderer.tables = h.renderer.tables := by
  unfold Hub.trip
  dsimp only
  repeat' split
  all_goals simp

@[simp] theorem Hub.enterClosing_tables (l : LaneId) (h : Hub) :
    (h.enterClosing l).renderer.tables = h.renderer.tables := by
  unfold Hub.enterClosing
  split <;> simp

@[simp] theorem Hub.examine_tables (l : LaneId) (h : Hub) : (h.examine l).renderer.tables = h.renderer.tables := by
  unfold Hub.examine
  dsimp only
  repeat' split
  all_goals simp

@[simp] theorem Hub.examineAll_tables (h : Hub) : (h.examineAll).renderer.tables = h.renderer.tables := by
  exact Hub.eachLane_keeps (fun g => g.renderer.tables) Hub.examine (by simp) h

@[simp] theorem Hub.enterOpen_tables (l : LaneId) (h : Hub) :
    (h.enterOpen l).renderer.tables = h.renderer.tables := by
  simp [Hub.enterOpen]

@[simp] theorem Hub.openAtOnce_tables (l : LaneId) (h : Hub) :
    (h.openAtOnce l).renderer.tables = h.renderer.tables := by
  unfold Hub.openAtOnce
  split <;> simp

@[simp] theorem Hub.openEvery_tables (h : Hub) :
    (h.eachLane Hub.openAtOnce).renderer.tables = h.renderer.tables := by
  exact Hub.eachLane_keeps (fun g => g.renderer.tables) Hub.openAtOnce (by simp) h

@[simp] theorem Hub.assignNow_tables (l : LaneId) (t : Fin 12) (h : Hub) :
    (h.assignNow l t).renderer.tables = h.renderer.tables := by
  simp [Hub.assignNow]

@[simp] theorem Hub.assign_tables (l : LaneId) (t : Fin 12) (h : Hub) :
    (h.assign l t).renderer.tables = h.renderer.tables := by
  unfold Hub.assign
  dsimp only
  repeat' split
  all_goals simp

@[simp] theorem Hub.takeRelayOpened_tables (l : LaneId) (h : Hub) :
    (h.takeRelayOpened l).renderer.tables = h.renderer.tables := by
  unfold Hub.takeRelayOpened
  split <;> simp

@[simp] theorem Hub.takeRetryEnd_tables (l : LaneId) (h : Hub) :
    (h.takeRetryEnd l).renderer.tables = h.renderer.tables := by
  unfold Hub.takeRetryEnd
  dsimp only
  repeat' split
  all_goals simp

@[simp] theorem Hub.faultInput_tables (l : LaneId) (v : Bool) (h : Hub) :
    (h.faultInput l v).renderer.tables = h.renderer.tables := by
  unfold Hub.faultInput
  dsimp only
  repeat' split
  all_goals simp

@[simp] theorem Hub.dcReading_tables (l : LaneId) (c : BitVec 12) (h : Hub) :
    (h.dcReading l c).renderer.tables = h.renderer.tables := by
  unfold Hub.dcReading
  dsimp only
  repeat' split
  all_goals simp

@[simp] theorem Hub.clearFault_tables (l : LaneId) (b : Bool) (h : Hub) :
    (h.clearFault l b).renderer.tables = h.renderer.tables := by
  unfold Hub.clearFault
  dsimp only
  repeat' split
  all_goals simp

@[simp] theorem Hub.judgeTemperature_tables (h : Hub) :
    (h.judgeTemperature).renderer.tables = h.renderer.tables := by
  unfold Hub.judgeTemperature
  dsimp only
  repeat' split
  all_goals simp

@[simp] theorem Hub.takeTemperature_tables (h : Hub) : (h.takeTemperature).renderer.tables = h.renderer.tables := by
  simp [Hub.takeTemperature]

@[simp] theorem Hub.takeFanWindow_tables (h : Hub) : (h.takeFanWindow).renderer.tables = h.renderer.tables := by
  unfold Hub.takeFanWindow
  dsimp only
  repeat' split
  all_goals simp

@[simp] theorem Hub.supplyReading_tables (c : BitVec 12) (h : Hub) :
    (h.supplyReading c).renderer.tables = h.renderer.tables := by
  unfold Hub.supplyReading
  dsimp only
  repeat' split
  all_goals simp

@[simp] theorem Hub.conversion_tables (k : SenseChannel) (c : BitVec 12) (h : Hub) :
    (h.conversion k c).renderer.tables = h.renderer.tables := by
  unfold Hub.conversion
  dsimp only
  repeat' split
  all_goals simp

@[simp] theorem Hub.takeDelayEnd_tables (h : Hub) : (h.takeDelayEnd).renderer.tables = h.renderer.tables := by
  unfold Hub.takeDelayEnd
  split <;> simp

@[simp] theorem Hub.driveLanes_tables (x : Feeds) (h : Hub) :
    (h.driveLanes x).renderer.tables = h.renderer.tables := by
  simp [Hub.driveLanes]

@[simp] theorem Hub.driveLines_tables (x : Feeds) (h : Hub) :
    (h.driveLines x).renderer.tables = h.renderer.tables := by
  simp [Hub.driveLines]

@[simp] theorem Hub.latchOutputs_tables (h : Hub) : (h.latchOutputs).renderer.tables = h.renderer.tables := by
  simp [Hub.latchOutputs]

@[simp] theorem Hub.playPeriod_tables (src : Vector Source 8) (f : SourceId → Frame) (h : Hub) :
    (h.playPeriod src f).renderer.tables = h.renderer.tables := by
  simp [Hub.playPeriod]

@[simp] theorem Hub.laneToStandby_tables (l : LaneId) (h : Hub) :
    (h.laneToStandby l).renderer.tables = h.renderer.tables := by
  unfold Hub.laneToStandby
  dsimp only
  repeat' split
  all_goals simp

@[simp] theorem Hub.lanesToStandby_tables (h : Hub) :
    (h.eachLane Hub.laneToStandby).renderer.tables = h.renderer.tables := by
  exact Hub.eachLane_keeps (fun g => g.renderer.tables) Hub.laneToStandby (by simp) h

@[simp] theorem Hub.audioToStandby_tables (h : Hub) : (h.audioToStandby).renderer.tables = h.renderer.tables := by
  unfold Hub.audioToStandby
  dsimp only
  repeat' split
  all_goals simp

@[simp] theorem Hub.enterStandby_tables (h : Hub) : (h.enterStandby).renderer.tables = h.renderer.tables := by
  simp [Hub.enterStandby]

@[simp] theorem Hub.blockStart_tables (src : Vector Source 8) (h : Hub) :
    (h.blockStart src).renderer.tables = h.renderer.tables := by
  simp [Hub.blockStart]

@[simp] theorem Hub.temperatureEvent_tables (h : Hub) :
    (h.temperatureEvent).renderer.tables = h.renderer.tables := by
  unfold Hub.temperatureEvent
  split <;> simp

@[simp] theorem Hub.faultLayoutEvent_tables (src : Vector Source 8) (h : Hub) :
    (h.faultLayoutEvent src).renderer.tables = h.renderer.tables := by
  unfold Hub.faultLayoutEvent
  split <;> simp

@[simp] theorem Hub.takeDue_tables (src : Vector Source 8) (d : Due) (h : Hub) :
    (h.takeDue src d).renderer.tables = h.renderer.tables := by
  unfold Hub.takeDue
  split <;> simp

@[simp] theorem Hub.powerChanged_tables (h : Hub) : (h.powerChanged).renderer.tables = h.renderer.tables := by
  simp [Hub.powerChanged]

@[simp] theorem Hub.turnOff_tables (src : Vector Source 8) (z : ZoneId) (h : Hub) :
    (h.turnOff src z).renderer.tables = h.renderer.tables := by
  unfold Hub.turnOff
  split <;> simp

@[simp] theorem Hub.turnOn_tables (src : Vector Source 8) (z : ZoneId) (h : Hub) :
    (h.turnOn src z).renderer.tables = h.renderer.tables := by
  unfold Hub.turnOn
  split <;> simp

end Sys2Proof.Machine
end

