-- ==== Sys2Proof/Laws/StateFrames.lean ====
section
/-! SUPPORT. What each operation over the whole state leaves unchanged: the ports and the waiting commands, and for an
operation of Source Intake the blocks that react to no source. -/

namespace Sys2Proof.Machine

/-- What each source's turn keeps, the turns of all sources keep. -/
theorem State.eachSource_keeps {α : Type} (g : State → α) (f : SourceId → State → State)
    (keeps : ∀ i s, g (f i s) = g s) (s : State) : g (s.eachSource f) = g s := by
  have all : ∀ (is : List SourceId) (t : State), g (is.foldl (fun u i => f i u) t) = g t := by
    intro is
    induction is with
    | nil => exact fun _ => rfl
    | cons i is ih => exact fun t => (ih (f i t)).trans (keeps i t)
  exact all (List.finRange 8) s

@[simp] theorem State.setSource_frame (i : SourceId) (x : Source) (s : State) :
    (s.setSource i x).ports = s.ports ∧ (s.setSource i x).freeIndex = s.freeIndex ∧
      (s.setSource i x).pending = s.pending ∧ (s.setSource i x).hub.lanes = s.hub.lanes ∧
      (s.setSource i x).hub.protection = s.hub.protection ∧ (s.setSource i x).hub.radio = s.hub.radio ∧
      (s.setSource i x).hub.station = s.hub.station ∧
      settingsOf (s.setSource i x).hub.zones = settingsOf s.hub.zones ∧
      (s.setSource i x).hub.renderer.tables = s.hub.renderer.tables := by
  exact ⟨rfl, rfl, rfl, rfl, rfl, rfl, rfl, rfl, rfl⟩

@[simp] theorem State.changeSource_frame (i : SourceId) (x : Source) (s : State) :
    (s.changeSource i x).ports = s.ports ∧ (s.changeSource i x).freeIndex = s.freeIndex ∧
      (s.changeSource i x).pending = s.pending ∧ (s.changeSource i x).hub.lanes = s.hub.lanes ∧
      (s.changeSource i x).hub.protection = s.hub.protection ∧ (s.changeSource i x).hub.radio = s.hub.radio ∧
      (s.changeSource i x).hub.station = s.hub.station ∧
      settingsOf (s.changeSource i x).hub.zones = settingsOf s.hub.zones ∧
      (s.changeSource i x).hub.renderer.tables = s.hub.renderer.tables := by
  simp [State.changeSource]

@[simp] theorem State.writeFrame_frame (i : SourceId) (f : Frame) (s : State) :
    (s.writeFrame i f).ports = s.ports ∧ (s.writeFrame i f).freeIndex = s.freeIndex ∧
      (s.writeFrame i f).pending = s.pending ∧ (s.writeFrame i f).hub.lanes = s.hub.lanes ∧
      (s.writeFrame i f).hub.protection = s.hub.protection ∧ (s.writeFrame i f).hub.radio = s.hub.radio ∧
      (s.writeFrame i f).hub.station = s.hub.station ∧
      settingsOf (s.writeFrame i f).hub.zones = settingsOf s.hub.zones ∧
      (s.writeFrame i f).hub.renderer.tables = s.hub.renderer.tables := by
  unfold State.writeFrame
  dsimp only
  split <;> simp

@[simp] theorem State.arrive_frame (i : SourceId) (f : Frame) (s : State) :
    (s.arrive i f).ports = s.ports ∧ (s.arrive i f).freeIndex = s.freeIndex ∧ (s.arrive i f).pending = s.pending ∧
      (s.arrive i f).hub.lanes = s.hub.lanes ∧ (s.arrive i f).hub.protection = s.hub.protection ∧
      (s.arrive i f).hub.radio = s.hub.radio ∧ (s.arrive i f).hub.station = s.hub.station ∧
      settingsOf (s.arrive i f).hub.zones = settingsOf s.hub.zones ∧
      (s.arrive i f).hub.renderer.tables = s.hub.renderer.tables := by
  unfold State.arrive
  dsimp only
  repeat' split
  all_goals simp

@[simp] theorem State.adoptRecord_frame (i : SourceId) (r : StatusRecord) (s : State) :
    (s.adoptRecord i r).ports = s.ports ∧ (s.adoptRecord i r).freeIndex = s.freeIndex ∧
      (s.adoptRecord i r).pending = s.pending ∧ (s.adoptRecord i r).hub.lanes = s.hub.lanes ∧
      (s.adoptRecord i r).hub.protection = s.hub.protection ∧ (s.adoptRecord i r).hub.radio = s.hub.radio ∧
      (s.adoptRecord i r).hub.station = s.hub.station ∧
      settingsOf (s.adoptRecord i r).hub.zones = settingsOf s.hub.zones ∧
      (s.adoptRecord i r).hub.renderer.tables = s.hub.renderer.tables := by
  simp [State.adoptRecord]

@[simp] theorem State.checkBlock_frame (i : SourceId) (b : StatusBlock) (s : State) :
    (s.checkBlock i b).ports = s.ports ∧ (s.checkBlock i b).freeIndex = s.freeIndex ∧
      (s.checkBlock i b).pending = s.pending ∧ (s.checkBlock i b).hub.lanes = s.hub.lanes ∧
      (s.checkBlock i b).hub.protection = s.hub.protection ∧ (s.checkBlock i b).hub.radio = s.hub.radio ∧
      (s.checkBlock i b).hub.station = s.hub.station ∧
      settingsOf (s.checkBlock i b).hub.zones = settingsOf s.hub.zones ∧
      (s.checkBlock i b).hub.renderer.tables = s.hub.renderer.tables := by
  unfold State.checkBlock
  dsimp only
  repeat' split
  all_goals simp

@[simp] theorem State.collect_frame (i : SourceId) (x y : Bool) (s : State) :
    (s.collect i x y).ports = s.ports ∧ (s.collect i x y).freeIndex = s.freeIndex ∧
      (s.collect i x y).pending = s.pending ∧ (s.collect i x y).hub.lanes = s.hub.lanes ∧
      (s.collect i x y).hub.protection = s.hub.protection ∧ (s.collect i x y).hub.radio = s.hub.radio ∧
      (s.collect i x y).hub.station = s.hub.station ∧
      settingsOf (s.collect i x y).hub.zones = settingsOf s.hub.zones ∧
      (s.collect i x y).hub.renderer.tables = s.hub.renderer.tables := by
  unfold State.collect
  dsimp only
  repeat' split
  all_goals simp

@[simp] theorem State.holdMask_frame (i : SourceId) (g : Bool) (m : BitVec 4) (s : State) :
    (s.holdMask i g m).ports = s.ports ∧ (s.holdMask i g m).freeIndex = s.freeIndex ∧
      (s.holdMask i g m).pending = s.pending ∧ (s.holdMask i g m).hub.lanes = s.hub.lanes ∧
      (s.holdMask i g m).hub.protection = s.hub.protection ∧ (s.holdMask i g m).hub.radio = s.hub.radio ∧
      (s.holdMask i g m).hub.station = s.hub.station ∧
      settingsOf (s.holdMask i g m).hub.zones = settingsOf s.hub.zones ∧
      (s.holdMask i g m).hub.renderer.tables = s.hub.renderer.tables := by
  unfold State.holdMask
  dsimp only
  repeat' split
  all_goals simp

@[simp] theorem State.arriveTimes_frame (i : SourceId) (f : Frame) (n : Nat) (s : State) :
    (s.arriveTimes i f n).ports = s.ports ∧ (s.arriveTimes i f n).freeIndex = s.freeIndex ∧
      (s.arriveTimes i f n).pending = s.pending ∧ (s.arriveTimes i f n).hub.lanes = s.hub.lanes ∧
      (s.arriveTimes i f n).hub.protection = s.hub.protection ∧ (s.arriveTimes i f n).hub.radio = s.hub.radio ∧
      (s.arriveTimes i f n).hub.station = s.hub.station ∧
      settingsOf (s.arriveTimes i f n).hub.zones = settingsOf s.hub.zones ∧
      (s.arriveTimes i f n).hub.renderer.tables = s.hub.renderer.tables := by
  induction n generalizing s with
  | zero => simp [State.arriveTimes]
  | succ n ih => simp [State.arriveTimes, ih]

@[simp] theorem State.writeCompleted_frame (i : SourceId) (q : Nat) (f : Frame) (s : State) :
    (s.writeCompleted i q f).ports = s.ports ∧ (s.writeCompleted i q f).freeIndex = s.freeIndex ∧
      (s.writeCompleted i q f).pending = s.pending ∧ (s.writeCompleted i q f).hub.lanes = s.hub.lanes ∧
      (s.writeCompleted i q f).hub.protection = s.hub.protection ∧
      (s.writeCompleted i q f).hub.radio = s.hub.radio ∧ (s.writeCompleted i q f).hub.station = s.hub.station ∧
      settingsOf (s.writeCompleted i q f).hub.zones = settingsOf s.hub.zones ∧
      (s.writeCompleted i q f).hub.renderer.tables = s.hub.renderer.tables := by
  unfold State.writeCompleted
  dsimp only
  repeat' split
  all_goals simp

@[simp] theorem State.assemble_frame (i : SourceId) (q : Nat) (g : Bool) (x : Part) (s : State) :
    (s.assemble i q g x).ports = s.ports ∧ (s.assemble i q g x).freeIndex = s.freeIndex ∧
      (s.assemble i q g x).pending = s.pending ∧ (s.assemble i q g x).hub.lanes = s.hub.lanes ∧
      (s.assemble i q g x).hub.protection = s.hub.protection ∧ (s.assemble i q g x).hub.radio = s.hub.radio ∧
      (s.assemble i q g x).hub.station = s.hub.station ∧
      settingsOf (s.assemble i q g x).hub.zones = settingsOf s.hub.zones ∧
      (s.assemble i q g x).hub.renderer.tables = s.hub.renderer.tables := by
  unfold State.assemble
  dsimp only
  repeat' split
  all_goals simp

@[simp] theorem State.acceptPacket_frame (i : SourceId) (q : Nat) (g : Bool) (x : Part) (d : BitVec 26) (s : State) :
    (s.acceptPacket i q g x d).ports = s.ports ∧ (s.acceptPacket i q g x d).freeIndex = s.freeIndex ∧
      (s.acceptPacket i q g x d).pending = s.pending ∧ (s.acceptPacket i q g x d).hub.lanes = s.hub.lanes ∧
      (s.acceptPacket i q g x d).hub.protection = s.hub.protection ∧
      (s.acceptPacket i q g x d).hub.radio = s.hub.radio ∧
      (s.acceptPacket i q g x d).hub.station = s.hub.station ∧
      settingsOf (s.acceptPacket i q g x d).hub.zones = settingsOf s.hub.zones ∧
      (s.acceptPacket i q g x d).hub.renderer.tables = s.hub.renderer.tables := by
  unfold State.acceptPacket
  dsimp only
  repeat' split
  all_goals simp

@[simp] theorem State.testHeader_frame (i : SourceId) (k : PacketHeader) (a b c d : BitVec 26) (s : State) :
    (s.testHeader i k a b c d).ports = s.ports ∧ (s.testHeader i k a b c d).freeIndex = s.freeIndex ∧
      (s.testHeader i k a b c d).pending = s.pending ∧ (s.testHeader i k a b c d).hub.lanes = s.hub.lanes ∧
      (s.testHeader i k a b c d).hub.protection = s.hub.protection ∧
      (s.testHeader i k a b c d).hub.radio = s.hub.radio ∧
      (s.testHeader i k a b c d).hub.station = s.hub.station ∧
      settingsOf (s.testHeader i k a b c d).hub.zones = settingsOf s.hub.zones ∧
      (s.testHeader i k a b c d).hub.renderer.tables = s.hub.renderer.tables := by
  unfold State.testHeader
  dsimp only
  repeat' split
  all_goals simp

@[simp] theorem State.packet_frame (i : SourceId) (ws : List CodeWord) (s : State) :
    (s.packet i ws).ports = s.ports ∧ (s.packet i ws).freeIndex = s.freeIndex ∧
      (s.packet i ws).pending = s.pending ∧ (s.packet i ws).hub.lanes = s.hub.lanes ∧
      (s.packet i ws).hub.protection = s.hub.protection ∧ (s.packet i ws).hub.radio = s.hub.radio ∧
      (s.packet i ws).hub.station = s.hub.station ∧
      settingsOf (s.packet i ws).hub.zones = settingsOf s.hub.zones ∧
      (s.packet i ws).hub.renderer.tables = s.hub.renderer.tables := by
  unfold State.packet
  dsimp only
  repeat' split
  all_goals simp

@[simp] theorem State.serialFrame_frame (i : SourceId) (l r : BitVec 24) (v x b : Bool) (s : State) :
    (s.serialFrame i l r v x b).ports = s.ports ∧ (s.serialFrame i l r v x b).freeIndex = s.freeIndex ∧
      (s.serialFrame i l r v x b).pending = s.pending ∧ (s.serialFrame i l r v x b).hub.lanes = s.hub.lanes ∧
      (s.serialFrame i l r v x b).hub.protection = s.hub.protection ∧
      (s.serialFrame i l r v x b).hub.radio = s.hub.radio ∧
      (s.serialFrame i l r v x b).hub.station = s.hub.station ∧
      settingsOf (s.serialFrame i l r v x b).hub.zones = settingsOf s.hub.zones ∧
      (s.serialFrame i l r v x b).hub.renderer.tables = s.hub.renderer.tables := by
  unfold State.serialFrame
  split <;> simp

@[simp] theorem State.takeChange_frame (i : SourceId) (s : State) :
    (s.takeChange i).ports = s.ports ∧ (s.takeChange i).freeIndex = s.freeIndex ∧
      (s.takeChange i).pending = s.pending ∧ (s.takeChange i).hub.lanes = s.hub.lanes ∧
      (s.takeChange i).hub.protection = s.hub.protection ∧ (s.takeChange i).hub.radio = s.hub.radio ∧
      (s.takeChange i).hub.station = s.hub.station ∧
      settingsOf (s.takeChange i).hub.zones = settingsOf s.hub.zones ∧
      (s.takeChange i).hub.renderer.tables = s.hub.renderer.tables := by
  unfold State.takeChange
  dsimp only
  repeat' split
  all_goals simp

@[simp] theorem State.recordChange_frame (i : SourceId) (c : IntakeChange) (s : State) :
    (s.recordChange i c).ports = s.ports ∧ (s.recordChange i c).freeIndex = s.freeIndex ∧
      (s.recordChange i c).pending = s.pending ∧ (s.recordChange i c).hub.lanes = s.hub.lanes ∧
      (s.recordChange i c).hub.protection = s.hub.protection ∧ (s.recordChange i c).hub.radio = s.hub.radio ∧
      (s.recordChange i c).hub.station = s.hub.station ∧
      settingsOf (s.recordChange i c).hub.zones = settingsOf s.hub.zones ∧
      (s.recordChange i c).hub.renderer.tables = s.hub.renderer.tables := by
  unfold State.recordChange
  split <;> simp

@[simp] theorem State.sourceBlockStart_frame (i : SourceId) (s : State) :
    (s.sourceBlockStart i).ports = s.ports ∧ (s.sourceBlockStart i).freeIndex = s.freeIndex ∧
      (s.sourceBlockStart i).pending = s.pending ∧ (s.sourceBlockStart i).hub.lanes = s.hub.lanes ∧
      (s.sourceBlockStart i).hub.protection = s.hub.protection ∧ (s.sourceBlockStart i).hub.radio = s.hub.radio ∧
      (s.sourceBlockStart i).hub.station = s.hub.station ∧
      settingsOf (s.sourceBlockStart i).hub.zones = settingsOf s.hub.zones ∧
      (s.sourceBlockStart i).hub.renderer.tables = s.hub.renderer.tables := by
  simp [State.sourceBlockStart]

@[simp] theorem State.takeAbsent_frame (i : SourceId) (s : State) :
    (s.takeAbsent i).ports = s.ports ∧ (s.takeAbsent i).freeIndex = s.freeIndex ∧
      (s.takeAbsent i).pending = s.pending ∧ (s.takeAbsent i).hub.lanes = s.hub.lanes ∧
      (s.takeAbsent i).hub.protection = s.hub.protection ∧ (s.takeAbsent i).hub.radio = s.hub.radio ∧
      (s.takeAbsent i).hub.station = s.hub.station ∧
      settingsOf (s.takeAbsent i).hub.zones = settingsOf s.hub.zones ∧
      (s.takeAbsent i).hub.renderer.tables = s.hub.renderer.tables := by
  unfold State.takeAbsent
  dsimp only
  split <;> simp

@[simp] theorem State.takeSlipRestart_frame (i : SourceId) (s : State) :
    (s.takeSlipRestart i).ports = s.ports ∧ (s.takeSlipRestart i).freeIndex = s.freeIndex ∧
      (s.takeSlipRestart i).pending = s.pending ∧ (s.takeSlipRestart i).hub.lanes = s.hub.lanes ∧
      (s.takeSlipRestart i).hub.protection = s.hub.protection ∧ (s.takeSlipRestart i).hub.radio = s.hub.radio ∧
      (s.takeSlipRestart i).hub.station = s.hub.station ∧
      settingsOf (s.takeSlipRestart i).hub.zones = settingsOf s.hub.zones ∧
      (s.takeSlipRestart i).hub.renderer.tables = s.hub.renderer.tables := by
  unfold State.takeSlipRestart
  dsimp only
  split <;> simp

@[simp] theorem State.sourceIntervalEnd_frame (i : SourceId) (s : State) :
    (s.sourceIntervalEnd i).ports = s.ports ∧ (s.sourceIntervalEnd i).freeIndex = s.freeIndex ∧
      (s.sourceIntervalEnd i).pending = s.pending ∧ (s.sourceIntervalEnd i).hub.lanes = s.hub.lanes ∧
      (s.sourceIntervalEnd i).hub.protection = s.hub.protection ∧
      (s.sourceIntervalEnd i).hub.radio = s.hub.radio ∧ (s.sourceIntervalEnd i).hub.station = s.hub.station ∧
      settingsOf (s.sourceIntervalEnd i).hub.zones = settingsOf s.hub.zones ∧
      (s.sourceIntervalEnd i).hub.renderer.tables = s.hub.renderer.tables := by
  unfold State.sourceIntervalEnd
  dsimp only
  split <;> simp

@[simp] theorem State.sourceToStandby_frame (i : SourceId) (s : State) :
    (s.sourceToStandby i).ports = s.ports ∧ (s.sourceToStandby i).freeIndex = s.freeIndex ∧
      (s.sourceToStandby i).pending = s.pending ∧ (s.sourceToStandby i).hub.lanes = s.hub.lanes ∧
      (s.sourceToStandby i).hub.protection = s.hub.protection ∧ (s.sourceToStandby i).hub.radio = s.hub.radio ∧
      (s.sourceToStandby i).hub.station = s.hub.station ∧
      settingsOf (s.sourceToStandby i).hub.zones = settingsOf s.hub.zones ∧
      (s.sourceToStandby i).hub.renderer.tables = s.hub.renderer.tables := by
  unfold State.sourceToStandby
  dsimp only
  split <;> simp

@[simp] theorem State.eachTakeChange_frame (s : State) :
    (s.eachSource State.takeChange).ports = s.ports ∧ (s.eachSource State.takeChange).freeIndex = s.freeIndex ∧
      (s.eachSource State.takeChange).pending = s.pending ∧
      (s.eachSource State.takeChange).hub.lanes = s.hub.lanes ∧
      (s.eachSource State.takeChange).hub.protection = s.hub.protection ∧
      (s.eachSource State.takeChange).hub.radio = s.hub.radio ∧
      (s.eachSource State.takeChange).hub.station = s.hub.station ∧
      settingsOf (s.eachSource State.takeChange).hub.zones = settingsOf s.hub.zones ∧
      (s.eachSource State.takeChange).hub.renderer.tables = s.hub.renderer.tables := by
  exact ⟨State.eachSource_keeps (fun t => t.ports) State.takeChange (by simp) s,
    State.eachSource_keeps (fun t => t.freeIndex) State.takeChange (by simp) s,
    State.eachSource_keeps (fun t => t.pending) State.takeChange (by simp) s,
    State.eachSource_keeps (fun t => t.hub.lanes) State.takeChange (by simp) s,
    State.eachSource_keeps (fun t => t.hub.protection) State.takeChange (by simp) s,
    State.eachSource_keeps (fun t => t.hub.radio) State.takeChange (by simp) s,
    State.eachSource_keeps (fun t => t.hub.station) State.takeChange (by simp) s,
    State.eachSource_keeps (fun t => settingsOf t.hub.zones) State.takeChange (by simp) s,
    State.eachSource_keeps (fun t => t.hub.renderer.tables) State.takeChange (by simp) s⟩

@[simp] theorem State.eachBlockStart_frame (s : State) :
    (s.eachSource State.sourceBlockStart).ports = s.ports ∧
      (s.eachSource State.sourceBlockStart).freeIndex = s.freeIndex ∧
      (s.eachSource State.sourceBlockStart).pending = s.pending ∧
      (s.eachSource State.sourceBlockStart).hub.lanes = s.hub.lanes ∧
      (s.eachSource State.sourceBlockStart).hub.protection = s.hub.protection ∧
      (s.eachSource State.sourceBlockStart).hub.radio = s.hub.radio ∧
      (s.eachSource State.sourceBlockStart).hub.station = s.hub.station ∧
      settingsOf (s.eachSource State.sourceBlockStart).hub.zones = settingsOf s.hub.zones ∧
      (s.eachSource State.sourceBlockStart).hub.renderer.tables = s.hub.renderer.tables := by
  exact ⟨State.eachSource_keeps (fun t => t.ports) State.sourceBlockStart (by simp) s,
    State.eachSource_keeps (fun t => t.freeIndex) State.sourceBlockStart (by simp) s,
    State.eachSource_keeps (fun t => t.pending) State.sourceBlockStart (by simp) s,
    State.eachSource_keeps (fun t => t.hub.lanes) State.sourceBlockStart (by simp) s,
    State.eachSource_keeps (fun t => t.hub.protection) State.sourceBlockStart (by simp) s,
    State.eachSource_keeps (fun t => t.hub.radio) State.sourceBlockStart (by simp) s,
    State.eachSource_keeps (fun t => t.hub.station) State.sourceBlockStart (by simp) s,
    State.eachSource_keeps (fun t => settingsOf t.hub.zones) State.sourceBlockStart (by simp) s,
    State.eachSource_keeps (fun t => t.hub.renderer.tables) State.sourceBlockStart (by simp) s⟩

@[simp] theorem State.eachIntervalEnd_frame (s : State) :
    (s.eachSource State.sourceIntervalEnd).ports = s.ports ∧
      (s.eachSource State.sourceIntervalEnd).freeIndex = s.freeIndex ∧
      (s.eachSource State.sourceIntervalEnd).pending = s.pending ∧
      (s.eachSource State.sourceIntervalEnd).hub.lanes = s.hub.lanes ∧
      (s.eachSource State.sourceIntervalEnd).hub.protection = s.hub.protection ∧
      (s.eachSource State.sourceIntervalEnd).hub.radio = s.hub.radio ∧
      (s.eachSource State.sourceIntervalEnd).hub.station = s.hub.station ∧
      settingsOf (s.eachSource State.sourceIntervalEnd).hub.zones = settingsOf s.hub.zones ∧
      (s.eachSource State.sourceIntervalEnd).hub.renderer.tables = s.hub.renderer.tables := by
  exact ⟨State.eachSource_keeps (fun t => t.ports) State.sourceIntervalEnd (by simp) s,
    State.eachSource_keeps (fun t => t.freeIndex) State.sourceIntervalEnd (by simp) s,
    State.eachSource_keeps (fun t => t.pending) State.sourceIntervalEnd (by simp) s,
    State.eachSource_keeps (fun t => t.hub.lanes) State.sourceIntervalEnd (by simp) s,
    State.eachSource_keeps (fun t => t.hub.protection) State.sourceIntervalEnd (by simp) s,
    State.eachSource_keeps (fun t => t.hub.radio) State.sourceIntervalEnd (by simp) s,
    State.eachSource_keeps (fun t => t.hub.station) State.sourceIntervalEnd (by simp) s,
    State.eachSource_keeps (fun t => settingsOf t.hub.zones) State.sourceIntervalEnd (by simp) s,
    State.eachSource_keeps (fun t => t.hub.renderer.tables) State.sourceIntervalEnd (by simp) s⟩

/-- R53, R74: all that an event which may end the main zone's fade can do to the block: where it moves a fading main zone to
another state, and only there, the block is decided again after it. -/
theorem State.redecide_cases (f : State → State) (s : State) :
    (s.hub.zones.main.fading = true ∧ (f s).hub.zones.main.state ≠ s.hub.zones.main.state ∧
        s.redecide f = (f s).onHub (Hub.decideBlock (f s).sources)) ∨
      ((s.hub.zones.main.fading = false ∨ (f s).hub.zones.main.state = s.hub.zones.main.state) ∧
        s.redecide f = f s) := by
  by_cases a : s.hub.zones.main.fading = true <;>
    by_cases b : (f s).hub.zones.main.state = s.hub.zones.main.state <;> simp [State.redecide, a, b]

/-- What a decision of the block leaves unchanged, a decision made again does too. -/
theorem State.redecide_keeps {α : Type} (g : State → α) (decides : ∀ t : State, g (t.onHub (Hub.decideBlock t.sources)) = g t)
    (f : State → State) (s : State) : g (s.redecide f) = g (f s) := by
  unfold State.redecide
  dsimp only
  split
  · exact decides (f s)
  · rfl

@[simp] theorem State.redecide_frame (f : State → State) (s : State) :
    (s.redecide f).sources = (f s).sources ∧ (s.redecide f).ports = (f s).ports ∧
      (s.redecide f).freeIndex = (f s).freeIndex ∧ (s.redecide f).pending = (f s).pending ∧
      (s.redecide f).hub.clock = (f s).hub.clock ∧ (s.redecide f).hub.zones = (f s).hub.zones ∧
      (s.redecide f).hub.lanes = (f s).hub.lanes ∧ (s.redecide f).hub.protection = (f s).hub.protection ∧
      (s.redecide f).hub.radio = (f s).hub.radio ∧ (s.redecide f).hub.station = (f s).hub.station ∧
      (s.redecide f).hub.standby = (f s).hub.standby ∧ (s.redecide f).hub.due = (f s).hub.due ∧
      (s.redecide f).hub.outbox = (f s).hub.outbox ∧
      (s.redecide f).hub.renderer.tables = (f s).hub.renderer.tables := by
  refine ⟨?_, ?_, ?_, ?_, ?_, ?_, ?_, ?_, ?_, ?_, ?_, ?_, ?_, ?_⟩
  · exact State.redecide_keeps (fun t => t.sources) (fun _ => rfl) f s
  · exact State.redecide_keeps (fun t => t.ports) (fun _ => rfl) f s
  · exact State.redecide_keeps (fun t => t.freeIndex) (fun _ => rfl) f s
  · exact State.redecide_keeps (fun t => t.pending) (fun _ => rfl) f s
  · exact State.redecide_keeps (fun t => t.hub.clock) (fun _ => rfl) f s
  · exact State.redecide_keeps (fun t => t.hub.zones) (fun _ => rfl) f s
  · exact State.redecide_keeps (fun t => t.hub.lanes) (fun _ => rfl) f s
  · exact State.redecide_keeps (fun t => t.hub.protection) (fun _ => rfl) f s
  · exact State.redecide_keeps (fun t => t.hub.radio) (fun _ => rfl) f s
  · exact State.redecide_keeps (fun t => t.hub.station) (fun _ => rfl) f s
  · exact State.redecide_keeps (fun t => t.hub.standby) (fun _ => rfl) f s
  · exact State.redecide_keeps (fun t => t.hub.due) (fun _ => rfl) f s
  · exact State.redecide_keeps (fun t => t.hub.outbox) (fun _ => rfl) f s
  · exact State.redecide_keeps (fun t => t.hub.renderer.tables) (fun _ => rfl) f s

@[simp] theorem State.absentFirst_frame (i : SourceId) (s : State) :
    (s.absentFirst i).ports = s.ports ∧ (s.absentFirst i).freeIndex = s.freeIndex ∧
      (s.absentFirst i).pending = s.pending ∧ (s.absentFirst i).hub.lanes = s.hub.lanes ∧
      (s.absentFirst i).hub.protection = s.hub.protection ∧ (s.absentFirst i).hub.radio = s.hub.radio ∧
      (s.absentFirst i).hub.station = s.hub.station ∧
      settingsOf (s.absentFirst i).hub.zones = settingsOf s.hub.zones ∧
      (s.absentFirst i).hub.renderer.tables = s.hub.renderer.tables := by
  unfold State.absentFirst
  split <;> simp

@[simp] theorem State.eachAbsentFirst_frame (s : State) :
    (s.eachSource State.absentFirst).ports = s.ports ∧
      (s.eachSource State.absentFirst).freeIndex = s.freeIndex ∧
      (s.eachSource State.absentFirst).pending = s.pending ∧
      (s.eachSource State.absentFirst).hub.lanes = s.hub.lanes ∧
      (s.eachSource State.absentFirst).hub.protection = s.hub.protection ∧
      (s.eachSource State.absentFirst).hub.radio = s.hub.radio ∧
      (s.eachSource State.absentFirst).hub.station = s.hub.station ∧
      settingsOf (s.eachSource State.absentFirst).hub.zones = settingsOf s.hub.zones ∧
      (s.eachSource State.absentFirst).hub.renderer.tables = s.hub.renderer.tables := by
  exact ⟨State.eachSource_keeps (fun t => t.ports) State.absentFirst (by simp) s,
    State.eachSource_keeps (fun t => t.freeIndex) State.absentFirst (by simp) s,
    State.eachSource_keeps (fun t => t.pending) State.absentFirst (by simp) s,
    State.eachSource_keeps (fun t => t.hub.lanes) State.absentFirst (by simp) s,
    State.eachSource_keeps (fun t => t.hub.protection) State.absentFirst (by simp) s,
    State.eachSource_keeps (fun t => t.hub.radio) State.absentFirst (by simp) s,
    State.eachSource_keeps (fun t => t.hub.station) State.absentFirst (by simp) s,
    State.eachSource_keeps (fun t => settingsOf t.hub.zones) State.absentFirst (by simp) s,
    State.eachSource_keeps (fun t => t.hub.renderer.tables) State.absentFirst (by simp) s⟩

@[simp] theorem State.eachToStandby_frame (s : State) :
    (s.eachSource State.sourceToStandby).ports = s.ports ∧
      (s.eachSource State.sourceToStandby).freeIndex = s.freeIndex ∧
      (s.eachSource State.sourceToStandby).pending = s.pending ∧
      (s.eachSource State.sourceToStandby).hub.lanes = s.hub.lanes ∧
      (s.eachSource State.sourceToStandby).hub.protection = s.hub.protection ∧
      (s.eachSource State.sourceToStandby).hub.radio = s.hub.radio ∧
      (s.eachSource State.sourceToStandby).hub.station = s.hub.station ∧
      settingsOf (s.eachSource State.sourceToStandby).hub.zones = settingsOf s.hub.zones ∧
      (s.eachSource State.sourceToStandby).hub.renderer.tables = s.hub.renderer.tables := by
  exact ⟨State.eachSource_keeps (fun t => t.ports) State.sourceToStandby (by simp) s,
    State.eachSource_keeps (fun t => t.freeIndex) State.sourceToStandby (by simp) s,
    State.eachSource_keeps (fun t => t.pending) State.sourceToStandby (by simp) s,
    State.eachSource_keeps (fun t => t.hub.lanes) State.sourceToStandby (by simp) s,
    State.eachSource_keeps (fun t => t.hub.protection) State.sourceToStandby (by simp) s,
    State.eachSource_keeps (fun t => t.hub.radio) State.sourceToStandby (by simp) s,
    State.eachSource_keeps (fun t => t.hub.station) State.sourceToStandby (by simp) s,
    State.eachSource_keeps (fun t => settingsOf t.hub.zones) State.sourceToStandby (by simp) s,
    State.eachSource_keeps (fun t => t.hub.renderer.tables) State.sourceToStandby (by simp) s⟩

@[simp] theorem State.samplePeriod_frame (s : State) :
    (s.samplePeriod).ports = s.ports ∧ (s.samplePeriod).freeIndex = s.freeIndex ∧
      (s.samplePeriod).pending = s.pending ∧ settingsOf (s.samplePeriod).hub.zones = settingsOf s.hub.zones ∧
      (s.samplePeriod).hub.renderer.tables = s.hub.renderer.tables := by
  simp [State.samplePeriod]

@[simp] theorem State.takeStandbyEntry_frame (s : State) :
    (s.takeStandbyEntry).ports = s.ports ∧ (s.takeStandbyEntry).freeIndex = s.freeIndex ∧
      (s.takeStandbyEntry).pending = s.pending ∧
      settingsOf (s.takeStandbyEntry).hub.zones = settingsOf s.hub.zones ∧
      (s.takeStandbyEntry).hub.renderer.tables = s.hub.renderer.tables := by
  unfold State.takeStandbyEntry
  split <;> simp

@[simp] theorem State.blockStart_frame (s : State) :
    (s.blockStart).ports = s.ports ∧ (s.blockStart).freeIndex = s.freeIndex ∧ (s.blockStart).pending = s.pending ∧
      settingsOf (s.blockStart).hub.zones = settingsOf s.hub.zones ∧
      (s.blockStart).hub.renderer.tables = s.hub.renderer.tables := by
  unfold State.blockStart
  split <;> simp

@[simp] theorem State.intervalEnd_frame (s : State) :
    (s.intervalEnd).ports = s.ports ∧ (s.intervalEnd).freeIndex = s.freeIndex ∧
      (s.intervalEnd).pending = s.pending ∧ settingsOf (s.intervalEnd).hub.zones = settingsOf s.hub.zones ∧
      (s.intervalEnd).hub.renderer.tables = s.hub.renderer.tables := by
  unfold State.intervalEnd
  split <;> simp

@[simp] theorem State.takeDue_frame (d : Due) (s : State) :
    (s.takeDue d).ports = s.ports ∧ (s.takeDue d).freeIndex = s.freeIndex ∧ (s.takeDue d).pending = s.pending ∧
      settingsOf (s.takeDue d).hub.zones = settingsOf s.hub.zones ∧
      (s.takeDue d).hub.renderer.tables = s.hub.renderer.tables := by
  unfold State.takeDue
  split <;> simp

@[simp] theorem State.eventStep_frame (d : Due) (s : State) :
    (s.eventStep d).ports = s.ports ∧ (s.eventStep d).freeIndex = s.freeIndex ∧
      (s.eventStep d).pending = s.pending ∧ settingsOf (s.eventStep d).hub.zones = settingsOf s.hub.zones ∧
      (s.eventStep d).hub.renderer.tables = s.hub.renderer.tables := by
  unfold State.eventStep
  split <;> simp

@[simp] theorem State.drain_frame (n : Nat) (s : State) :
    (State.drain n s).ports = s.ports ∧ (State.drain n s).freeIndex = s.freeIndex ∧
      (State.drain n s).pending = s.pending ∧ settingsOf (State.drain n s).hub.zones = settingsOf s.hub.zones ∧
      (State.drain n s).hub.renderer.tables = s.hub.renderer.tables := by
  induction n generalizing s with
  | zero => simp [State.drain]
  | succ n ih =>
    unfold State.drain
    split <;> simp [ih]

@[simp] theorem State.settle_frame (s : State) :
    (s.settle).ports = s.ports ∧ (s.settle).freeIndex = s.freeIndex ∧ (s.settle).pending = s.pending ∧
      settingsOf (s.settle).hub.zones = settingsOf s.hub.zones ∧
      (s.settle).hub.renderer.tables = s.hub.renderer.tables := by
  simp [State.settle]

end Sys2Proof.Machine
end

