-- ==== Sys2Proof/Laws/Sources.lean ====
section
/-! SUPPORT. What the operations of Source Intake do to the eight records: a record read after another is written, which
records an operation leaves, and what it leaves of Standby Control; and the settled state, which settling keeps. -/

namespace Sys2Proof.Machine

@[simp] theorem State.setSource_same (i : SourceId) (x : Source) (s : State) : (s.setSource i x).sources[i] = x := by
  simp [State.setSource]

@[simp] theorem State.setSource_other {i j : SourceId} (x : Source) (s : State) (h : j ≠ i) :
    (s.setSource i x).sources[j] = s.sources[j] := by
  have : i.val ≠ j.val := fun e => h (Fin.ext e.symm)
  simp [State.setSource, this]

@[simp] theorem State.changeSource_same (i : SourceId) (x : Source) (s : State) :
    (s.changeSource i x).sources[i] = x := by
  simp [State.changeSource]

@[simp] theorem State.changeSource_other {i j : SourceId} (x : Source) (s : State) (h : j ≠ i) :
    (s.changeSource i x).sources[j] = s.sources[j] := by
  have : i.val ≠ j.val := fun e => h (Fin.ext e.symm)
  simp [State.changeSource, this]

@[simp] theorem State.setSource_hub (i : SourceId) (x : Source) (s : State) : (s.setSource i x).hub = s.hub := rfl

/-- A record set to what it is. -/
theorem State.setSource_self (i : SourceId) (s : State) : s.setSource i s.sources[i] = s := by
  simp [State.setSource]

@[simp] theorem State.changeSource_standby (i : SourceId) (x : Source) (s : State) :
    (s.changeSource i x).hub.standby = s.hub.standby := by
  simp [State.changeSource]

@[simp] theorem State.takeChange_standby (i : SourceId) (s : State) :
    (s.takeChange i).hub.standby = s.hub.standby := by
  unfold State.takeChange
  dsimp only
  repeat' split
  all_goals simp

@[simp] theorem State.takeChange_other {i j : SourceId} (s : State) (h : j ≠ i) :
    (s.takeChange i).sources[j] = s.sources[j] := by
  unfold State.takeChange
  dsimp only
  repeat' split
  all_goals
    first
      | rfl
      | exact State.changeSource_other _ _ h
      | exact State.setSource_other _ _ h

@[simp] theorem State.writeFrame_standby (i : SourceId) (f : Frame) (s : State) :
    (s.writeFrame i f).hub.standby = s.hub.standby := by
  unfold State.writeFrame
  dsimp only
  split <;> simp

@[simp] theorem State.writeFrame_other {i j : SourceId} (f : Frame) (s : State) (h : j ≠ i) :
    (s.writeFrame i f).sources[j] = s.sources[j] := by
  unfold State.writeFrame
  dsimp only
  split
  · exact (State.changeSource_other _ _ h).trans (State.setSource_other _ _ h)
  · exact State.setSource_other _ _ h

@[simp] theorem State.arrive_standby (i : SourceId) (f : Frame) (s : State) :
    (s.arrive i f).hub.standby = s.hub.standby := by
  unfold State.arrive
  dsimp only
  repeat' split
  all_goals simp

@[simp] theorem State.arrive_other {i j : SourceId} (f : Frame) (s : State) (h : j ≠ i) :
    (s.arrive i f).sources[j] = s.sources[j] := by
  unfold State.arrive
  dsimp only
  repeat' split
  all_goals
    first
      | rfl
      | exact State.setSource_other _ _ h
      | exact (State.writeFrame_other _ _ h).trans (State.changeSource_other _ _ h)
      | exact (State.writeFrame_other _ _ h).trans (State.setSource_other _ _ h)
      | exact State.changeSource_other _ _ h

@[simp] theorem State.adoptRecord_other {i j : SourceId} (r : StatusRecord) (s : State) (h : j ≠ i) :
    (s.adoptRecord i r).sources[j] = s.sources[j] := by
  exact State.changeSource_other (s := { s with hub := post (sourceStatusNotice i r) s.hub }) _ h

@[simp] theorem State.adoptRecord_standby (i : SourceId) (r : StatusRecord) (s : State) :
    (s.adoptRecord i r).hub.standby = s.hub.standby := by
  simp [State.adoptRecord, post]

@[simp] theorem State.checkBlock_other {i j : SourceId} (b : StatusBlock) (s : State) (h : j ≠ i) :
    (s.checkBlock i b).sources[j] = s.sources[j] := by
  unfold State.checkBlock
  dsimp only
  repeat' split
  all_goals
    first
      | rfl
      | exact State.setSource_other _ _ h
      | exact (State.adoptRecord_other _ _ h).trans (State.setSource_other _ _ h)

@[simp] theorem State.collect_other {i j : SourceId} (x y : Bool) (s : State) (h : j ≠ i) :
    (s.collect i x y).sources[j] = s.sources[j] := by
  unfold State.collect
  dsimp only
  split
  · rfl
  · exact State.setSource_other _ _ h
  · exact State.setSource_other _ _ h
  · split
    · exact (State.checkBlock_other _ _ h).trans (State.setSource_other _ _ h)
    · exact State.setSource_other _ _ h

/-- R191: what a confirmed block leaves of Standby Control's record. -/
theorem Hub.wakeReport_standby (i : SourceId) (r : StatusRecord) (h : Hub) :
    (h.wakeReport i r).standby.power = h.standby.power ∧ (h.wakeReport i r).standby.wakeSense = h.standby.wakeSense ∧
      (h.standby.power ≠ .standby → h.wakeReport i r = h) := by
  unfold Hub.wakeReport
  split
  · rename_i c
    exact ⟨rfl, rfl, fun n => absurd c.1 n⟩
  · exact ⟨rfl, rfl, fun _ => rfl⟩

/-- R21, R191: what a complete status block leaves of Standby Control's record. -/
theorem State.checkBlock_standby (i : SourceId) (b : StatusBlock) (s : State) :
    (s.checkBlock i b).hub.standby.power = s.hub.standby.power ∧
      (s.checkBlock i b).hub.standby.wakeSense = s.hub.standby.wakeSense ∧
      (s.hub.standby.power ≠ .standby → (s.checkBlock i b).hub.standby = s.hub.standby) := by
  have w := fun r (t : State) => Hub.wakeReport_standby i r t.hub
  have e : ∀ (x : Source) r, ((s.setSource i x).adoptRecord i r).hub.standby = s.hub.standby := fun x r => by simp
  unfold State.checkBlock
  dsimp only
  split
  · simp
  · split
    · split
      · exact ⟨(w _ s).1, (w _ s).2.1, fun n => congrArg Hub.standby ((w _ s).2.2 n)⟩
      · exact ⟨(w _ _).1.trans (congrArg Standby.power (e _ _)), (w _ _).2.1.trans (congrArg Standby.wakeSense (e _ _)),
          fun n => (congrArg Hub.standby ((w _ _).2.2 (by rw [e]; exact n))).trans (e _ _)⟩
    · simp

/-- R17, R191: what a status bit leaves of Standby Control's record. -/
theorem State.collect_standby (i : SourceId) (x y : Bool) (s : State) :
    (s.collect i x y).hub.standby.power = s.hub.standby.power ∧
      (s.collect i x y).hub.standby.wakeSense = s.hub.standby.wakeSense ∧
      (s.hub.standby.power ≠ .standby → (s.collect i x y).hub.standby = s.hub.standby) := by
  unfold State.collect
  dsimp only
  split
  · simp
  · simp
  · simp
  · split
    · exact State.checkBlock_standby i _ _
    · simp

/-- Where nothing waits to happen, settling changes nothing. -/
theorem State.settle_of_settled {s : State} (h : s.settled) : s.settle = s := by
  obtain ⟨a, b, c⟩ := h
  have d : State.drain settleLimit s = s := by
    simp only [settleLimit, State.drain, a]
  have e : s.onHub Hub.linkSend = s := by
    unfold State.onHub Hub.linkSend
    rcases b with b | b
    · cases f : s.hub.radio.exchange with
      | none => simp [f] at b
      | some x => rfl
    · rw [b]
      cases s.hub.radio.exchange <;> rfl
  unfold State.settle
  rw [d, e]
  simp [State.takeStandbyEntry, c]

end Sys2Proof.Machine
end

