-- ==== Sys2Proof/Laws/InReset.lean ====
section
/-! SUPPORT. That no operation but those of the reset pin changes whether the part is kept in reset (R187). -/

namespace Sys2Proof.Machine

/-! ### The operations of Standby Control -/

@[simp] theorem Hub.startWaking_inReset (src : Vector Source 8) (h : Hub) :
    (h.startWaking src).standby.inReset = h.standby.inReset := by
  simp [Hub.startWaking]

@[simp] theorem Hub.standbyBlockStart_inReset (h : Hub) :
    (h.standbyBlockStart).standby.inReset = h.standby.inReset := by
  simp [Hub.standbyBlockStart, Standby.blockStart]

@[simp] theorem Hub.takeActive_inReset (h : Hub) :
    (h.takeActive).standby.inReset = h.standby.inReset := by
  unfold Hub.takeActive
  split <;> simp

@[simp] theorem Hub.takeDelayEnd_inReset (h : Hub) :
    (h.takeDelayEnd).standby.inReset = h.standby.inReset := by
  unfold Hub.takeDelayEnd
  split <;> simp

@[simp] theorem Hub.beginStandby_inReset (src : Vector Source 8) (p : Port) (h : Hub) :
    (h.beginStandby src p).standby.inReset = h.standby.inReset := by
  simp [Hub.beginStandby]

@[simp] theorem Hub.enterStandby_inReset (h : Hub) :
    (h.enterStandby).standby.inReset = h.standby.inReset := by
  simp [Hub.enterStandby]

@[simp] theorem Hub.wakeReport_inReset (i : SourceId) (r : StatusRecord) (h : Hub) :
    (h.wakeReport i r).standby.inReset = h.standby.inReset := by
  unfold Hub.wakeReport
  split <;> rfl

@[simp] theorem Hub.blockStart_inReset (src : Vector Source 8) (h : Hub) :
    (h.blockStart src).standby.inReset = h.standby.inReset := by
  have lanes := Hub.eachLane_keeps Hub.standby Hub.laneBlockStart (by simp)
  simp [Hub.blockStart, lanes]

@[simp] theorem Hub.takeDue_inReset (src : Vector Source 8) (d : Due) (h : Hub) :
    (h.takeDue src d).standby.inReset = h.standby.inReset := by
  unfold Hub.takeDue
  split <;> simp

/-! ### The operations over the whole state -/

@[simp] theorem State.checkBlock_inReset (i : SourceId) (b : StatusBlock) (s : State) :
    (s.checkBlock i b).hub.standby.inReset = s.hub.standby.inReset := by
  unfold State.checkBlock
  dsimp only
  repeat' split
  all_goals simp

@[simp] theorem State.collect_inReset (i : SourceId) (x y : Bool) (s : State) :
    (s.collect i x y).hub.standby.inReset = s.hub.standby.inReset := by
  unfold State.collect
  dsimp only
  repeat' split
  all_goals simp

@[simp] theorem State.holdMask_inReset (i : SourceId) (g : Bool) (m : BitVec 4) (s : State) :
    (s.holdMask i g m).hub.standby.inReset = s.hub.standby.inReset := by
  unfold State.holdMask
  dsimp only
  repeat' split
  all_goals simp

@[simp] theorem State.arriveTimes_inReset (i : SourceId) (f : Frame) (n : Nat) (s : State) :
    (s.arriveTimes i f n).hub.standby.inReset = s.hub.standby.inReset := by
  induction n generalizing s with
  | zero => simp [State.arriveTimes]
  | succ n ih => simp [State.arriveTimes, ih]

@[simp] theorem State.writeCompleted_inReset (i : SourceId) (q : Nat) (f : Frame) (s : State) :
    (s.writeCompleted i q f).hub.standby.inReset = s.hub.standby.inReset := by
  unfold State.writeCompleted
  dsimp only
  repeat' split
  all_goals simp

@[simp] theorem State.assemble_inReset (i : SourceId) (q : Nat) (g : Bool) (x : Part) (s : State) :
    (s.assemble i q g x).hub.standby.inReset = s.hub.standby.inReset := by
  unfold State.assemble
  dsimp only
  repeat' split
  all_goals simp

@[simp] theorem State.acceptPacket_inReset (i : SourceId) (q : Nat) (g : Bool) (x : Part) (d : BitVec 26) (s : State) :
    (s.acceptPacket i q g x d).hub.standby.inReset = s.hub.standby.inReset := by
  unfold State.acceptPacket
  dsimp only
  repeat' split
  all_goals simp

@[simp] theorem State.testHeader_inReset (i : SourceId) (k : PacketHeader) (a b c d : BitVec 26) (s : State) :
    (s.testHeader i k a b c d).hub.standby.inReset = s.hub.standby.inReset := by
  unfold State.testHeader
  dsimp only
  repeat' split
  all_goals simp

@[simp] theorem State.packet_inReset (i : SourceId) (ws : List CodeWord) (s : State) :
    (s.packet i ws).hub.standby.inReset = s.hub.standby.inReset := by
  unfold State.packet
  dsimp only
  repeat' split
  all_goals simp

@[simp] theorem State.serialFrame_inReset (i : SourceId) (l r : BitVec 24) (v x b : Bool) (s : State) :
    (s.serialFrame i l r v x b).hub.standby.inReset = s.hub.standby.inReset := by
  unfold State.serialFrame
  split <;> simp

@[simp] theorem State.recordChange_inReset (i : SourceId) (c : IntakeChange) (s : State) :
    (s.recordChange i c).hub.standby.inReset = s.hub.standby.inReset := by
  unfold State.recordChange
  dsimp only
  split <;> simp

@[simp] theorem State.sourceBlockStart_inReset (i : SourceId) (s : State) :
    (s.sourceBlockStart i).hub.standby.inReset = s.hub.standby.inReset := by
  simp [State.sourceBlockStart]

@[simp] theorem State.takeAbsent_inReset (i : SourceId) (s : State) :
    (s.takeAbsent i).hub.standby.inReset = s.hub.standby.inReset := by
  unfold State.takeAbsent
  dsimp only
  repeat' split
  all_goals simp

@[simp] theorem State.takeSlipRestart_inReset (i : SourceId) (s : State) :
    (s.takeSlipRestart i).hub.standby.inReset = s.hub.standby.inReset := by
  unfold State.takeSlipRestart
  dsimp only
  repeat' split
  all_goals simp

@[simp] theorem State.sourceIntervalEnd_inReset (i : SourceId) (s : State) :
    (s.sourceIntervalEnd i).hub.standby.inReset = s.hub.standby.inReset := by
  unfold State.sourceIntervalEnd
  dsimp only
  repeat' split
  all_goals simp

@[simp] theorem State.sourceToStandby_inReset (i : SourceId) (s : State) :
    (s.sourceToStandby i).hub.standby.inReset = s.hub.standby.inReset := by
  unfold State.sourceToStandby
  dsimp only
  repeat' split
  all_goals simp

/-- What each source's turn leaves of the reset pin's hold, the turns of all sources leave. -/
theorem State.eachSource_inReset (f : SourceId → State → State)
    (keeps : ∀ i t, (f i t).hub.standby.inReset = t.hub.standby.inReset) (s : State) :
    (s.eachSource f).hub.standby.inReset = s.hub.standby.inReset :=
  State.eachSource_keeps (fun t => t.hub.standby.inReset) f keeps s

theorem State.redecide_inReset (f : State → State)
    (keeps : ∀ t, (f t).hub.standby.inReset = t.hub.standby.inReset) (s : State) :
    (s.redecide f).hub.standby.inReset = s.hub.standby.inReset :=
  (State.redecide_keeps (fun t => t.hub.standby.inReset) (fun _ => by simp) f s).trans (keeps s)

@[simp] theorem State.absentFirst_inReset (i : SourceId) (s : State) :
    (s.absentFirst i).hub.standby.inReset = s.hub.standby.inReset := by
  unfold State.absentFirst
  split
  · exact (State.redecide_inReset _ (State.takeAbsent_inReset i) _).trans (by simp)
  · rfl

@[simp] theorem State.samplePeriod_inReset (s : State) :
    (s.samplePeriod).hub.standby.inReset = s.hub.standby.inReset := by
  simp [State.samplePeriod]

@[simp] theorem State.takeStandbyEntry_inReset (s : State) :
    (s.takeStandbyEntry).hub.standby.inReset = s.hub.standby.inReset := by
  unfold State.takeStandbyEntry
  split
  · simp [State.eachSource_inReset State.sourceToStandby State.sourceToStandby_inReset]
  · rfl

@[simp] theorem State.blockStart_inReset (s : State) :
    (s.blockStart).hub.standby.inReset = s.hub.standby.inReset := by
  unfold State.blockStart
  split
  · simp [State.eachSource_inReset State.takeChange (by simp),
      State.eachSource_inReset State.sourceBlockStart State.sourceBlockStart_inReset]
  · rfl

@[simp] theorem State.intervalEnd_inReset (s : State) :
    (s.intervalEnd).hub.standby.inReset = s.hub.standby.inReset := by
  unfold State.intervalEnd
  split
  · simp [State.eachSource_inReset State.sourceIntervalEnd State.sourceIntervalEnd_inReset,
      State.eachSource_inReset State.absentFirst State.absentFirst_inReset]
  · rfl

@[simp] theorem State.takeDue_inReset (d : Due) (s : State) :
    (s.takeDue d).hub.standby.inReset = s.hub.standby.inReset := by
  unfold State.takeDue
  split
  · simp
  · exact State.redecide_inReset _ (State.takeAbsent_inReset _) s
  · exact State.redecide_inReset _ (State.takeSlipRestart_inReset _) s
  · simp
  · simp

@[simp] theorem State.eventStep_inReset (d : Due) (s : State) :
    (s.eventStep d).hub.standby.inReset = s.hub.standby.inReset := by
  unfold State.eventStep
  split <;> simp

@[simp] theorem State.drain_inReset (n : Nat) (s : State) :
    (State.drain n s).hub.standby.inReset = s.hub.standby.inReset := by
  induction n generalizing s with
  | zero => simp [State.drain]
  | succ n ih =>
    unfold State.drain
    split <;> simp [ih]

@[simp] theorem State.settle_inReset (s : State) :
    (s.settle).hub.standby.inReset = s.hub.standby.inReset := by
  simp [State.settle]

@[simp] theorem State.fanDutyAdoption_inReset (s : State) :
    (s.fanDutyAdoption).hub.standby.inReset = s.hub.standby.inReset := by
  unfold State.fanDutyAdoption
  repeat' split
  all_goals simp

/-- An event leaves whether the part is kept in reset as it was, where its effect does. -/
theorem event_keeps_inReset {f : State → State} (keeps : ∀ t, (f t).hub.standby.inReset = t.hub.standby.inReset)
    (s : State) :
    ∃ t, event f s = .next t ∧ t.hub.standby.inReset = s.hub.standby.inReset := by
  cases h : s.hub.standby.inReset
  · exact ⟨_, event_next f h, (keeps s).trans h⟩
  · exact ⟨s, event_inReset f h, h⟩

/-- A request leaves whether the part is kept in reset as it was, where its rule does. -/
theorem request_keeps_inReset {rule : State → State × Answer}
    (keeps : ∀ u, (rule u).1.hub.standby.inReset = u.hub.standby.inReset) (p : Port) (kind : Nat) (params : List Word)
    (s : State) :
    ∃ t, request p kind params rule s = .next t ∧ t.hub.standby.inReset = s.hub.standby.inReset := by
  by_cases h : s.listens p
  · exact ⟨_, request_run rule h, (keeps _).trans rfl⟩
  · exact ⟨_, request_ignoring rule h, rfl⟩

end Sys2Proof.Machine
end

