-- ==== Sys2Proof/Laws/Notices.lean ====
section
/-! SUPPORT. The notice queue (R182): what a delivered notice does to it, and that every delivery keeps its form. -/

namespace Sys2Proof.Machine

/-- R182: everything the delivery of a notice to a queue can do. -/
theorem PortRecord.take_cases (n : Notice) (p : PortRecord) :
    ((p.queue.any n.sameThing) = true ∧ p.take n = { p with queue := p.queue.map fun m => if n.sameThing m then n else m }) ∨
      ((p.queue.any n.sameThing) = false ∧ p.queue.length < Config.queueNotices ∧
        p.take n = { p with queue := p.queue ++ [n] }) ∨
      ((p.queue.any n.sameThing) = false ∧ Config.queueNotices ≤ p.queue.length ∧ p.take n = { p with lost := true }) := by
  unfold PortRecord.take
  split
  · exact .inl ⟨by assumption, rfl⟩
  · split
    · exact .inr (.inl ⟨by simp_all, by assumption, rfl⟩)
    · exact .inr (.inr ⟨by simp_all, by omega, rfl⟩)

/-- Whether two notices are of one kind and object depends on their kinds and objects alone. -/
theorem Notice.sameThing_iff (m n : Notice) : m.sameThing n = true ↔ m.kind = n.kind ∧ m.object = n.object := by
  simp [Notice.sameThing]

/-- A replacement in place leaves every entry's kind and object as they were. -/
theorem Notice.replaced_sameThing (n m k : Notice) : (if n.sameThing m then n else m).sameThing k = m.sameThing k := by
  split
  · next h =>
    obtain ⟨a, b⟩ := (Notice.sameThing_iff n m).mp h
    simp [Notice.sameThing, a, b]
  · rfl

theorem Notice.sameThing_replaced (n m k : Notice) : m.sameThing (if n.sameThing k then n else k) = m.sameThing k := by
  split
  · next h =>
    obtain ⟨a, b⟩ := (Notice.sameThing_iff n k).mp h
    simp [Notice.sameThing, a, b]
  · rfl

/-- R182: a delivery keeps a queue at 16 entries or fewer, no two of one kind and object. -/
theorem PortRecord.take_queueOk {n : Notice} {p : PortRecord} (ok : p.queueOk) : (p.take n).queueOk := by
  obtain ⟨len, distinct⟩ := ok
  rcases p.take_cases n with ⟨-, e⟩ | ⟨new, room, e⟩ | ⟨-, -, e⟩
  · rw [e]
    refine ⟨by simpa using len, ?_⟩
    simpa [List.pairwise_map, Notice.replaced_sameThing, Notice.sameThing_replaced] using distinct
  · rw [e]
    refine ⟨by simpa using room, ?_⟩
    rw [List.any_eq_false] at new
    refine List.pairwise_append.mpr ⟨distinct, List.pairwise_singleton _ _, fun m hm k hk => ?_⟩
    rw [List.mem_singleton.mp hk]
    refine Bool.eq_false_iff.mpr fun same => new m hm ?_
    obtain ⟨a, c⟩ := (Notice.sameThing_iff m n).mp same
    exact (Notice.sameThing_iff n m).mpr ⟨a.symm, c.symm⟩
  · rw [e]
    exact ⟨len, distinct⟩

/-- R180, R182: the delivery of a step's notices keeps a queue's form. -/
theorem deliverAll_queueOk {ns : List Notice} {b : Bool} {p : PortRecord} (ok : p.queueOk) :
    (deliverAll ns b p).queueOk := by
  unfold deliverAll
  split
  · exact ok
  · induction ns generalizing p with
    | nil => exact ok
    | cons n ns ih =>
      refine ih (p := p.deliver n) ?_
      unfold PortRecord.deliver
      split
      · exact PortRecord.take_queueOk ok
      · exact ok

/-- What a delivery of notices leaves of a port's record: all but the queue and LOST. -/
theorem deliverAll_frame (ns : List Notice) (b : Bool) (p : PortRecord) :
    (deliverAll ns b p).receive = p.receive ∧ (deliverAll ns b p).slot = p.slot ∧
      (deliverAll ns b p).subscriptions = p.subscriptions ∧ (deliverAll ns b p).run = p.run ∧
      (deliverAll ns b p).refused = p.refused ∧ (deliverAll ns b p).discarded = p.discarded ∧
      (deliverAll ns b p).frame = p.frame ∧ (deliverAll ns b p).outFrame = p.outFrame := by
  unfold deliverAll
  split
  · simp
  · induction ns generalizing p with
    | nil => simp
    | cons n ns ih =>
      have one : (p.deliver n).receive = p.receive ∧ (p.deliver n).slot = p.slot ∧
          (p.deliver n).subscriptions = p.subscriptions ∧ (p.deliver n).run = p.run ∧
          (p.deliver n).refused = p.refused ∧ (p.deliver n).discarded = p.discarded ∧
          (p.deliver n).frame = p.frame ∧ (p.deliver n).outFrame = p.outFrame := by
        unfold PortRecord.deliver PortRecord.take
        repeat' split
        all_goals simp
      simpa [one] using ih (p.deliver n)

end Sys2Proof.Machine
end

