-- ==== Sys2Proof/Laws/Intake.lean ====
section
/-! SUPPORT. The intake buffers (R4): that every operation of Source Intake keeps each within 64 frames. -/

namespace Sys2Proof.Machine

theorem State.setSource_buffersOk {i : SourceId} {x : Source} {s : State} (ok : s.buffersOk) (b : x.bufferOk) :
    (s.setSource i x).buffersOk := by
  intro j
  by_cases e : i = j
  · subst e
    simpa [State.setSource] using b
  · have : (s.sources.set i x)[j] = s.sources[j] := by
      have : i.val ≠ j.val := fun h => e (Fin.ext h)
      simp [Vector.getElem_set, this]
    simpa [State.setSource, this] using ok j

theorem State.changeSource_buffersOk {i : SourceId} {x : Source} {s : State} (ok : s.buffersOk) (b : x.bufferOk) :
    (s.changeSource i x).buffersOk :=
  State.setSource_buffersOk (i := i) (x := x) ok b

theorem Source.enter_bufferOk (st : SourceState) {x : Source} (b : x.bufferOk) : (x.enter st).bufferOk := by
  unfold Source.enter
  split
  · exact b
  · exact Nat.zero_le _
  · exact Nat.zero_le _
  · exact Nat.zero_le _

theorem Source.write_bufferOk (f : Frame) {x : Source} (b : x.bufferOk) : (x.write f).bufferOk := by
  unfold Source.write
  split
  · next h => simpa [Source.bufferOk] using h
  · exact b

theorem Source.slip_bufferOk {x : Source} (b : x.bufferOk) : x.slip.bufferOk := by
  unfold Source.slip
  repeat' split
  · exact b
  · have : (x.buffer.drop 1).length ≤ x.buffer.length := by simp
    exact this.trans b
  · exact b

theorem Source.blockStart_bufferOk {x : Source} (b : x.bufferOk) : x.blockStart.bufferOk := by
  unfold Source.blockStart
  dsimp only
  split
  · exact Source.slip_bufferOk b
  · exact b

theorem Source.read_bufferOk {x : Source} (b : x.bufferOk) : x.read.1.bufferOk := by
  unfold Source.read
  split
  · split
    · next h => simp [Source.bufferOk, h]
    · next f rest h =>
      simp only [Source.bufferOk, h, List.length_cons] at b ⊢
      split
      · simpa using b
      · omega
  · exact b

theorem State.writeFrame_buffersOk (i : SourceId) (f : Frame) {s : State} (ok : s.buffersOk) :
    (s.writeFrame i f).buffersOk := by
  have w := Source.write_bufferOk f (ok i)
  unfold State.writeFrame
  dsimp only
  split
  · exact State.changeSource_buffersOk (State.setSource_buffersOk ok w) (Source.enter_bufferOk _ w)
  · exact State.setSource_buffersOk ok w

theorem State.arrive_buffersOk (i : SourceId) (f : Frame) {s : State} (ok : s.buffersOk) :
    (s.arrive i f).buffersOk := by
  have b := ok i
  unfold State.arrive
  dsimp only
  split
  · exact ok
  · split
    · split
      · exact State.writeFrame_buffersOk _ _ (State.changeSource_buffersOk ok (Source.enter_bufferOk _ (x := { s.sources[i] with arrivals := s.sources[i].arrivals + 1, arrival := true }) b))
      · exact State.changeSource_buffersOk ok (Source.enter_bufferOk _ (x := { s.sources[i] with arrivals := s.sources[i].arrivals + 1, arrival := true }) b)
    · exact State.writeFrame_buffersOk _ _ (State.setSource_buffersOk ok b)
    · exact State.writeFrame_buffersOk _ _ (State.setSource_buffersOk ok b)
    · exact State.setSource_buffersOk ok b

theorem State.onHub_buffersOk (f : Hub → Hub) {s : State} (ok : s.buffersOk) : (s.onHub f).buffersOk := ok

theorem State.adoptRecord_buffersOk (i : SourceId) (r : StatusRecord) {s : State} (ok : s.buffersOk) :
    (s.adoptRecord i r).buffersOk := by
  have b : Source.bufferOk { s.sources[i] with adopted := some r } := ok i
  unfold State.adoptRecord
  dsimp only
  refine State.changeSource_buffersOk ok ?_
  split
  · exact b
  · exact Source.enter_bufferOk _ b

theorem State.checkBlock_buffersOk (i : SourceId) (c : StatusBlock) {s : State} (ok : s.buffersOk) :
    (s.checkBlock i c).buffersOk := by
  have b := ok i
  unfold State.checkBlock
  dsimp only
  repeat' split
  · exact State.setSource_buffersOk ok b
  · exact State.setSource_buffersOk (s := s) ok b
  · exact State.adoptRecord_buffersOk i _ (State.setSource_buffersOk ok b)
  · exact State.setSource_buffersOk ok b

theorem State.collect_buffersOk (i : SourceId) (x y : Bool) {s : State} (ok : s.buffersOk) :
    (s.collect i x y).buffersOk := by
  have b := ok i
  unfold State.collect
  dsimp only
  repeat' split
  · exact ok
  · exact State.setSource_buffersOk ok b
  · exact State.setSource_buffersOk ok b
  · exact State.checkBlock_buffersOk _ _ (State.setSource_buffersOk ok b)
  · exact State.setSource_buffersOk ok b

theorem State.holdMask_buffersOk (i : SourceId) (g : Bool) (m : BitVec 4) {s : State} (ok : s.buffersOk) :
    (s.holdMask i g m).buffersOk := by
  unfold State.holdMask
  have b : Source.bufferOk
      (if g = true then { s.sources[i] with maskA := m } else { s.sources[i] with maskB := m }) := by
    cases g <;> exact ok i
  dsimp only
  generalize (if g = true then { s.sources[i] with maskA := m } else { s.sources[i] with maskB := m }) = y at b ⊢
  split
  · exact State.setSource_buffersOk ok b
  · refine State.changeSource_buffersOk ok ?_
    split
    · exact Nat.zero_le _
    · exact Nat.zero_le _

theorem State.arriveTimes_buffersOk (i : SourceId) (f : Frame) (n : Nat) {s : State} (ok : s.buffersOk) :
    (s.arriveTimes i f n).buffersOk := by
  induction n generalizing s with
  | zero => exact ok
  | succ n ih => exact ih (State.arrive_buffersOk i f ok)

theorem State.writeCompleted_buffersOk (i : SourceId) (q : Nat) (f : Frame) {s : State} (ok : s.buffersOk) :
    (s.writeCompleted i q f).buffersOk := by
  have count : ∀ b, (s.setSource i (s.sources[i].countGap (s.sources[i].gapBefore q) b)).buffersOk := fun b =>
    State.setSource_buffersOk ok (ok i)
  have fin : ∀ t : State, t.buffersOk →
      ((t.arrive i f).setSource i { (t.arrive i f).sources[i] with lastSeq := some q }).buffersOk := fun t h =>
    State.setSource_buffersOk (State.arrive_buffersOk i f h) (State.arrive_buffersOk i f h i)
  unfold State.writeCompleted
  dsimp only
  repeat' split
  · exact fin _ (State.arriveTimes_buffersOk _ _ _ (count true))
  · exact fin _ (count false)
  · exact fin _ (count false)

theorem State.assemble_buffersOk (i : SourceId) (q : Nat) (g : Bool) (x : Part) {s : State} (ok : s.buffersOk) :
    (s.assemble i q g x).buffersOk := by
  have b : Source.bufferOk { s.sources[i] with pendingFrame := none } := ok i
  have w := fun r f => State.writeCompleted_buffersOk i r f (State.setSource_buffersOk (i := i) ok b)
  unfold State.assemble
  dsimp only
  split
  · exact State.setSource_buffersOk ok b
  · split
    · exact w _ _
    · refine State.setSource_buffersOk (w _ _) ?_
      exact w _ _ i

theorem State.acceptPacket_buffersOk (i : SourceId) (q : Nat) (g : Bool) (x : Part) (d : BitVec 26) {s : State}
    (ok : s.buffersOk) : (s.acceptPacket i q g x d).buffersOk := by
  unfold State.acceptPacket
  dsimp only
  split
  · exact State.setSource_buffersOk ok (ok i)
  · refine State.assemble_buffersOk _ _ _ _ ?_
    split
    · exact State.collect_buffersOk _ _ _ ok
    · exact ok

theorem State.testHeader_buffersOk (i : SourceId) (k : PacketHeader) (a b c d : BitVec 26) {s : State}
    (ok : s.buffersOk) : (s.testHeader i k a b c d).buffersOk := by
  unfold State.testHeader
  dsimp only
  split
  · split
    · exact State.setSource_buffersOk ok (ok i)
    · refine State.acceptPacket_buffersOk _ _ _ _ _ ?_
      exact State.holdMask_buffersOk _ _ _ ok
  · exact ok

theorem State.packet_buffersOk (i : SourceId) (ws : List CodeWord) {s : State} (ok : s.buffersOk) :
    (s.packet i ws).buffersOk := by
  unfold State.packet
  dsimp only
  split
  · exact ok
  · split
    · refine State.testHeader_buffersOk _ _ _ _ _ _ ?_
      exact State.setSource_buffersOk ok (ok i)
    · refine State.setSource_buffersOk ok ?_
      exact ok i

theorem State.serialFrame_buffersOk (i : SourceId) (l r : BitVec 24) (v x c : Bool) {s : State} (ok : s.buffersOk) :
    (s.serialFrame i l r v x c).buffersOk := by
  have b := ok i
  unfold State.serialFrame
  dsimp only
  split
  · exact ok
  · refine State.collect_buffersOk _ _ _ (State.arrive_buffersOk _ _ (State.setSource_buffersOk ok ?_))
    split <;> exact b

theorem State.takeChange_buffersOk (i : SourceId) {s : State} (ok : s.buffersOk) : (s.takeChange i).buffersOk := by
  have b : Source.bufferOk { s.sources[i] with change := none } := ok i
  unfold State.takeChange
  dsimp only
  repeat' split
  all_goals first
    | exact ok
    | exact State.setSource_buffersOk ok b
    | exact State.changeSource_buffersOk ok (Source.enter_bufferOk _ b)
    | exact State.changeSource_buffersOk ok (Nat.zero_le _)

theorem State.sourceBlockStart_buffersOk (i : SourceId) {s : State} (ok : s.buffersOk) :
    (s.sourceBlockStart i).buffersOk :=
  State.setSource_buffersOk ok (Source.blockStart_bufferOk (ok i))

theorem State.takeAbsent_buffersOk (i : SourceId) {s : State} (ok : s.buffersOk) : (s.takeAbsent i).buffersOk := by
  unfold State.takeAbsent
  dsimp only
  split
  · exact State.changeSource_buffersOk ok (Source.enter_bufferOk _ (ok i))
  · exact ok

theorem State.takeSlipRestart_buffersOk (i : SourceId) {s : State} (ok : s.buffersOk) :
    (s.takeSlipRestart i).buffersOk := by
  unfold State.takeSlipRestart
  dsimp only
  split
  · exact State.changeSource_buffersOk ok (Source.enter_bufferOk .prefill (ok i))
  · exact ok

theorem State.sourceIntervalEnd_buffersOk (i : SourceId) {s : State} (ok : s.buffersOk) :
    (s.sourceIntervalEnd i).buffersOk := by
  have b := ok i
  have j : s.sources[i].judge.bufferOk := by
    unfold Source.judge
    split <;> exact b
  unfold State.sourceIntervalEnd
  dsimp only
  repeat' split
  · exact State.setSource_buffersOk ok b
  · exact State.changeSource_buffersOk ok j
  · exact State.changeSource_buffersOk ok (Source.enter_bufferOk _ j)

theorem State.eachSource_buffersOk {f : SourceId → State → State}
    (keeps : ∀ i {s : State}, s.buffersOk → (f i s).buffersOk) {s : State} (ok : s.buffersOk) :
    (s.eachSource f).buffersOk := by
  have all : ∀ (is : List SourceId) (t : State), t.buffersOk → (is.foldl (fun u i => f i u) t).buffersOk := by
    intro is
    induction is with
    | nil => exact fun _ h => h
    | cons i is ih => exact fun t h => ih (f i t) (keeps i h)
  exact all _ s ok

theorem State.samplePeriod_buffersOk {s : State} (ok : s.buffersOk) : s.samplePeriod.buffersOk := by
  intro i
  simpa [State.samplePeriod] using Source.read_bufferOk (ok i)

theorem State.sourceToStandby_buffersOk (i : SourceId) {s : State} (ok : s.buffersOk) :
    (s.sourceToStandby i).buffersOk := by
  have b : Source.bufferOk { s.sources[i] with change := none } := ok i
  unfold State.sourceToStandby
  dsimp only
  split
  · exact State.setSource_buffersOk ok b
  · exact State.changeSource_buffersOk ok (Source.enter_bufferOk _ b)

theorem State.takeStandbyEntry_buffersOk {s : State} (ok : s.buffersOk) : s.takeStandbyEntry.buffersOk := by
  have each : (s.eachSource State.sourceToStandby).buffersOk :=
    State.eachSource_buffersOk (f := State.sourceToStandby) (fun i _ h => State.sourceToStandby_buffersOk i h) ok
  unfold State.takeStandbyEntry
  split
  · exact State.onHub_buffersOk _ each
  · exact ok

theorem State.redecide_buffersOk {f : State → State} (keeps : ∀ {s : State}, s.buffersOk → (f s).buffersOk) {s : State}
    (ok : s.buffersOk) : (s.redecide f).buffersOk := by
  unfold State.redecide
  dsimp only
  split
  · exact State.onHub_buffersOk _ (keeps ok)
  · exact keeps ok

theorem State.absentFirst_buffersOk (i : SourceId) {s : State} (ok : s.buffersOk) : (s.absentFirst i).buffersOk := by
  unfold State.absentFirst
  split
  · exact State.redecide_buffersOk (fun h => State.takeAbsent_buffersOk i h) (s := s.onHub _) ok
  · exact ok

theorem State.blockStart_buffersOk {s : State} (ok : s.buffersOk) : s.blockStart.buffersOk := by
  have a := State.eachSource_buffersOk (f := State.takeChange) (fun i _ h => State.takeChange_buffersOk i h) ok
  have b := State.eachSource_buffersOk (f := State.sourceBlockStart) (fun i _ h => State.sourceBlockStart_buffersOk i h) a
  unfold State.blockStart
  split
  · exact State.onHub_buffersOk _ (State.onHub_buffersOk _ b)
  · exact ok

theorem State.intervalEnd_buffersOk {s : State} (ok : s.buffersOk) : s.intervalEnd.buffersOk := by
  have absent := State.eachSource_buffersOk (f := State.absentFirst) (fun i _ h => State.absentFirst_buffersOk i h) ok
  have each := State.redecide_buffersOk
    (fun h => State.eachSource_buffersOk (f := State.sourceIntervalEnd) (fun i _ h => State.sourceIntervalEnd_buffersOk i h) h)
    absent
  unfold State.intervalEnd
  split
  · exact State.onHub_buffersOk _ each
  · exact ok

theorem State.takeDue_buffersOk (d : Due) {s : State} (ok : s.buffersOk) : (s.takeDue d).buffersOk := by
  unfold State.takeDue
  split
  · exact State.blockStart_buffersOk ok
  · exact State.redecide_buffersOk (fun h => State.takeAbsent_buffersOk _ h) ok
  · exact State.redecide_buffersOk (fun h => State.takeSlipRestart_buffersOk _ h) ok
  · exact State.intervalEnd_buffersOk ok
  · exact ok

theorem State.eventStep_buffersOk (d : Due) {s : State} (ok : s.buffersOk) : (s.eventStep d).buffersOk := by
  unfold State.eventStep
  split
  · exact State.takeDue_buffersOk d (s := s.onHub _) ok
  · exact ok

theorem State.drain_buffersOk (n : Nat) {s : State} (ok : s.buffersOk) : (State.drain n s).buffersOk := by
  induction n generalizing s with
  | zero => exact ok
  | succ n ih =>
    unfold State.drain
    split
    · exact ok
    · exact ih (State.takeDue_buffersOk _ (s := s.onHub _) ok)

theorem State.settle_buffersOk {s : State} (ok : s.buffersOk) : s.settle.buffersOk :=
  State.takeStandbyEntry_buffersOk (s := (State.drain settleLimit s).onHub _) (State.drain_buffersOk _ ok)

end Sys2Proof.Machine
end

