-- ==== Sys2Proof/Laws/LayoutItems.lean ====
section
/-! SUPPORT. What the adoption of a layout and a derivation, caused by a controller or by a fault, can do (R86, R87), a trip
that latches a lane whose pending assignment it applies (R109, R113), and what the derivation of the tuner holder does
(R133). -/

namespace Sys2Proof.Machine

/-! ### Layouts -/

/-- R87: what a record holds after the adoption of a layout. -/
theorem Renderer.adopt_adopted (l : Layout) (r : Renderer) : r.adopted (r.adopt l) l := by
  refine ⟨rfl, fun p => ⟨?_, fun a b => ?_, fun a => ?_⟩, rfl⟩
  · simp [Renderer.adopt]
  · simp [Renderer.adopt, a, b]
  · simp [Renderer.adopt]
    intro x y
    simp [x, y] at a

/-- R86, R87: everything the adoption of the derived layout does. -/
theorem Hub.adoptLayout_effect (h : Hub) :
    (h.renderer.derived = h.renderer.inForce → h.adoptLayout = h) ∧
    (h.renderer.derived ≠ h.renderer.inForce →
      h.adoptLayout.renderer = h.renderer.adopt h.renderer.derived ∧
        ∃ ns, h.adoptLayout.outbox = h.outbox ++ ns ∧ h.renderer.tellsAdoption h.adoptLayout.renderer ns) ∧
    h.nudged h.adoptLayout := by
  refine ⟨fun e => by simp [Hub.adoptLayout, e], fun n => ?_, Hub.adoptLayout_nudged h⟩
  have er : h.adoptLayout.renderer = h.renderer.adopt h.renderer.derived := by
    unfold Hub.adoptLayout
    dsimp only
    rw [if_neg n]
    split <;> simp
  refine ⟨er, ?_⟩
  rw [er]
  have key : ∃ ns, h.adoptLayout.outbox = h.outbox ++ ns ∧
      layoutEffectiveNotice (h.renderer.adopt h.renderer.derived) ∈ ns ∧
      (h.renderer.inForce.valid = true → h.renderer.derived.valid = false →
        layoutInvalidNotice h.renderer.derived ∈ ns) := by
    unfold Hub.adoptLayout
    dsimp only
    rw [if_neg n]
    have eo := h.makeRoom_outbox none (h.renderer.derived.cells - h.renderer.inForce.cells)
    have erend := (h.makeRoom_frame none (h.renderer.derived.cells - h.renderer.inForce.cells)).2.2.1
    generalize Hub.makeRoom none (h.renderer.derived.cells - h.renderer.inForce.cells) h = m at eo erend
    have base (k : Hub) (e : k.outbox = h.outbox) (c : Bool) (x y : Notice) (g : Hub)
        (kp : (postIf c x (post y k)).keepsPosted g) :
        ∃ ns, g.outbox = h.outbox ++ ns ∧ y ∈ ns ∧ (c = true → x ∈ ns) := by
      obtain ⟨ms, em⟩ := kp
      rw [postIf_outbox, post_outbox, e] at em
      refine ⟨_, by rw [em, List.append_assoc, List.append_assoc], by simp, fun cc => by simp [cc]⟩
    have fin (g : Hub)
        (kp : (postIf (h.renderer.inForce.valid && !h.renderer.derived.valid) (layoutInvalidNotice h.renderer.derived)
          (post (layoutEffectiveNotice (m.renderer.adopt h.renderer.derived))
            { m with renderer := m.renderer.adopt h.renderer.derived })).keepsPosted g) :
        ∃ ns, g.outbox = h.outbox ++ ns ∧
      layoutEffectiveNotice (h.renderer.adopt h.renderer.derived) ∈ ns ∧
      (h.renderer.inForce.valid = true → h.renderer.derived.valid = false →
        layoutInvalidNotice h.renderer.derived ∈ ns) := by
      obtain ⟨ns, e1, e2, e3⟩ := base _ (by exact eo) _ _ _ g kp
      rw [erend] at e2
      exact ⟨ns, e1, e2, fun a b => e3 (by simp [a, b])⟩
    split
    · exact fin _ (Hub.keepsPosted_of_eq rfl)
    · exact fin _ (Hub.recompute_keepsPosted _)
  obtain ⟨ns, e1, e2, e3⟩ := key
  exact ⟨ns, e1, fun _ => ⟨e2, e3⟩⟩

theorem Hub.rewriteDerived_effect (l : Layout) (h : Hub) :
    (h.rewriteDerived l).renderer = { h.renderer with derived := l } ∧ h.nudged (h.rewriteDerived l) ∧
      h.keepsPosted (h.rewriteDerived l) := by
  have e : h.onCourse { h with renderer := { h.renderer with derived := l } } := Hub.onCourse_of_zones rfl
  have p : h.keepsPosted { h with renderer := { h.renderer with derived := l } } := Hub.keepsPosted_of_eq rfl
  unfold Hub.rewriteDerived
  dsimp only
  split
  · exact ⟨rfl, e.nudged, p⟩
  · exact ⟨by simp, e.nudged.trans (Hub.recompute_nudged _), p.trans (Hub.recompute_keepsPosted _)⟩

/-- A nudge as the three kinds of states see it. -/
theorem Zone.nudged.state {x y : Zone} (n : x.nudged y) :
    (x.state = .off ∨ x.state = .waiting → y.state = x.state) ∧
    (x.state = .playing ∨ x.state = .fadingIn →
      y.gain = x.gain ∧ (y.state = .playing ∨ y.state = .fadingIn ∨ y.state = .fadingOut .reconfigure)) ∧
    (∀ k, x.state = .fadingOut k → y.state = .fadingOut k ∧ y.gain = x.gain) := by
  obtain ⟨-, -, -, ⟨s, g, -, -⟩ | ⟨c, s, g⟩⟩ := n
  · refine ⟨fun _ => s, fun p => ⟨g, ?_⟩, fun k p => ⟨s.trans p, g⟩⟩
    rcases p with p | p
    · exact .inl (s.trans p)
    · exact .inr (.inl (s.trans p))
  · refine ⟨fun p => ?_, fun _ => ⟨g, .inr (.inr s)⟩, fun k p => ?_⟩
    · rcases c with c | c <;> rcases p with p | p <;> simp [c] at p
    · rcases c with c | c <;> simp [c] at p

/-- R86, R50, R87: what a derivation that a controller causes leads to. -/
theorem Hub.deriveLayout_raises (h : Hub) :
    ∃ ns, (h.deriveLayout .controller).outbox = h.outbox ++ ns ∧
      h.raisesLayout (h.deriveLayout .controller) h.freshLayout ns := by
  unfold Hub.deriveLayout
  dsimp only
  generalize h.freshLayout = l
  obtain ⟨er, en, ep⟩ := h.rewriteDerived_effect l
  generalize h.rewriteDerived l = k at er en ep
  obtain ⟨n1, n2, n3⟩ := (en .main).state
  obtain ⟨as, ea⟩ := ep
  have hp : k.renderer.itemPending = h.renderer.itemPending := by rw [er]
  have hd : k.renderer.derived = l := by rw [er]
  have hi : k.renderer.inForce = h.renderer.inForce := by rw [er]
  unfold Hub.takeDerived
  dsimp only
  by_cases c : l ≠ h.renderer.inForce ∧ h.renderer.itemPending = false
  · rw [if_pos (by rw [hd, hi, hp]; exact c)]
    generalize eg : postIf (decide (l ≠ h.renderer.derived)) (layoutEffectiveNotice { k.renderer with itemPending := true })
      { k with renderer := { k.renderer with itemPending := true } } = g
    have gr : g.renderer = { h.renderer with derived := l, itemPending := true } := by rw [← eg]; simp [er]
    have gz : g.zones = k.zones := by rw [← eg]; simp
    have go : g.outbox = h.outbox ++ (as ++ if decide (l ≠ h.renderer.derived) = true then [layoutEffectiveNotice { k.renderer with itemPending := true }] else []) := by
      rw [← eg, postIf_outbox]
      show k.outbox ++ _ = _
      rw [ea, List.append_assoc]
    have tells : l ≠ h.renderer.derived →
        layoutEffectiveNotice { h.renderer with itemPending := h.renderer.itemPending || decide (l ≠ h.renderer.inForce) } ∈
          (as ++ if decide (l ≠ h.renderer.derived) = true then [layoutEffectiveNotice { k.renderer with itemPending := true }] else []) := by
      intro ne
      have : layoutEffectiveNotice { h.renderer with itemPending := h.renderer.itemPending || decide (l ≠ h.renderer.inForce) } =
          layoutEffectiveNotice { k.renderer with itemPending := true } := by
        simp [layoutEffectiveNotice, c.1, hi]
      rw [this]
      simp [ne]
    generalize (as ++ if decide (l ≠ h.renderer.derived) = true then [layoutEffectiveNotice { k.renderer with itemPending := true }] else []) = bs at go tells
    have gm : (g.zone .main) = (k.zone .main) := Hub.zone_eq_of_zones gz _
    unfold Hub.raiseItem
    have silent (s : (h.zone .main).state = .off ∨ (h.zone .main).state = .waiting) :
        ∃ ns, g.applyLayout.outbox = h.outbox ++ ns ∧ h.raisesLayout g.applyLayout l ns := by
      have ek : ({ g with renderer := { g.renderer with itemPending := false } } : Hub).renderer = { h.renderer with derived := l, itemPending := false } := by
        rw [gr]
      obtain ⟨-, a2, a3⟩ := Hub.adoptLayout_effect { g with renderer := { g.renderer with itemPending := false } }
      obtain ⟨b1, ms, em, tm⟩ := a2 (by simp [gr, c.1])
      rw [ek] at b1 tm
      have b1 : g.applyLayout.renderer = Renderer.adopt l { h.renderer with derived := l, itemPending := false } := b1
      refine ⟨bs ++ ms, ?_, ?_⟩
      · show Hub.outbox (Hub.adoptLayout _) = _
        rw [em]
        show g.outbox ++ _ = _
        rw [go, List.append_assoc]
      · refine ⟨by rw [b1]; rfl, fun ne => List.mem_append_left _ (tells ne), fun o => ?_, fun _ _ => ⟨fun _ => ?_, fun o => ?_, fun q o => ?_⟩⟩
        · rcases o with o | o
          · exact absurd o c.1
          · exact absurd o (by simp [c.2])
        · refine ⟨by rw [b1]; rfl, by rw [b1]; exact Renderer.adopt_adopted _ { h.renderer with derived := l, itemPending := false }, ?_, ?_⟩
          · intro d
            obtain ⟨u, v⟩ := tm d
            exact ⟨List.mem_append_right _ u, fun x y => List.mem_append_right _ (v x y)⟩
          · obtain ⟨m1, -⟩ := (a3 .main).state
            have m1 : g.applyLayout.zones.main.state = (g.zone .main).state := m1 (by
              show (g.zone .main).state = _ ∨ (g.zone .main).state = _
              rw [gm, n1 s]; exact s)
            rw [m1, gm]; exact n1 s
        · rcases s with s | s <;> rcases o with o | o <;> exact absurd (s.symm.trans o) (by decide)
        · rcases s with s | s <;> exact absurd (s.symm.trans o) (by simp)
    have held (s : ¬ ((h.zone .main).state = .off ∨ (h.zone .main).state = .waiting)) (f : Hub) (fr : f.renderer = g.renderer)
        (fo : g.keepsPosted f) (fl : f.zones.main.pending.layout = true) (fg : f.zones.main.gain = (k.zone .main).gain)
        (fs : (k.zone .main).state = .playing ∨ (k.zone .main).state = .fadingIn → f.zones.main.state = .fadingOut .reconfigure)
        (ft : ∀ q, (k.zone .main).state = .fadingOut q → f.zones.main.state = .fadingOut q) :
        ∃ ns, f.outbox = h.outbox ++ ns ∧ h.raisesLayout f l ns := by
      obtain ⟨ms, em⟩ := fo
      refine ⟨bs ++ ms, by rw [em, go, List.append_assoc], ?_⟩
      refine ⟨by rw [fr, gr], fun ne => List.mem_append_left _ (tells ne), fun o => ?_, fun _ _ => ⟨fun o => absurd o s, fun o => ?_, fun q o => ?_⟩⟩
      · rcases o with o | o
        · exact absurd o c.1
        · exact absurd o (by simp [c.2])
      · obtain ⟨u, v⟩ := n2 o
        refine ⟨?_, fg.trans u, fl, by rw [fr, gr], by rw [fr, gr]; exact ⟨rfl, rfl, rfl, rfl⟩⟩
        rcases v with v | v | v
        · exact fs (.inl v)
        · exact fs (.inr v)
        · exact ft _ v
      · obtain ⟨u, v⟩ := n3 q o
        exact ⟨ft _ u, fg.trans v, fl, by rw [fr, gr], by rw [fr, gr]; exact ⟨rfl, rfl, rfl, rfl⟩⟩
    split
    · rename_i o
      refine silent ?_
      rw [gm] at o
      rcases st : (h.zone .main).state with _ | q | _ | _ | _
      · exact .inl rfl
      · exact absurd ((n3 q st).1.symm.trans o) (by simp)
      · exact .inr rfl
      · rcases (n2 (.inr st)).2 with v | v | v <;> exact absurd (v.symm.trans o) (by simp)
      · rcases (n2 (.inl st)).2 with v | v | v <;> exact absurd (v.symm.trans o) (by simp)
    · rename_i o
      refine silent ?_
      rw [gm] at o
      rcases st : (h.zone .main).state with _ | q | _ | _ | _
      · exact .inl rfl
      · exact absurd ((n3 q st).1.symm.trans o) (by simp)
      · exact .inr rfl
      · rcases (n2 (.inr st)).2 with v | v | v <;> exact absurd (v.symm.trans o) (by simp)
      · rcases (n2 (.inl st)).2 with v | v | v <;> exact absurd (v.symm.trans o) (by simp)
    · rename_i o w
      rw [gm] at o w
      have s : ¬ ((h.zone .main).state = .off ∨ (h.zone .main).state = .waiting) := by
        rintro (s | s)
        · exact o ((n1 (.inl s)).trans s)
        · exact w ((n1 (.inr s)).trans s)
      have kp := Hub.holdItem_keepsPosted (fun s => { s with layout := true }) .main g
      have kr := (Hub.holdItem_frame (fun s => { s with layout := true }) .main g)
      refine held s _ (by simp) kp ?_ ?_ ?_ ?_
      all_goals
        unfold Hub.holdItem
        rw [gm]
        dsimp only
        rcases st : (k.zone .main).state with _ | q | _ | _ | _
        · exact absurd st o
        · simp [Hub.setZone, PerZone.set]
        · exact absurd st w
        · simp [PerZone.set, Zone.fadeOut, Zone.newWait, Hub.postZoneState]
        · simp [PerZone.set, Zone.fadeOut, Zone.newWait, Hub.postZoneState]
  · rw [if_neg (by rw [hd, hi, hp]; exact c)]
    refine ⟨_, by rw [postIf_outbox, ea, List.append_assoc], ?_⟩
    refine ⟨by simp [hd], fun ne => ?_, fun _ => by simp [er], fun a b => absurd ⟨a, b⟩ c⟩
    have : layoutEffectiveNotice { h.renderer with itemPending := h.renderer.itemPending || decide (l ≠ h.renderer.inForce) } =
        layoutEffectiveNotice k.renderer := by
      have : (h.renderer.itemPending || decide (l ≠ h.renderer.inForce)) = h.renderer.itemPending := by
        cases x : h.renderer.itemPending
        · simp
          exact Classical.byContradiction fun y => c ⟨y, x⟩
        · rfl
      simp only [layoutEffectiveNotice, this, hi, hp]
    rw [this]
    simp [ne]

/-- R86, R87: what a derivation that a fault causes leads to; the zones may be nudged by a changed grant, and no more. -/
theorem Hub.deriveLayout_forFault (h : Hub) :
    (∃ ns, (h.deriveLayout .fault).outbox = h.outbox ++ ns ∧ h.derivesForFault (h.deriveLayout .fault) ns) ∧
      h.nudged (h.deriveLayout .fault) := by
  have el : (h.deriveLayout .fault).lanes = h.lanes := by simp
  unfold Hub.derivesForFault
  rw [el]
  show (∃ ns, _ ∧ (_ = h.freshLayout ∧ _ ∧ (h.freshLayout ≠ _ → _) ∧ _ ∧ (_ → _ ∧ h.renderer.adopted _ h.freshLayout ∧ _))) ∧ _
  unfold Hub.deriveLayout
  dsimp only
  generalize h.freshLayout = l
  obtain ⟨er, en, as, ea⟩ := h.rewriteDerived_effect l
  have ec : (h.rewriteDerived l).clock = h.clock := by simp
  generalize h.rewriteDerived l = k at er en ea ec
  have tells : layoutEffectiveNotice k.renderer = layoutEffectiveNotice h.renderer := by rw [er]; rfl
  have renderer (c : Bool) (n : Notice) (g : Hub) : (postIf c n g).renderer = g.renderer := by simp
  unfold Hub.takeDerived
  dsimp only
  rw [ec]
  by_cases run : h.clock.running = true
  · rw [if_pos run]
    refine ⟨⟨_, by rw [postIf_outbox]; exact (congrArg (· ++ _) ea).trans (List.append_assoc _ _ _), ?_⟩,
      en.trans (Hub.onCourse_of_zones (by simp)).nudged⟩
    rw [renderer, tells]
    exact ⟨by simp [er], by simp [er], fun n => by simp [n], fun _ => by simp [er], fun r => absurd run (by simp [r])⟩
  · rw [if_neg run]
    obtain ⟨same, moved, nudge⟩ := Hub.adoptLayout_effect
      (postIf (decide (l ≠ h.renderer.derived)) (layoutEffectiveNotice k.renderer) k)
    rw [renderer, er] at same moved
    have nudge := (en.trans (Hub.onCourse_of_zones (h := k) (by simp)).nudged).trans nudge
    rw [er] at nudge ⊢
    by_cases still : l = h.renderer.inForce
    · rw [same still]
      refine ⟨⟨_, by rw [postIf_outbox]; exact (congrArg (· ++ _) ea).trans (List.append_assoc _ _ _), ?_⟩, ?_⟩
      · rw [renderer, er]
        refine ⟨rfl, rfl, fun n => by simp [n]; exact .inr rfl, fun r => absurd r run, fun _ => ⟨rfl, ?_, fun n => absurd rfl n⟩⟩
        refine ⟨still.symm, fun p => ⟨by simp [still], fun _ _ => rfl, fun n => absurd (by rw [still]) n⟩, by simp [still]⟩
      · rw [same still] at nudge
        exact nudge
    · obtain ⟨e, ms, em, tm⟩ := moved still
      refine ⟨⟨_, by rw [em, postIf_outbox, ea, List.append_assoc, List.append_assoc], ?_⟩, nudge⟩
      rw [e]
      refine ⟨rfl, rfl, fun n => by simp [n]; exact .inr (.inl rfl), fun r => absurd r run,
        fun _ => ⟨rfl, Renderer.adopt_adopted _ { h.renderer with derived := l }, fun n => ?_⟩⟩
      rw [e] at tm
      obtain ⟨u, v⟩ := tm n
      exact ⟨by simp [u], fun a b => by simp [v a b]⟩

/-- R86, R88: the adoption of the derived layout leaves a fault-caused adoption waiting as it was. -/
theorem Hub.adoptLayout_faultAdoption (h : Hub) : h.adoptLayout.renderer.faultAdoption = h.renderer.faultAdoption := by
  obtain ⟨same, moved, -⟩ := h.adoptLayout_effect
  by_cases e : h.renderer.derived = h.renderer.inForce
  · rw [same e]
  · rw [(moved e).1]
    rfl

/-- R86, R88: a derivation that a controller causes leaves a fault-caused adoption waiting as it was. -/
theorem Hub.deriveLayout_faultAdoption (h : Hub) :
    (h.deriveLayout .controller).renderer.faultAdoption = h.renderer.faultAdoption := by
  have e := (h.rewriteDerived_effect h.freshLayout).1
  unfold Hub.deriveLayout Hub.takeDerived
  dsimp only
  generalize h.rewriteDerived h.freshLayout = k at e
  have ek : k.renderer.faultAdoption = h.renderer.faultAdoption := by rw [e]
  split
  · unfold Hub.raiseItem
    split
    · exact (Hub.adoptLayout_faultAdoption _).trans (by simp [ek])
    · exact (Hub.adoptLayout_faultAdoption _).trans (by simp [ek])
    · simp [ek]
  · simp [ek]

/-- R109, R111, R86: a relay put in OPEN with a pending assignment: the lanes with that assignment applied, its fault state as
it was, and the derivation for the controller's report. -/
theorem Hub.openRelay_raises (l : LaneId) (h : Hub) (p : h.lanes[l].pending ≠ none) :
    ∃ ns, (h.openRelay l).outbox = h.outbox ++ ns ∧
      (h.openRelay l).lanes = h.lanes.set l h.lanes[l].toOpen ∧
      (h.openRelay l).renderer.faultAdoption = h.renderer.faultAdoption ∧
      h.raisesLayout (h.openRelay l)
        (deriveLayoutOf h.renderer.entries h.renderer.sub h.renderer.crossover (h.lanes.set l h.lanes[l].toOpen)) ns := by
  have ps : h.lanes[l].pending.isSome = true := Option.isSome_iff_ne_none.mpr p
  unfold Hub.openRelay
  dsimp only
  rw [if_pos ps]
  obtain ⟨ns, e, r⟩ := Hub.deriveLayout_raises
    { (h.setLane l h.lanes[l].toOpen) with
      renderer := { h.renderer with laneOut := h.renderer.laneOut.set l 0 } }
  exact ⟨ns, e, by simp [Hub.setLane], Hub.deriveLayout_faultAdoption _, r⟩

/-- R113: a trip that latches a lane with a pending assignment: the relay is opened, which leaves the hub `mid`, and then the
lane is latched and derived for its fault (notes/assumptions/77.md). -/
theorem Hub.trip_latches_pending (l : LaneId) (h : Hub) (p : h.lanes[l].pending ≠ none)
    (f : (h.trip l).lanes[l].fault = .latchedOc) :
    ∃ (mid : Hub) (before after : List Notice),
      (h.trip l).outbox =
        h.outbox ++ (before ++ laneStateNotice l (h.trip l).lanes[l] :: laneFaultNotice l (h.trip l).lanes[l] :: after) ∧
      h.raisesLayout mid
        (deriveLayoutOf h.renderer.entries h.renderer.sub h.renderer.crossover (h.lanes.set l h.lanes[l].toOpen)) before ∧
      mid.clock = h.clock ∧ mid.renderer.tables = h.renderer.tables ∧
      mid.renderer.faultAdoption = h.renderer.faultAdoption ∧ mid.derivesForFault (h.trip l) after ∧
      mid.nudged (h.trip l) := by
  obtain ⟨ns, e, -, ea, r⟩ := Hub.openRelay_raises l h p
  have tr : (h.openRelay l).clock = h.clock ∧ (h.openRelay l).renderer.tables = h.renderer.tables := by simp
  unfold Hub.trip at f ⊢
  dsimp only at f ⊢
  generalize h.openRelay l = mid at *
  have c : (mid.lanes[l].tripped).fault = .latchedOc := by
    by_contra c
    rw [if_neg c] at f
    exact c (by simpa [Hub.setLane] using f)
  rw [if_pos c] at f ⊢
  obtain ⟨⟨ms, em, d⟩, n⟩ := Hub.deriveLayout_forFault
    (post (laneFaultNotice l mid.lanes[l].tripped)
      (post (laneStateNotice l mid.lanes[l].tripped) (mid.setLane l mid.lanes[l].tripped)))
  refine ⟨mid, ns, ms, ?_, r, tr.1, tr.2, ea, d, n⟩
  rw [em]
  simp [post_outbox, Hub.setLane, e, List.append_assoc]

/-- R133: everything the derivation of the tuner holder does. -/
theorem Hub.deriveHolder_derives (h : Hub) :
    ∃ ns, h.deriveHolder.outbox = h.outbox ++ ns ∧ h.derivesHolder h.deriveHolder ns ∧ h.deriveHolder.zones = h.zones := by
  have z : h.deriveHolder.zones = h.zones := by unfold Hub.deriveHolder postIf; dsimp only; split <;> rfl
  have r : h.deriveHolder.radio.holder = h.desiredHolder := by
    unfold Hub.deriveHolder postIf; dsimp only; split <;> rfl
  have q : ∀ w, ((h.zone w).power = true ∧ (h.zone w).selected.val = 6) ↔ h.qualifies w = true := by
    intro w
    simp [Hub.qualifies, tunerId, Fin.ext_iff]
  refine ⟨_, postIf_outbox _ _ _, ?_, z⟩
  unfold Hub.derivesHolder
  simp only [Hub.zone_eq_of_zones z, r, q]
  refine ⟨fun w e f => by simp [Hub.desiredHolder, e, f], fun n => ?_, fun n => by simp [n]⟩
  have d : h.desiredHolder =
      if h.qualifies .main then some .main else if h.qualifies .z2 then some .z2
      else if h.qualifies .z3 then some .z3 else none := by
    unfold Hub.desiredHolder
    cases e : h.radio.holder with
    | none => rfl
    | some w => exact if_neg (n w e)
  rw [d]
  refine ⟨fun a => if_pos a, fun a b => ?_, fun a b c => ?_, fun a b c => ?_⟩
  · rw [if_neg a, if_pos b]
  · rw [if_neg a, if_neg b, if_pos c]
  · rw [if_neg a, if_neg b, if_neg c]

end Sys2Proof.Machine
end

