-- ==== Sys2Proof/Laws/LinkBytes.lean ====
section
/-! SUPPORT. The tuner link's receiving side (R147, 12.6): what the reader of the line's characters makes of a reply in
time, of characters before the release, and of the bytes of station data words. -/

namespace Sys2Proof.Machine

/-- R147: characters that each begin within their deadline are received, and what follows is read from the last one's
stop bit on. -/
theorem inTime_append (reply rest : List LinkCharacter) (since : Nat)
    (first : ∀ c ∈ reply.head?, c.start ≤ since + deadlineBits)
    (next : ∀ (k : Nat) (h : k + 1 < reply.length),
      reply[k + 1].start ≤ reply[k].start + characterBits + deadlineBits) :
    inTime since (reply ++ rest) =
      reply.map LinkCharacter.byte ++ inTime (reply.getLast?.elim since fun b => b.start + characterBits) rest := by
  induction reply generalizing since with
  | nil => simp
  | cons c cs ih =>
    have here : c.start ≤ since + deadlineBits := first c (by simp)
    have tail := ih (c.start + characterBits)
      (fun d hd => by
        cases cs with
        | nil => simp at hd
        | cons x xs =>
          obtain rfl : x = d := by simpa using hd
          exact next 0 (by simp))
      (fun k hk => next (k + 1) (by simpa using hk))
    cases cs with
    | nil => simp [inTime, here]
    | cons x xs => simpa [inTime, here, List.getLast?_cons] using tail

/-- R147: characters that begin before the release change nothing. -/
theorem decodeReply_early (m : LinkMessage) (turnaround : Nat) (early line : List LinkCharacter)
    (h : ∀ c ∈ early, c.start < m.release turnaround) :
    decodeReply m turnaround (early ++ line) = decodeReply m turnaround line := by
  have none_kept : early.filter (fun c => decide (m.release turnaround ≤ c.start)) = [] := by
    simpa [List.filter_eq_nil_iff] using h
  simp [decodeReply, heardBytes, List.filter_append, none_kept]

/-- R147: a reply whose length byte counts its payload is complete at its check byte, whatever follows. -/
theorem completeReply_whole (kind length check : Byte) (payload rest : List Byte) (h : length.toNat = payload.length) :
    completeReply (kind :: length :: (payload ++ check :: rest)) = some ⟨kind, payload, check⟩ := by
  simp [completeReply, h]

/-- R147: bytes that stop before the check byte are no complete reply. -/
theorem completeReply_short (kind length : Byte) (bytes : List Byte) (h : bytes.length < length.toNat + 1) :
    completeReply (kind :: length :: bytes) = none := by
  have gone : bytes.drop length.toNat = [] := List.drop_eq_nil_of_le (by omega)
  simp [completeReply, gone]

/-- 12.6: the bytes of station data words, the most significant first, spell those words. -/
theorem dataWords_bytes (words : List CodeWord) :
    dataWords (words.flatMap fun w : CodeWord =>
      [(w >>> 24).setWidth 8, (w >>> 16).setWidth 8, (w >>> 8).setWidth 8, w.setWidth 8]) = words := by
  induction words with
  | nil => rfl
  | cons w ws ih =>
    refine congrArg₂ List.cons ?_ ih
    apply BitVec.eq_of_getLsbD_eq
    intro i hi
    simp only [BitVec.getLsbD_append, BitVec.getLsbD_setWidth, BitVec.getLsbD_ushiftRight]
    interval_cases i <;> simp

end Sys2Proof.Machine
end

