-- ==== Sys2Proof/Laws/Reactions.lean ====
section
/-! SUPPORT. What a source's entry into RUNNING and its departure from RUNNING lead to in the zones, the decoder and the clock
(R32, R55, R56, R70, R72). -/

namespace Sys2Proof.Machine

/-- R56: whether the entry of source `i` into RUNNING starts a zone's fade-in. -/
def Zone.answersTo (i : SourceId) (x : Zone) : Bool := decide (x.current = some i ∧ x.state = .waiting)

/-- R56: everything the entry of source `i` into RUNNING does to the zones. -/
theorem Hub.zoneSourceEnters_effect (i : SourceId) (z : ZoneId) (h : Hub) :
    (h.zoneSourceEnters i z).zone z = (if (h.zone z).answersTo i then (h.zone z).fadeIn else h.zone z) ∧
    (∀ w, w ≠ z → (h.zoneSourceEnters i z).zone w = h.zone w) ∧
    (h.zoneSourceEnters i z).outbox =
      h.outbox ++ (if (h.zone z).answersTo i then [zoneStateNotice z (h.zone z).fadeIn] else []) := by
  unfold Hub.zoneSourceEnters Zone.answersTo
  dsimp only
  split
  · rename_i c
    rw [decide_eq_true c, if_pos rfl, if_pos rfl]
    refine ⟨?_, ?_, ?_⟩
    · simp [Hub.postZoneState, post, Hub.enterZone, Hub.zone, Hub.setZone, Hub.dropDue]
    · intro w hw
      simp [Hub.postZoneState, post, Hub.enterZone, Hub.zone, Hub.setZone, Hub.dropDue, hw]
    · simp [Hub.postZoneState, post, Hub.enterZone, Hub.zone, Hub.setZone, Hub.dropDue]
  · rename_i c
    simp [c]

/-- R32: everything the entry of source `i` into RUNNING does to the clock. -/
theorem Hub.referenceEnters_effect (i : SourceId) (h : Hub) :
    let takes := decide (h.clock.reference = some i ∧ (h.clock.state = .free ∨ h.clock.state = .holdover))
    (h.referenceEnters i).clock = (if takes then h.clock.acquire else h.clock) ∧
    (h.referenceEnters i).outbox = h.outbox ++ (if takes then [clockStateNotice h.clock.acquire] else []) := by
  unfold Hub.referenceEnters
  have e : h.clock.acquire.state = .acquiring := by unfold Clock.acquire; split <;> rfl
  dsimp only
  split
  · rename_i c
    rcases c with ⟨c, d | d⟩ <;> simp [Hub.setClock, postIf, post, e, c, d]
  · rename_i c
    simp [c]

/-- R56, R32: what the entry of a source into RUNNING leads to in the other blocks, its channel set staying. -/
theorem Hub.sourceChanged_entered (src : Vector Source 8) (i : SourceId) (h : Hub) (now : src[i].isRunning = true) :
    ∃ ns, (h.sourceChanged src i false false).outbox = h.outbox ++ ns ∧
      h.tookEntry { h.sourceChanged src i false false with outbox := h.outbox } i ns := by
  have e : h.sourceChanged src i false false =
      ((((h.zoneSourceEnters i .main).zoneSourceEnters i .z2).zoneSourceEnters i .z3).referenceEnters i) := by
    simp only [Hub.sourceChanged, now]
    simp
  rw [e]
  generalize ga : h.zoneSourceEnters i .main = a
  generalize gb : a.zoneSourceEnters i .z2 = b
  generalize gc : b.zoneSourceEnters i .z3 = c
  obtain ⟨a1, a2, a3⟩ := ga ▸ h.zoneSourceEnters_effect i .main
  obtain ⟨b1, b2, b3⟩ := gb ▸ a.zoneSourceEnters_effect i .z2
  obtain ⟨c1, c2, c3⟩ := gc ▸ b.zoneSourceEnters_effect i .z3
  obtain ⟨d1, d2⟩ := c.referenceEnters_effect i
  have fa := ga ▸ h.zoneSourceEnters_frame i .main
  have fb := gb ▸ a.zoneSourceEnters_frame i .z2
  have fc := gc ▸ b.zoneSourceEnters_frame i .z3
  have fd := c.referenceEnters_frame i
  have ez : ∀ z, (c.referenceEnters i).zone z = if (h.zone z).answersTo i then (h.zone z).fadeIn else h.zone z := by
    intro z
    rw [Hub.zone_eq_of_zones fd.1]
    have e2 := a2 .z2 (by decide)
    have e3 := a2 .z3 (by decide)
    have e4 := b2 .main (by decide)
    have e5 := b2 .z3 (by decide)
    have e6 := c2 .main (by decide)
    have e7 := c2 .z2 (by decide)
    cases z
    · rw [e6, e4, a1]
    · rw [e7, b1, e2]
    · rw [c1, e5, e3]
  have ec : c.clock = h.clock := by simp [fa, fb, fc]
  rw [d2, c3, b3, a3, List.append_assoc, List.append_assoc, List.append_assoc]
  refine ⟨_, rfl, ?_⟩
  have z2 := a2 .z2 (by decide)
  have z3 : b.zone .z3 = h.zone .z3 := by rw [b2 .z3 (by decide), a2 .z3 (by decide)]
  rw [z2, z3, ec]
  rw [ec] at d1
  refine ⟨?_, ?_, ?_, ?_, ?_, ?_, ?_⟩
  · intro z z1 z2
    have t : (h.zone z).answersTo i = true := by simp [Zone.answersTo, z1, z2]
    have := ez z
    rw [if_pos t] at this
    refine ⟨this, ?_⟩
    have this : zoneStateNotice z ({c.referenceEnters i with outbox := h.outbox}.zone z) = zoneStateNotice z (h.zone z).fadeIn := by
      exact congrArg _ this
    rw [this]
    cases z <;> simp [t]
  · intro z hz
    have t : (h.zone z).answersTo i = false := by simpa [Zone.answersTo] using hz
    have := ez z
    rw [if_neg (by simp [t])] at this
    exact this
  · intro r f
    simp [d1, r, f, Clock.acquire, Clock.enterAcquiring, Config.nominalPeriod]
  · intro r f l
    simp [d1, r, f, Clock.acquire, Clock.enterAcquiring, Nat.not_le.mpr l]
  · intro n
    simp [d1, n]
  · intro n
    have t : h.clock.reference = some i ∧ (h.clock.state = .free ∨ h.clock.state = .holdover) := by
      apply Classical.byContradiction
      intro m
      exact n (by simp [d1, m])
    simp [d1, t]
  · simp [fa, fb, fc]

/-! ### The departure of a source -/

/-- R54 for a source that stays out of RUNNING: the zone's course after its fade has been ended at once. -/
theorem Hub.zoneSourceLeaves_course (src : Vector Source 8) (i : SourceId) (z : ZoneId) (h : Hub)
    (gone : src[i].isRunning = false) :
    let x := h.zone z
    let g := h.zoneSourceLeaves src i z
    let y := g.zone z
    (x.current ≠ some i ∨ x.state = .waiting ∨ x.state = .off → g = h) ∧
    (x.current = some i → (x.state = .playing ∨ x.state = .fadingIn ∨ x.state = .fadingOut .reconfigure) →
      y.state = .waiting ∧ y.current = some i ∧ y.gain = -1 ∧ y.noSignal = 0 ∧ y.noSignalReported = false ∧
        Hub.hasPosted (zoneStateNotice z y) h g) ∧
    (x.current = some i → ∀ k, x.state = .fadingOut k →
      (k = .switch → y.current = some x.selected ∧
        ((src[x.selected].isRunning = false → y.state = .waiting) ∧
          (src[x.selected].isRunning = true → y.state = .fadingIn ∨ y.state = .fadingOut .reconfigure))) ∧
      (k = .powerOff → y.current = none ∧ y.state = .off) ∧
      (x.pending.layout = false →
        y.gain = -1 ∧ y.noSignal = 0 ∧ y.noSignalReported = false ∧ y.pending = ⟨false, false, false⟩ ∧
          (k = .switch → y.state = (if src[x.selected].isRunning then .fadingIn else .waiting)))) ∧
    (∀ w, w ≠ z → (h.zone w).nudged (g.zone w)) ∧
    (x.pending.layout = false → (∀ w, w ≠ z → (h.zone w).onCourse (g.zone w)) ∧ y.pending.layout = false) ∧
    h.keepsPosted g := by
  dsimp only
  unfold Hub.zoneSourceLeaves
  dsimp only
  split
  · rename_i c
    have waits (n : (h.zone z).state = .playing ∨ (h.zone z).state = .fadingIn) :
        let g := (h.enterZone z (h.zone z).wait).postZoneState z
        let y := g.zone z
        ((h.zone z).current ≠ some i ∨ (h.zone z).state = .waiting ∨ (h.zone z).state = .off → g = h) ∧
        ((h.zone z).current = some i → ((h.zone z).state = .playing ∨ (h.zone z).state = .fadingIn ∨ (h.zone z).state = .fadingOut .reconfigure) →
          y.state = .waiting ∧ y.current = some i ∧ y.gain = -1 ∧ y.noSignal = 0 ∧ y.noSignalReported = false ∧
            Hub.hasPosted (zoneStateNotice z y) h g) ∧
        ((h.zone z).current = some i → ∀ k, (h.zone z).state = .fadingOut k →
          (k = .switch → y.current = some (h.zone z).selected ∧
            ((src[(h.zone z).selected].isRunning = false → y.state = .waiting) ∧
              (src[(h.zone z).selected].isRunning = true → y.state = .fadingIn ∨ y.state = .fadingOut .reconfigure))) ∧
          (k = .powerOff → y.current = none ∧ y.state = .off) ∧
          ((h.zone z).pending.layout = false →
            y.gain = -1 ∧ y.noSignal = 0 ∧ y.noSignalReported = false ∧ y.pending = ⟨false, false, false⟩ ∧
              (k = .switch → y.state = (if src[(h.zone z).selected].isRunning then .fadingIn else .waiting)))) ∧
        (∀ w, w ≠ z → (h.zone w).nudged (g.zone w)) ∧
        ((h.zone z).pending.layout = false → (∀ w, w ≠ z → (h.zone w).onCourse (g.zone w)) ∧ y.pending.layout = false) ∧
        h.keepsPosted g := by
      dsimp only
      have e : ((h.enterZone z (h.zone z).wait).postZoneState z).zone z = (h.zone z).wait := Hub.enterZone_zone_same z _ h
      have o : ∀ w, w ≠ z → ((h.enterZone z (h.zone z).wait).postZoneState z).zone w = h.zone w :=
        fun w hw => Hub.enterZone_zone_other hw _ h
      rw [e]
      refine ⟨?_, ?_, ?_, ?_, ?_, ?_⟩
      · intro f
        rcases n with n | n <;> simp [c, n] at f
      · intro _ _
        refine ⟨rfl, c, rfl, rfl, rfl, [_], rfl, ?_⟩
        have : (h.enterZone z (h.zone z).wait).zone z = (h.zone z).wait := Hub.enterZone_zone_same z _ h
        simp [this]
      · intro _ k f
        rcases n with n | n <;> simp [n] at f
      · intro w hw; rw [o w hw]; exact .rfl
      · intro l
        exact ⟨fun w hw => by rw [o w hw]; exact .rfl, l⟩
      · exact ⟨[_], rfl⟩
    split
    · rename_i s
      exact waits (.inl s)
    · rename_i s
      exact waits (.inr s)
    · rename_i k s
      have es : ((h.setZone z { h.zone z with gain := -1 }).zone z).state = .fadingOut k := by simp [s]
      obtain ⟨n, o, l, p⟩ := Hub.endFadeOut_course src z k (h.setZone z { h.zone z with gain := -1 }) es
      obtain ⟨⟨l1, l2, l3, l4, l5, l6⟩, lsw, lre, lpo, -⟩ := Hub.leaveFade_zone src z k (h.setZone z { h.zone z with gain := -1 })
      have other : ∀ w, w ≠ z → (h.setZone z { h.zone z with gain := -1 }).zone w = h.zone w :=
        fun w hw => Hub.zone_setZone_other hw _ h
      simp only [Hub.zone_setZone_same] at l4 l5 l6 lsw lre lpo l
      refine ⟨?_, ?_, ?_, ?_, ?_, ?_⟩
      · intro f; simp [c, s] at f
      · intro _ f
        have k1 : k = .reconfigure := by simpa [s] using f
        obtain ⟨r1, r2⟩ := lre k1
        have r2 : ((h.setZone z { h.zone z with gain := -1 }).leaveFade src z k |>.zone z).state = .waiting := by
          rw [r2]; simp [c, runningRef]; simpa using gone
        obtain ⟨n1, n2, n3, ⟨n4, n5, n6, n7⟩ | ⟨n4, -, -⟩⟩ := n
        · refine ⟨n4.trans r2, (n3.trans r1).trans c, n5.trans l1, n6.trans l2, n7.trans l3, ?_⟩
          obtain ⟨ns, e, m⟩ := p
          exact ⟨ns, e, m⟩
        · simp [r2] at n4
      · intro _ k' f
        have kk : k' = k := by rw [s] at f; cases f; rfl
        subst kk
        refine ⟨?_, ?_, ?_⟩
        · intro sw
          obtain ⟨r1, r2⟩ := lsw sw
          obtain ⟨n1, n2, n3, ⟨n4, n5, n6, n7⟩ | ⟨n4, n5, -⟩⟩ := n
          · refine ⟨n3.trans r1, fun q => ?_, fun q => .inl ?_⟩
            · exact n4.trans (r2.trans (by rw [q]; rfl))
            · exact n4.trans (r2.trans (by rw [q]; rfl))
          · refine ⟨n3.trans r1, fun q => ?_, fun q => .inr n5⟩
            have w := r2.trans (show (if src[(h.zone z).selected].isRunning = true then ZoneState.fadingIn else ZoneState.waiting) = .waiting by rw [q]; rfl)
            rcases n4 with n4 | n4 <;> exact absurd (w.symm.trans n4) (by decide)
        · intro po
          obtain ⟨r1, r2⟩ := lpo po
          obtain ⟨n1, n2, n3, ⟨n4, n5, n6, n7⟩ | ⟨n4, -, -⟩⟩ := n
          · exact ⟨n3.trans r1, n4.trans r2⟩
          · simp [r2] at n4
        · intro lay
          obtain ⟨⟨c1, c2, c3, c4, c5, c6, c7, c8, c9, c10⟩, -⟩ := l lay
          refine ⟨c5.trans l1, c6.trans l2, c7.trans l3, ?_, fun sw => ?_⟩
          · rcases hp : ((Hub.endFadeOut src z (h.setZone z { h.zone z with gain := -1 })).zone z).pending with ⟨a, b, d⟩
            rw [hp] at c8 c9 c10
            simp [Items.none] at c8 c9 c10
            simp [c8, c9, c10]
          · obtain ⟨r1, r2⟩ := lsw sw
            exact c4.trans r2
      · intro w hw
        exact other w hw ▸ o w hw
      · intro lay
        obtain ⟨⟨c1, c2, c3, c4, c5, c6, c7, c8, c9, c10⟩, co⟩ := l lay
        exact ⟨fun w hw => other w hw ▸ co w hw, c8⟩
      · obtain ⟨ns, e, -⟩ := p
        exact ⟨ns, e⟩
    · rename_i s
      refine ⟨fun _ => rfl, fun _ f => by simp [s] at f, fun _ k f => by simp [s] at f, fun _ _ => .rfl,
        fun l => ⟨fun _ _ => .rfl, l⟩, Hub.keepsPosted_of_eq rfl⟩
    · rename_i s
      refine ⟨fun _ => rfl, fun _ f => by simp [s] at f, fun _ k f => by simp [s] at f, fun _ _ => .rfl,
        fun l => ⟨fun _ _ => .rfl, l⟩, Hub.keepsPosted_of_eq rfl⟩
  · rename_i c
    exact ⟨fun _ => rfl, fun f => absurd f c, fun f => absurd f c, fun _ _ => .rfl,
      fun l => ⟨fun _ _ => .rfl, l⟩, Hub.keepsPosted_of_eq rfl⟩

theorem Hub.deriveReference_eq (src : Vector Source 8) (h : Hub) :
    h.deriveReference src =
      if !h.clock.running || decide (h.desiredReference = h.clock.reference) then h.setClock h.clock
      else h.setClock (h.clock.changeReference h.desiredReference (runningRef src h.desiredReference)) := rfl

/-- R30: the clock after the reference has been derived again. -/
theorem Hub.deriveReference_clock (src : Vector Source 8) (h : Hub) :
    (h.deriveReference src).clock =
      (if h.clock.running = true ∧ h.desiredReference ≠ h.clock.reference then
        h.clock.changeReference h.desiredReference (runningRef src h.desiredReference)
      else h.clock) := by
  have s (c : Clock) : (h.setClock c).clock = c := by simp [Hub.setClock, postIf, post]; split <;> rfl
  rw [Hub.deriveReference_eq]
  cases e : h.clock.running <;> by_cases d : h.desiredReference = h.clock.reference <;> simp [s, d]

/-- R54, R30: the end of a fade touches the clock only where it is the main zone's, and then derives the reference from
what the zone has become. -/
theorem Hub.zoneSourceLeaves_clock (src : Vector Source 8) (i : SourceId) (z : ZoneId) (h : Hub) :
    let g := h.zoneSourceLeaves src i z
    (¬ (z = .main ∧ (h.zone z).current = some i ∧ ∃ k, (h.zone z).state = .fadingOut k) → g.clock = h.clock) ∧
    (z = .main → (h.zone z).current = some i → (∃ k, (h.zone z).state = .fadingOut k) →
      ∃ k : Hub, k.zones = g.zones ∧ k.clock = h.clock ∧ g.clock = (k.deriveReference src).clock ∧
        k.keepsPosted (k.deriveReference src) ∧ h.keepsPosted k ∧ g = k.deriveReference src) := by
  dsimp only
  unfold Hub.zoneSourceLeaves
  dsimp only
  split
  · rename_i c
    split
    · rename_i s
      exact ⟨fun _ => rfl, fun _ _ f => by simp [s] at f⟩
    · rename_i s
      exact ⟨fun _ => rfl, fun _ _ f => by simp [s] at f⟩
    · rename_i k s
      generalize e : h.setZone z { h.zone z with gain := -1 } = a
      have ez : (a.zone z).state = .fadingOut k := by rw [← e]; simp [s]
      have ec : a.clock = h.clock := by rw [← e]; rfl
      have eo : a.outbox = h.outbox := by rw [← e]; rfl
      have ef : a.endFadeOut src z = (((a.leaveFade src z k).applyItems z).postZoneState z).followMain src z := by
        simp [Hub.endFadeOut, ez]
      have ck : (((a.leaveFade src z k).applyItems z).postZoneState z).clock = h.clock := by simp [Hub.postZoneState, ec]
      rw [ef]
      constructor
      · intro n
        cases z
        · exact absurd ⟨rfl, c, k, s⟩ n
        · exact ck
        · exact ck
      · intro zm _ _
        subst zm
        refine ⟨((a.leaveFade src .main k).applyItems .main).postZoneState .main, ?_, ck, rfl, Hub.followMain_keepsPosted src .main _, ?_, rfl⟩
        · exact (Hub.followMain_frame src .main _).1.symm
        · exact ((Hub.keepsPosted_of_eq eo).trans ((Hub.leaveFade_keepsPosted src .main k a).trans
            (Hub.applyItems_keepsPosted .main _))).trans (post_keepsPosted _ _)
    · rename_i s
      exact ⟨fun _ => rfl, fun _ _ f => by simp [s] at f⟩
    · rename_i s
      exact ⟨fun _ => rfl, fun _ _ f => by simp [s] at f⟩
  · rename_i c
    exact ⟨fun _ => rfl, fun _ f => absurd f c⟩

/-- R32: everything the departure of source `i` from RUNNING does to the clock by itself. -/
theorem Hub.referenceLeaves_effect (i : SourceId) (h : Hub) :
    (h.referenceLeaves i).clock = (if h.clock.reference = some i then h.clock.heldOver else h.clock) ∧
    h.keepsPosted (h.referenceLeaves i) ∧
    ((h.referenceLeaves i).clock ≠ h.clock → Hub.hasPosted (clockStateNotice (h.referenceLeaves i).clock) h (h.referenceLeaves i)) := by
  have s (c : Clock) : (h.setClock c).clock = c := by simp [Hub.setClock, postIf, post]; split <;> rfl
  unfold Hub.referenceLeaves Clock.heldOver
  split
  · rename_i c
    refine ⟨?_, postIf_keepsPosted _ _ _, fun _ => ?_⟩
    · rw [s, if_pos c.1, if_pos c.2]; rfl
    · rw [s]
      refine ⟨[clockStateNotice h.clock.enterHoldover], ?_, by simp⟩
      rcases c.2 with e | e <;> simp [Hub.setClock, postIf, post, Clock.enterHoldover, e]
  · rename_i c
    refine ⟨?_, Hub.keepsPosted_of_eq rfl, fun f => absurd rfl f⟩
    by_cases r : h.clock.reference = some i
    · rw [if_pos r, if_neg (fun t => c ⟨r, t⟩)]
    · rw [if_neg r]

theorem Hub.deriveReference_hasPosted (src : Vector Source 8) (h : Hub)
    (n : (h.deriveReference src).clock ≠ h.clock) :
    Hub.hasPosted (clockStateNotice (h.deriveReference src).clock) h (h.deriveReference src) := by
  have s (c : Clock) : (h.setClock c).clock = c := by simp [Hub.setClock, postIf, post]; split <;> rfl
  have d : h.clock.running = true ∧ h.desiredReference ≠ h.clock.reference := by
    apply Classical.byContradiction
    intro m
    exact n (by rw [Hub.deriveReference_clock, if_neg m])
  have e : h.deriveReference src = h.setClock (h.clock.changeReference h.desiredReference (runningRef src h.desiredReference)) := by
    rw [Hub.deriveReference_eq]
    simp [d.1, d.2]
  rw [e, s]
  refine ⟨[_], ?_, List.mem_singleton.mpr rfl⟩
  have r : (h.clock.changeReference h.desiredReference (runningRef src h.desiredReference)).reference = h.desiredReference := rfl
  simp [Hub.setClock, postIf, post, r, d.2]

/-- R55, R54, R32: what the departure of a source from RUNNING leads to in the zones and the clock. -/
theorem Hub.departed (src : Vector Source 8) (i : SourceId) (h : Hub) (gone : src[i].isRunning = false) :
    let g := (((h.zoneSourceLeaves src i .main).zoneSourceLeaves src i .z2).zoneSourceLeaves src i .z3).referenceLeaves i
    ∃ ns, g.outbox = h.outbox ++ ns ∧ h.tookDeparture g src i ns := by
  dsimp only
  generalize ga : h.zoneSourceLeaves src i .main = a
  generalize gb : a.zoneSourceLeaves src i .z2 = b
  generalize gc : b.zoneSourceLeaves src i .z3 = c
  obtain ⟨a1, a2, a3, a4, a5, a6⟩ := ga ▸ h.zoneSourceLeaves_course src i .main gone
  obtain ⟨b1, b2, b3, b4, b5, b6⟩ := gb ▸ a.zoneSourceLeaves_course src i .z2 gone
  obtain ⟨c1, c2, c3, c4, c5, c6⟩ := gc ▸ b.zoneSourceLeaves_course src i .z3 gone
  obtain ⟨k1, k2⟩ := ga ▸ h.zoneSourceLeaves_clock src i .main
  obtain ⟨l1, -⟩ := gb ▸ a.zoneSourceLeaves_clock src i .z2
  obtain ⟨m1, -⟩ := gc ▸ b.zoneSourceLeaves_clock src i .z3
  obtain ⟨d1, d2, d3⟩ := c.referenceLeaves_effect i
  have ez : ∀ z, (c.referenceLeaves i).zone z = c.zone z := fun z => Hub.zone_eq_of_zones (c.referenceLeaves_frame i).1 z
  have cb : c.clock = a.clock := (m1 (by simp)).trans (l1 (by simp))
  -- each zone before its turn and after it
  have before : ∀ z, ∃ p q : Hub, q = p.zoneSourceLeaves src i z ∧ (h.zone z).nudged (p.zone z) ∧ (q.zone z).nudged (c.zone z) ∧
      h.keepsPosted p ∧ q.keepsPosted (c.referenceLeaves i) ∧
      ((∀ w, (h.zone w).pending.layout = false) → (h.zone z).onCourse (p.zone z) ∧ (q.zone z).onCourse (c.zone z)) := by
    intro z
    cases z
    · refine ⟨h, a, ga.symm, .rfl, (b4 .main (by decide)).trans (c4 .main (by decide)), Hub.keepsPosted_of_eq rfl,
        (b6.trans c6).trans d2, fun l => ⟨.rfl, ?_⟩⟩
      have h1 := (a5 (l .main)).1 .z2 (by decide)
      have h2 := (a5 (l .main)).1 .z3 (by decide)
      have l2 : (a.zone .z2).pending.layout = false := by rw [h1.2.2.2.2.2.2.2.1]; exact l .z2
      have h3 := (b5 l2).1 .z3 (by decide)
      have l3 : (b.zone .z3).pending.layout = false := by rw [h3.2.2.2.2.2.2.2.1, h2.2.2.2.2.2.2.2.1]; exact l .z3
      exact ((b5 l2).1 .main (by decide)).trans ((c5 l3).1 .main (by decide))
    · refine ⟨a, b, gb.symm, a4 .z2 (by decide), c4 .z2 (by decide), a6, c6.trans d2, fun l => ?_⟩
      have h1 := (a5 (l .main)).1 .z2 (by decide)
      have h2 := (a5 (l .main)).1 .z3 (by decide)
      have l2 : (a.zone .z2).pending.layout = false := by rw [h1.2.2.2.2.2.2.2.1]; exact l .z2
      have h3 := (b5 l2).1 .z3 (by decide)
      have l3 : (b.zone .z3).pending.layout = false := by rw [h3.2.2.2.2.2.2.2.1, h2.2.2.2.2.2.2.2.1]; exact l .z3
      exact ⟨h1, (c5 l3).1 .z2 (by decide)⟩
    · refine ⟨b, c, gc.symm, (a4 .z3 (by decide)).trans (b4 .z3 (by decide)), .rfl, a6.trans b6, d2, fun l => ⟨?_, .rfl⟩⟩
      have h1 := (a5 (l .main)).1 .z2 (by decide)
      have h2 := (a5 (l .main)).1 .z3 (by decide)
      have l2 : (a.zone .z2).pending.layout = false := by rw [h1.2.2.2.2.2.2.2.1]; exact l .z2
      have h3 := (b5 l2).1 .z3 (by decide)
      exact h2.trans h3
  obtain ⟨ns, en⟩ := ((a6.trans b6).trans c6).trans d2
  refine ⟨ns, en, ?_⟩
  have member (n : Notice) (m : Hub.hasPosted n h (c.referenceLeaves i)) : n ∈ ns := by
    obtain ⟨ms, em, mm⟩ := m
    rw [en] at em
    rw [List.append_cancel_left em]
    exact mm
  refine ⟨?_, ?_, ?_, ?_, ?_, ?_, ?_⟩
  · intro z cur
    obtain ⟨p, q, e, n, m, kp, kq, -⟩ := before z
    obtain ⟨t1, t2, -⟩ := e ▸ p.zoneSourceLeaves_course src i z gone
    obtain ⟨n1, n2, n3, n4⟩ := n
    have pc : (p.zone z).current = some i := n3.trans cur
    rw [ez]
    constructor
    · intro pl
      have ps : (p.zone z).state = .playing ∨ (p.zone z).state = .fadingIn ∨ (p.zone z).state = .fadingOut .reconfigure := by
        rcases n4 with ⟨n4, -⟩ | ⟨-, n4, -⟩
        · rw [n4]; rcases pl with pl | pl <;> simp [pl]
        · exact .inr (.inr n4)
      obtain ⟨r1, r2, r3, r4, r5, r6⟩ := t2 pc ps
      obtain ⟨m1, m2, m3, ⟨m4, m5, m6, m7⟩ | ⟨m4, -, -⟩⟩ := m
      · refine ⟨m4.trans r1, m3.trans r2, m5.trans r3, m6.trans r4, m7.trans r5, ?_⟩
        have en : zoneStateNotice z (c.zone z) = zoneStateNotice z (q.zone z) := by
          simp [zoneStateNotice, m1, m2, m3, m4]
        exact en ▸ member _ ((Hub.hasPosted.before kp r6).after kq)
      · simp [r1] at m4
    · intro wt
      have ps : (p.zone z).state = .waiting ∧ (p.zone z).noSignal = (h.zone z).noSignal := by
        rcases n4 with ⟨n4, -, n5, -⟩ | ⟨n4, -, -⟩
        · exact ⟨n4.trans wt, n5⟩
        · simp [wt] at n4
      have qp : q = p := t1 (.inr (.inl ps.1))
      obtain ⟨m1, m2, m3, ⟨m4, m5, m6, m7⟩ | ⟨m4, -, -⟩⟩ := m
      · exact ⟨(m4.trans (by rw [qp])).trans ps.1, (m3.trans (by rw [qp])).trans pc, (m6.trans (by rw [qp])).trans ps.2⟩
      · simp [qp, ps.1] at m4
  · intro l z
    obtain ⟨p, q, e, -, -, -, -, o⟩ := before z
    obtain ⟨⟨o1, o2, o3, o4, o5, o6, o7, o8, -⟩, w1, w2, w3, w4, w5, w6, w7, w8, w9, w10⟩ := o l
    obtain ⟨t1, t2, t3, -⟩ := e ▸ p.zoneSourceLeaves_course src i z gone
    dsimp only
    rw [ez]
    constructor
    · intro cur k st
      have pc : (p.zone z).current = some i := o3.trans cur
      have ps : (p.zone z).state = .fadingOut k := o4.trans st
      obtain ⟨s1, s2, s3⟩ := t3 pc k ps
      obtain ⟨g1, g2, g3, g4, g5⟩ := s3 (o8.trans (l z))
      refine ⟨w5.trans g1, ?_, ?_, ?_, ?_⟩
      · have x : (c.zone z).pending.layout = false ∧ (c.zone z).pending.decode = false ∧ (c.zone z).pending.lipsync = false :=
          ⟨by rw [w8, g4], by rw [w9, g4], w10 (by rw [g4])⟩
        rcases hp : (c.zone z).pending with ⟨u, v, w⟩
        simp [hp] at x
        simp [x]
      · intro sw
        have g5 := g5 sw
        have s1 := (s1 sw).1
        rw [o2] at s1
        simp only [o2] at g5
        refine ⟨w3.trans s1, w4.trans (g5.trans ?_)⟩
        simp [Source.isRunning]
      · intro re
        obtain ⟨r1, r2, -⟩ := t2 pc (.inr (.inr (by rw [ps, re])))
        exact ⟨w3.trans r2, w4.trans r1⟩
      · intro po
        obtain ⟨r1, r2⟩ := s2 po
        exact ⟨w3.trans r1, w4.trans r2⟩
    · intro ncur
      have qp : q = p := t1 (.inl (by rw [o3]; exact ncur))
      exact ⟨(w4.trans (by rw [qp])).trans o4, (w3.trans (by rw [qp])).trans o3, (w5.trans (by rw [qp])).trans o5,
        (w6.trans (by rw [qp])).trans o6⟩
  · intro nf
    rw [d1, cb, k1 (fun t => nf ⟨t.2.1, t.2.2⟩)]
  · rintro cur st ⟨f1, f2, f3⟩
    obtain ⟨k, kz, kc, ke, -⟩ := k2 rfl cur ⟨_, st⟩
    obtain ⟨r1, r2, -⟩ := a2 cur (.inr (.inr st))
    have dr : k.desiredReference = some i := by
      have r1 : k.zones.main.state = .waiting := by rw [kz]; exact r1
      have r2 : k.zones.main.current = some i := by rw [kz]; exact r2
      simp [Hub.desiredReference, kc, f2, r1, r2]
    have ca : a.clock = h.clock := by rw [ke, Hub.deriveReference_clock, kc, if_neg (by simp [dr, f3])]
    rw [d1, cb, ca, if_pos f3]
  · rintro cur st ⟨f1, f2, f3⟩
    obtain ⟨k, kz, kc, ke, -⟩ := k2 rfl cur ⟨_, st⟩
    obtain ⟨r1, r2, r3⟩ := (a3 cur _ st).1 rfl
    have dr : k.desiredReference = some h.zones.main.selected := by
      have r1 : k.zones.main.current = some h.zones.main.selected := by rw [kz]; exact r1
      have r2 : k.zones.main.state = .waiting ∨ k.zones.main.state = .fadingIn ∨ k.zones.main.state = .fadingOut .reconfigure := by
        rw [kz]
        cases q : src[(h.zone .main).selected].isRunning
        · exact .inl (r2 q)
        · exact .inr (r3 q)
      rcases r2 with r2 | r2 | r2 <;> simp [Hub.desiredReference, kc, f2, r1, r2]
    have ca := ke.trans (Hub.deriveReference_clock src k)
    rw [kc, dr] at ca
    rw [d1, cb]
    constructor
    · intro nr
      have nr : src[h.zones.main.selected].isRunning = false := by simpa [Source.isRunning] using nr
      by_cases same : h.zones.main.selected = i
      · rw [if_neg (by simp [f3, same])] at ca
        rw [ca, if_pos f3, same]
        unfold Clock.heldOver
        rw [← f3]
        split <;> rfl
      · have ne : (some h.zones.main.selected : Option SourceId) ≠ some i := by simpa using same
        rw [if_pos ⟨f1, by rw [f3]; exact ne⟩] at ca
        rw [ca, if_neg (by simpa [Clock.changeReference] using same)]
        simp only [runningRef, nr, Clock.changeReference, Clock.heldOver]
        rcases e : h.clock.state <;> simp [Clock.enterHoldover]
    · intro ru ho
      have nr : src[h.zones.main.selected].isRunning = true := by simpa [Source.isRunning] using ru
      have ne : h.zones.main.selected ≠ i := by
        intro same
        simp only [same, gone] at nr
        exact nomatch nr
      have ne' : (some h.zones.main.selected : Option SourceId) ≠ some i := by simpa using ne
      rw [if_pos ⟨f1, by rw [f3]; exact ne'⟩] at ca
      rw [ca, if_neg (by simpa [Clock.changeReference] using ne)]
      simp only [runningRef, nr, Clock.changeReference]
      rcases e : h.clock.state <;> simp [Clock.acquire, Clock.enterAcquiring, e, Config.nominalPeriod]
      rw [if_neg (by have := ho e; omega)]
      simp
  · intro cur st nr
    obtain ⟨k, kz, kc, ke, -⟩ := k2 rfl cur ⟨_, st⟩
    obtain ⟨r1, r2⟩ := (a3 cur _ st).2.1 rfl
    have dr : k.desiredReference = none := by
      have r2 : k.zones.main.state = .off := by rw [kz]; exact r2
      unfold Hub.desiredReference
      rw [r2]
      cases k.clock.mode <;> rfl
    have ca : a.clock = h.clock := by rw [ke, Hub.deriveReference_clock, kc, if_neg (by simp [dr, nr])]
    rw [d1, cb, ca, if_neg (by simp [nr])]
  · intro ne
    by_cases x : (c.referenceLeaves i).clock = c.clock
    · by_cases t : (h.zone .main).current = some i ∧ ∃ k, (h.zone .main).state = .fadingOut k
      · obtain ⟨k, kz, kc, ke, kp, kh, kg⟩ := k2 rfl t.1 t.2
        have y : (k.deriveReference src).clock ≠ k.clock := by
          rw [← ke, ← cb, ← x, kc]; exact ne
        have z := Hub.deriveReference_hasPosted src k y
        rw [← ke, ← cb, ← x, ← kg] at z
        exact member _ ((Hub.hasPosted.before kh z).after ((b6.trans c6).trans d2))
      · exact absurd (by rw [x, cb, k1 (fun u => t u.2)]) ne
    · exact member _ (Hub.hasPosted.before ((a6.trans b6).trans c6) (d3 x))

/-- R55, R32: what the departure of a source from RUNNING leads to where its channel set stays. -/
theorem Hub.sourceChanged_departed (src : Vector Source 8) (i : SourceId) (h : Hub) (gone : src[i].isRunning = false) :
    ∃ ns, (h.sourceChanged src i true false).outbox = h.outbox ++ ns ∧
      h.tookDeparture (h.sourceChanged src i true false) src i ns := by
  have e : h.sourceChanged src i true false =
      (((h.zoneSourceLeaves src i .main).zoneSourceLeaves src i .z2).zoneSourceLeaves src i .z3).referenceLeaves i := by
    simp only [Hub.sourceChanged, gone]
    simp
  rw [e]
  exact Hub.departed src i h gone

/-- What the clock posts on a departure depends on the clock alone. -/
theorem Hub.referenceLeaves_alike (i : SourceId) {h k : Hub} (e : k.clock = h.clock) :
    ∃ ms, (k.referenceLeaves i).outbox = k.outbox ++ ms ∧ (h.referenceLeaves i).outbox = h.outbox ++ ms := by
  unfold Hub.referenceLeaves
  rw [e]
  split
  · unfold Hub.setClock
    rw [postIf_outbox, postIf_outbox, e]
    exact ⟨_, rfl, rfl⟩
  · exact ⟨[], by simp, by simp⟩

/-- A departure is told by the zones, the clock and the notices alone. -/
theorem Hub.tookDeparture.alike {src : Vector Source 8} {i : SourceId} {h g k : Hub} {ns ms : List Notice}
    (t : h.tookDeparture g src i ns) (z : k.zones = g.zones) (c : k.clock = g.clock) (m : ∀ n ∈ ns, n ∈ ms) :
    h.tookDeparture k src i ms := by
  obtain ⟨t1, t2, t3, t4, t5, t6, t7⟩ := t
  have ez := Hub.zone_eq_of_zones z
  unfold Hub.tookDeparture
  simp only [ez, c]
  refine ⟨fun w cur => ?_, t2, t3, t4, t5, t6, fun n => m _ (t7 n)⟩
  obtain ⟨u, v⟩ := t1 w cur
  refine ⟨fun p => ?_, v⟩
  obtain ⟨u1, u2, u3, u4, u5, u6⟩ := u p
  exact ⟨u1, u2, u3, u4, u5, m _ u6⟩

/-- The decoder's source is the departing source after the zones have reacted only where it was and stays so. -/
theorem Hub.zoneSourceLeaves_decodeSource (src : Vector Source 8) (i : SourceId) (z : ZoneId) (h : Hub) :
    (h.zoneSourceLeaves src i z).decoder.source = some i →
      h.decoder.source = some i ∧
        (z = .main → (h.zone z).current = some i → (h.zone z).state = .fadingOut .switch → (h.zone z).selected = i) := by
  have applied (k : Hub) (w : ZoneId) : (k.applyItems w).decoder.source = k.decoder.source := by
    have ad (m : Hub) : m.adoptDecode.decoder.source = m.decoder.source := by
      unfold Hub.adoptDecode
      dsimp only
      split <;> simp [Decoder.restart]
    unfold Hub.applyItems
    dsimp only
    repeat' split
    all_goals simp [Hub.applyDecode, ad]
  unfold Hub.zoneSourceLeaves
  dsimp only
  split
  · rename_i c
    split
    · rename_i s
      exact fun f => ⟨f, fun _ _ t => by simp [s] at t⟩
    · rename_i s
      exact fun f => ⟨f, fun _ _ t => by simp [s] at t⟩
    · rename_i k s
      generalize e : h.setZone z { h.zone z with gain := -1 } = a
      have ez : (a.zone z).state = .fadingOut k := by rw [← e]; simp [s]
      have ed : a.decoder = h.decoder := by rw [← e]; rfl
      have ec : (a.zone z).current = some i := by rw [← e]; simp [c]
      have ef : a.endFadeOut src z = (((a.leaveFade src z k).applyItems z).postZoneState z).followMain src z := by
        simp [Hub.endFadeOut, ez]
      rw [ef, (Hub.followMain_frame src z _).2.1]
      show ((a.leaveFade src z k).applyItems z).decoder.source = _ → _
      rw [applied]
      unfold Hub.leaveFade
      dsimp only
      cases k
      · dsimp only
        split
        · rename_i same
          intro f
          refine ⟨?_, fun _ _ _ => ?_⟩
          · rw [← ed, ← f]; exact (congrArg Decoder.source (Hub.clearLines_frame z a).2.1).symm
          · have es : (a.zone z).selected = (h.zone z).selected := by rw [← e]; simp
            rw [ec, es] at same
            exact (Option.some.inj same).symm
        · rename_i n
          intro f
          have f : (a.makeCurrent src z (a.zone z).selected).decoder.source = some i := f
          unfold Hub.makeCurrent at f
          cases z
          · have hd (m : Hub) (j : SourceId) : (m.handover src j).decoder.source = some j := by
              unfold Hub.handover Hub.adoptDecode
              dsimp only
              split <;> simp [Decoder.restart, Decoder.derive]
            have f := (hd _ _).symm.trans f
            exact absurd (by rw [ec, ← f]) n
          · simp only [Hub.clearLines_frame] at f
            exact ⟨by rw [← ed]; exact f, nofun⟩
          · simp only [Hub.clearLines_frame] at f
            exact ⟨by rw [← ed]; exact f, nofun⟩
      · dsimp only
        unfold Hub.zoneOff
        cases z
        · intro f; exact nomatch f
        · intro f
          simp only [Hub.clearLines_frame] at f
          exact ⟨by rw [← ed]; exact f, nofun⟩
        · intro f
          simp only [Hub.clearLines_frame] at f
          exact ⟨by rw [← ed]; exact f, nofun⟩
      · intro f
        refine ⟨?_, fun _ _ t => by simp [s] at t⟩
        rw [← ed, ← f]; exact (congrArg Decoder.source (Hub.clearLines_frame z a).2.1).symm
    · rename_i s
      exact fun f => ⟨f, fun _ _ t => by simp [s] at t⟩
    · rename_i s
      exact fun f => ⟨f, fun _ _ t => by simp [s] at t⟩
  · rename_i n
    exact fun f => ⟨f, fun _ t => absurd t n⟩

/-- R55, R32: the same where its channel set changes, unless a main zone with another source hears of it (R72). -/
theorem Hub.sourceChanged_departed_channels (src : Vector Source 8) (i : SourceId) (h : Hub)
    (gone : src[i].isRunning = false) (own : h.decoder.source ≠ some i ∨ h.zones.main.current = some i) :
    ∃ ns, (h.sourceChanged src i true true).outbox = h.outbox ++ ns ∧
      h.tookDeparture (h.sourceChanged src i true true) src i ns := by
  generalize ga : h.zoneSourceLeaves src i .main = a
  generalize gb : a.zoneSourceLeaves src i .z2 = b
  generalize gc : b.zoneSourceLeaves src i .z3 = c
  have e : h.sourceChanged src i true true = (if c.decoder.source = some i then c.rederive id src else c).referenceLeaves i := by
    simp only [Hub.sourceChanged, gone, ga, gb, gc]
    simp
  have dep : ∃ ns, (c.referenceLeaves i).outbox = h.outbox ++ ns ∧ h.tookDeparture (c.referenceLeaves i) src i ns := by
    have := Hub.departed src i h gone
    rw [ga, gb, gc] at this
    exact this
  rw [e]
  split
  · rename_i ds
    have db := (Hub.zoneSourceLeaves_decodeSource src i .z3 b (gc ▸ ds)).1
    have da := (Hub.zoneSourceLeaves_decodeSource src i .z2 a (gb ▸ db)).1
    obtain ⟨dh, sel⟩ := Hub.zoneSourceLeaves_decodeSource src i .main h (ga ▸ da)
    have cur : h.zones.main.current = some i := own.resolve_left (fun n => n dh)
    -- the main zone is then silent
    have quiet : c.zones.main.state = .off ∨ c.zones.main.state = .waiting := by
      obtain ⟨a1, a2, a3, -⟩ := ga ▸ h.zoneSourceLeaves_course src i .main gone
      obtain ⟨-, -, -, b4, -⟩ := gb ▸ a.zoneSourceLeaves_course src i .z2 gone
      obtain ⟨-, -, -, c4, -⟩ := gc ▸ b.zoneSourceLeaves_course src i .z3 gone
      have n : (a.zone .main).nudged (c.zone .main) := (b4 .main (by decide)).trans (c4 .main (by decide))
      have q : (a.zone .main).state = .off ∨ (a.zone .main).state = .waiting := by
        rcases st : (h.zone .main).state with _ | k | _ | _ | _
        · rw [a1 (.inr (.inr st))]; exact .inl st
        · cases k
          · have same := sel rfl cur st
            exact .inr (((a3 cur _ st).1 rfl).2.1 (by simp only [same]; exact gone))
          · exact .inl ((a3 cur _ st).2.1 rfl).2
          · exact .inr (a2 cur (.inr (.inr st))).1
        · rw [a1 (.inr (.inl st))]; exact .inr st
        · exact .inr (a2 cur (.inr (.inl st))).1
        · exact .inr (a2 cur (.inl st)).1
      obtain ⟨-, -, -, ⟨n4, -⟩ | ⟨n4, -⟩⟩ := n
      · rcases q with q | q
        · exact .inl (n4.trans q)
        · exact .inr (n4.trans q)
      · rcases q with q | q <;> simp [q] at n4
    obtain ⟨ns, en, t⟩ := dep
    have rz : (c.rederive id src).zones = c.zones ∧ (c.rederive id src).clock = c.clock ∧ c.keepsPosted (c.rederive id src) := by
      refine ⟨?_, (Hub.rederiveSilently_frame src c).1, ?_⟩
      · unfold Hub.rederive Hub.raiseItem
        dsimp only
        split
        · rfl
        · split
          · have z (d : Decoder) : Hub.zone { c with decoder := d } .main = c.zones.main := rfl
            simp only [id, z]
            split
            · simp
            · simp
            · rename_i o w
              rcases quiet with q | q
              · exact absurd q o
              · exact absurd q w
          · rfl
      · unfold Hub.rederive Hub.raiseItem
        dsimp only
        split
        · exact Hub.keepsPosted_of_eq rfl
        · split
          · simp only [id]
            split
            · exact Hub.keepsPosted.trans (Hub.keepsPosted_of_eq rfl) (Hub.applyDecode_keepsPosted _)
            · exact Hub.keepsPosted.trans (Hub.keepsPosted_of_eq rfl) (Hub.applyDecode_keepsPosted _)
            · exact Hub.keepsPosted.trans (Hub.keepsPosted_of_eq rfl) (Hub.holdItem_keepsPosted _ _ _)
          · exact Hub.keepsPosted_of_eq rfl
    obtain ⟨ms, e1, e2⟩ := Hub.referenceLeaves_alike i rz.2.1
    obtain ⟨rs, er⟩ := rz.2.2
    obtain ⟨hs, eh⟩ : h.keepsPosted c := by
      obtain ⟨-, -, -, -, -, a6⟩ := ga ▸ h.zoneSourceLeaves_course src i .main gone
      obtain ⟨-, -, -, -, -, b6⟩ := gb ▸ a.zoneSourceLeaves_course src i .z2 gone
      obtain ⟨-, -, -, -, -, c6⟩ := gc ▸ b.zoneSourceLeaves_course src i .z3 gone
      exact (a6.trans b6).trans c6
    refine ⟨hs ++ rs ++ ms, by rw [e1, er, eh]; simp, ?_⟩
    have ens : ns = hs ++ ms := by
      rw [e2, eh, List.append_assoc] at en
      exact (List.append_cancel_left en).symm
    refine t.alike ?_ ?_ ?_
    · rw [(Hub.referenceLeaves_frame i _).1, (Hub.referenceLeaves_frame i _).1, rz.1]
    · rw [(Hub.referenceLeaves_effect i _).1, (Hub.referenceLeaves_effect i c).1, rz.2.1]
    · intro n m
      rw [ens] at m
      simp only [List.mem_append] at m ⊢
      rcases m with m | m
      · exact .inl (.inl m)
      · exact .inr m
  · exact dep

/-- The end of a fade of Zone 2 or 3 that holds no item of the decoder's or the renderer's leaves both alone. -/
theorem Hub.zoneSourceLeaves_audio (src : Vector Source 8) (i : SourceId) (z : ZoneId) (h : Hub)
    (n : ¬ ((h.zone z).current = some i ∧ ∃ k, (h.zone z).state = .fadingOut k) ∨
      (z ≠ .main ∧ (h.zone z).pending.decode = false ∧ (h.zone z).pending.layout = false)) :
    (h.zoneSourceLeaves src i z).decoder = h.decoder ∧ (h.zoneSourceLeaves src i z).renderer = h.renderer := by
  unfold Hub.zoneSourceLeaves
  dsimp only
  split
  · rename_i c
    split
    · exact ⟨rfl, rfl⟩
    · exact ⟨rfl, rfl⟩
    · rename_i k s
      obtain ⟨zm, pd, pl⟩ := n.resolve_left (fun f => f ⟨c, k, s⟩)
      generalize e : h.setZone z { h.zone z with gain := -1 } = a
      have ez : (a.zone z).state = .fadingOut k := by rw [← e]; simp [s]
      have ep : (a.zone z).pending = (h.zone z).pending := by rw [← e]; simp
      have ed : a.decoder = h.decoder := by rw [← e]; rfl
      have er : a.renderer = h.renderer := by rw [← e]; rfl
      have ef : a.endFadeOut src z = (((a.leaveFade src z k).applyItems z).postZoneState z).followMain src z := by
        simp [Hub.endFadeOut, ez]
      have lf : (a.leaveFade src z k).decoder = a.decoder ∧ (a.leaveFade src z k).renderer = a.renderer := by
        have cr : (a.clearLines z).renderer = a.renderer := by
          unfold Hub.clearLines; cases z <;> first | exact absurd rfl zm | rfl
        unfold Hub.leaveFade
        dsimp only
        cases k
        · dsimp only
          split
          · exact ⟨(Hub.clearLines_frame z a).2.1, cr⟩
          · unfold Hub.makeCurrent Hub.clearLines
            cases z <;> first | exact absurd rfl zm | exact ⟨rfl, rfl⟩
        · dsimp only
          unfold Hub.zoneOff Hub.clearLines
          cases z <;> first | exact absurd rfl zm | exact ⟨rfl, rfl⟩
        · exact ⟨(Hub.clearLines_frame z a).2.1, cr⟩
      have lp := (Hub.leaveFade_zone src z k a).1.2.2.2.1
      have ai : ((a.leaveFade src z k).applyItems z).decoder = a.decoder ∧ ((a.leaveFade src z k).applyItems z).renderer = a.renderer := by
        unfold Hub.applyItems
        dsimp only
        rw [if_neg (by simp [lp, ep, pl]), if_neg (by simp [lp, ep, pd])]
        split
        · simp [lf]
        · exact lf
      rw [ef]
      simp [Hub.postZoneState, ai, ed, er]
    · exact ⟨rfl, rfl⟩
    · exact ⟨rfl, rfl⟩
  · exact ⟨rfl, rfl⟩

/-- R70, R87: a departure that ends no fade of the main zone, and none that holds an item of theirs, leaves the decoder and
the renderer alone. -/
theorem Hub.sourceChanged_keepsAudio (src : Vector Source 8) (i : SourceId) (h : Hub) (gone : src[i].isRunning = false) :
    h.keepsAudio (h.sourceChanged src i true false) i := by
  intro nf np
  have e : h.sourceChanged src i true false =
      (((h.zoneSourceLeaves src i .main).zoneSourceLeaves src i .z2).zoneSourceLeaves src i .z3).referenceLeaves i := by
    simp only [Hub.sourceChanged, gone]
    simp
  rw [e]
  have oa : ∀ w, w ≠ .main → (h.zoneSourceLeaves src i .main).zone w = h.zone w := by
    intro w hw
    unfold Hub.zoneSourceLeaves
    dsimp only
    split
    · rename_i c
      split
      · exact Hub.enterZone_zone_other hw _ h
      · exact Hub.enterZone_zone_other hw _ h
      · rename_i k s
        exact absurd ⟨c, k, s⟩ nf
      · rfl
      · rfl
    · rfl
  have d1 := h.zoneSourceLeaves_audio src i .main (.inl nf)
  generalize h.zoneSourceLeaves src i .main = a at oa d1
  have p2 : (a.zone .z2).pending.decode = false ∧ (a.zone .z2).pending.layout = false := by
    rw [oa .z2 (by decide)]; exact np .z2 (by decide)
  have d2 := a.zoneSourceLeaves_audio src i .z2 (.inr ⟨by decide, p2⟩)
  obtain ⟨-, -, -, -, b5, -⟩ := a.zoneSourceLeaves_course src i .z2 gone
  obtain ⟨-, -, -, -, -, -, -, o8, o9, -⟩ := (b5 p2.2).1 .z3 (by decide)
  rw [oa .z3 (by decide)] at o8 o9
  generalize a.zoneSourceLeaves src i .z2 = b at d2 o8 o9
  have p3 : (b.zone .z3).pending.decode = false ∧ (b.zone .z3).pending.layout = false := by
    rw [o8, o9]; exact np .z3 (by decide)
  have d3 := b.zoneSourceLeaves_audio src i .z3 (.inr ⟨by decide, p3⟩)
  simp [d1, d2, d3]

end Sys2Proof.Machine
end

