-- ==== Sys2Proof/Laws/Stations.lean ====
section
/-! SUPPORT. What the operations over the station list (R142) and over the characters of a station (R158, R159) do, said
once: where an entry is inserted, which entry is the weakest, the name that segments spell and the text they complete. -/

namespace Sys2Proof.Machine

/-! ### The station list (R142) -/

/-- R142: the model's test of list order is list order. -/
theorem Freq.before_iff (a b : Freq) : a.before b = true ↔ a.precedes b := by
  obtain ⟨_ | _, x⟩ := a <;> obtain ⟨_ | _, y⟩ := b <;> simp [Freq.before, Freq.precedes]

/-- R142: an entry is inserted at the place its band and frequency call for. -/
theorem insertStation_placed (e : StationEntry) (list : List StationEntry) : placedIn e list (insertStation e list) := by
  induction list with
  | nil => exact ⟨[], [], rfl, rfl, by simp, by simp⟩
  | cons y ys ih =>
    unfold insertStation
    split
    · rename_i h
      exact ⟨[], y :: ys, rfl, rfl, by simp, by simpa using (Freq.before_iff _ _).mp h⟩
    · rename_i h
      obtain ⟨before, after, e1, e2, e3, e4⟩ := ih
      refine ⟨y :: before, after, by rw [e1]; rfl, by rw [e2]; rfl, ?_, e4⟩
      simp only [List.mem_cons, forall_eq_or_imp]
      exact ⟨fun p => h ((Freq.before_iff _ _).mpr p), e3⟩

/-- R142: an insertion keeps strict list order where no entry has the new one's band and frequency. -/
theorem placedIn.sorted {e : StationEntry} {list new : List StationEntry} (p : placedIn e list new)
    (sorted : list.Pairwise fun a c => a.freq.precedes c.freq) (fresh : ∀ a ∈ list, a.freq ≠ e.freq) :
    new.Pairwise fun a c => a.freq.precedes c.freq := by
  obtain ⟨before, after, rfl, rfl, low, high⟩ := p
  have total (a : Freq) (h : a ≠ e.freq) : ¬ e.freq.precedes a → a.precedes e.freq := by
    obtain ⟨_ | _, x⟩ := a <;> obtain ⟨⟨_ | _, y⟩, _, _, _⟩ := e <;> simp [Freq.precedes] at h ⊢ <;> omega
  have trans {a b c : Freq} (h : a.precedes b) (g : b.precedes c) : a.precedes c := by
    obtain ⟨_ | _, x⟩ := a <;> obtain ⟨_ | _, y⟩ := b <;> obtain ⟨_ | _, z⟩ := c <;> simp [Freq.precedes] at h g ⊢ <;>
      omega
  rw [List.pairwise_append] at sorted ⊢
  obtain ⟨s1, s2, s3⟩ := sorted
  have above : ∀ a ∈ after, e.freq.precedes a.freq := by
    cases after with
    | nil => simp
    | cons b bs =>
      have hb := high b (by simp)
      simp only [List.mem_cons, forall_eq_or_imp]
      exact ⟨hb, fun a ha => trans hb ((List.pairwise_cons.mp s2).1 a ha)⟩
  refine ⟨s1, List.pairwise_cons.mpr ⟨above, s2⟩, fun a ha c hc => ?_⟩
  have up := total a.freq (fresh a (by simp [ha])) (low a ha)
  rcases List.mem_cons.mp hc with rfl | hc
  · exact up
  · exact s3 a ha c hc

/-- R142: no entry has a level below the lowest. -/
theorem lowestLevel_le (list : List StationEntry) : ∀ a ∈ list, lowestLevel list ≤ a.level := by
  induction list with
  | nil => simp
  | cons y ys ih =>
    cases ys with
    | nil => simp [lowestLevel]
    | cons z zs =>
      intro a ha
      rcases List.mem_cons.mp ha with rfl | ha
      · exact Nat.min_le_left _ _
      · exact Nat.le_trans (Nat.min_le_right _ _) (ih a ha)

/-- R142: an entry of a list that holds one has the lowest level. -/
theorem lowestLevel_mem {list : List StationEntry} (h : list ≠ []) : ∃ a ∈ list, a.level = lowestLevel list := by
  induction list with
  | nil => exact absurd rfl h
  | cons y ys ih =>
    cases ys with
    | nil => exact ⟨y, by simp, rfl⟩
    | cons z zs =>
      obtain ⟨a, ha, e⟩ := ih (by simp)
      rcases Nat.le_total y.level (lowestLevel (z :: zs)) with l | l
      · exact ⟨y, by simp, (Nat.min_eq_left l).symm⟩
      · exact ⟨a, List.mem_cons_of_mem _ ha, e.trans (Nat.min_eq_right l).symm⟩

/-- R142: the entry that leaves a full list is its weakest, and the others keep their order. -/
theorem dropWeakest_weakest {list : List StationEntry} (h : list ≠ []) :
    ∃ a, a.level = lowestLevel list ∧ weakestOf list a (dropWeakest list) := by
  obtain ⟨b, hb, eb⟩ := lowestLevel_mem h
  unfold dropWeakest
  cases e : list.findIdx? fun e => decide (e.level = lowestLevel list) with
  | none =>
    rw [List.findIdx?_eq_none_iff] at e
    exact absurd eb (by simpa using e b hb)
  | some i =>
    rw [List.findIdx?_eq_some_iff_getElem] at e
    obtain ⟨hi, hp, hn⟩ := e
    refine ⟨list[i], by simpa using hp, list.take i, list.drop (i + 1), ?_, ?_, fun c hc => ?_, fun c hc => ?_⟩
    · rw [List.getElem_cons_drop, List.take_append_drop]
    · exact List.eraseIdx_eq_take_drop_succ list i
    · obtain ⟨j, hj, rfl⟩ := List.mem_take_iff_getElem.mp hc
      have hj' : j < i := by omega
      have ne := hn j hj'
      have le := lowestLevel_le list list[j] (by simp)
      have eq : list[i].level = lowestLevel list := by simpa using hp
      simp only [decide_eq_true_eq] at ne
      omega
    · have le := lowestLevel_le list c (List.mem_of_mem_drop hc)
      have eq : list[i].level = lowestLevel list := by simpa using hp
      omega

/-- R142: everything that the offer of an entry does to the station list. -/
theorem offerStation_effect (e : StationEntry) (list : List StationEntry) :
    (list.length < 48 → placedIn e list (offerStation e list)) ∧
    (48 ≤ list.length → (∀ a ∈ list, e.level ≤ a.level) → offerStation e list = list) ∧
    (48 ≤ list.length → (∃ a ∈ list, a.level < e.level) →
      ∃ a rest, weakestOf list a rest ∧ placedIn e rest (offerStation e list)) := by
  unfold offerStation
  rw [show Config.stationEntries = 48 from rfl]
  refine ⟨fun h => ?_, fun h low => ?_, fun h ⟨b, hb, low⟩ => ?_⟩
  · rw [if_pos h]
    exact insertStation_placed e list
  · rw [if_neg (Nat.not_lt.mpr h), if_neg]
    obtain ⟨a, ha, ea⟩ := lowestLevel_mem (List.ne_nil_of_length_pos (Nat.lt_of_lt_of_le (by decide) h))
    exact Nat.not_lt.mpr (ea ▸ low a ha)
  · obtain ⟨a, -, w⟩ := dropWeakest_weakest (List.ne_nil_of_mem hb)
    rw [if_neg (Nat.not_lt.mpr h), if_pos (Nat.lt_of_le_of_lt (lowestLevel_le list b hb) low)]
    exact ⟨a, _, w, insertStation_placed e _⟩

/-- R142: the offer of an entry keeps strict list order where no entry has its band and frequency. -/
theorem offerStation_sorted {e : StationEntry} {list : List StationEntry}
    (sorted : list.Pairwise fun a c => a.freq.precedes c.freq) (fresh : ∀ a ∈ list, a.freq ≠ e.freq) :
    (offerStation e list).Pairwise fun a c => a.freq.precedes c.freq := by
  unfold offerStation
  split
  · exact (insertStation_placed e list).sorted sorted fresh
  · split
    · have sub : (dropWeakest list).Sublist list := by
        unfold dropWeakest
        split
        · exact List.Sublist.refl _
        · exact List.eraseIdx_sublist _ _
      exact (insertStation_placed e _).sorted (sorted.sublist sub) fun a ha => fresh a (sub.subset ha)
    · exact sorted

/-! ### The characters of a segment (8.1) -/

/-- 8.1: the two characters of a segment by their numbers, the high byte first. -/
theorem characters_eq (v : BitVec 16) :
    characters v = [BitVec.ofNat 8 (v.toNat / 256), BitVec.ofNat 8 (v.toNat % 256)] := by
  have high : (v >>> 8).setWidth 8 = BitVec.ofNat 8 (v.toNat / 256) := by
    apply BitVec.eq_of_toNat_eq
    simp [Nat.shiftRight_eq_div_pow]
  have low : v.setWidth 8 = BitVec.ofNat 8 (v.toNat % 256) := by
    apply BitVec.eq_of_toNat_eq
    simp
  rw [characters, high, low]

/-! ### The name (R158) -/

/-- R158: six confirmed segments spell their twelve characters. -/
theorem spells_of_confirmed (segments : Vector NameSegment 6) (value : Fin 6 → BitVec 16)
    (h : ∀ i : Fin 6, segments[i].confirmed = some (value i)) (name : List Byte) :
    spells segments name ↔ name = (List.finRange 6).flatMap fun i => characters (value i) := by
  simp only [characters_eq]
  constructor
  · rintro ⟨len, each⟩
    have at_ (i : Fin 6) : name[2 * i.val]? = some (BitVec.ofNat 8 ((value i).toNat / 256)) ∧
        name[2 * i.val + 1]? = some (BitVec.ofNat 8 ((value i).toNat % 256)) := by
      obtain ⟨v, e, x⟩ := each i
      obtain rfl : value i = v := Option.some.inj ((h i).symm.trans e)
      exact x
    apply List.ext_getElem?
    intro k
    rcases Nat.lt_or_ge k 12 with l | l
    · have a := at_ ⟨k / 2, by omega⟩
      interval_cases k <;> simp [List.finRange] at a ⊢ <;> first | exact a.1 | exact a.2
    · rw [List.getElem?_eq_none (by omega), List.getElem?_eq_none (by simp; omega)]
  · rintro rfl
    refine ⟨rfl, fun i => ⟨value i, h i, ?_⟩⟩
    fin_cases i <;> exact ⟨rfl, rfl⟩

/-- R158: the name that the decoder forms is the one that the segments spell. -/
theorem spelledName_eq_some_iff (segments : Vector NameSegment 6) (name : List Byte) :
    spelledName segments = some name ↔ spells segments name := by
  have list : segments.toList = (List.finRange 6).map fun i => segments[i] := by
    apply List.ext_getElem <;> simp
  unfold spelledName
  by_cases h : ∀ i : Fin 6, segments[i].confirmed.isSome = true
  · have c (i : Fin 6) : segments[i].confirmed = some (segments[i].confirmed.getD 0) := by
      obtain ⟨v, e⟩ := Option.isSome_iff_exists.mp (h i)
      rw [e]
      rfl
    rw [spells_of_confirmed segments _ c, if_pos (by simpa [list] using h), Option.some.injEq, list, List.flatMap_map]
    exact eq_comm
  · rw [if_neg (by simpa [list] using h)]
    refine ⟨fun e => (Option.some_ne_none _ e.symm).elim, fun s => absurd (fun i => ?_) h⟩
    obtain ⟨v, e, -⟩ := s.2 i
    exact Option.isSome_iff_exists.mpr ⟨v, e⟩

/-! ### The text (R159) -/

/-- R159: the test of the text takes the first segment: it is not complete where that segment has not been received; an end
character in it ends the text; and otherwise its two characters stand before the rest. -/
theorem completeText_cons (x : Option (BitVec 16)) (list : List (Option (BitVec 16))) :
    completeText (x :: list) =
      x.bind fun v =>
        if BitVec.ofNat 8 (v.toNat / 256) = 0x0D then some []
        else if BitVec.ofNat 8 (v.toNat % 256) = 0x0D then some [BitVec.ofNat 8 (v.toNat / 256)]
        else (completeText list).map fun t => BitVec.ofNat 8 (v.toNat / 256) :: BitVec.ofNat 8 (v.toNat % 256) :: t := by
  unfold completeText
  cases x with
  | none => cases e : list.findIdx? holdsEnd <;> simp [List.findIdx?_cons, holdsEnd, e]
  | some v =>
    have chars := characters_eq v
    simp only [Option.bind_some]
    generalize BitVec.ofNat 8 (v.toNat / 256) = high at *
    generalize BitVec.ofNat 8 (v.toNat % 256) = low at *
    have ends : holdsEnd (some v) = (decide (high = 13#8) || decide (low = 13#8)) := by
      simp [holdsEnd, chars, eq_comm]
    by_cases a : high = 13#8
    · simp [List.findIdx?_cons, ends, chars, a]
    · by_cases b : low = 13#8
      · simp [List.findIdx?_cons, ends, chars, a, b]
      · cases e : list.findIdx? holdsEnd with
        | none =>
          simp [List.findIdx?_cons, ends, chars, a, b, e]
        | some j =>
          simp [List.findIdx?_cons, ends, chars, a, b, e]

/-- Character `k` of a list of segments. -/
def characterAt (list : List (Option (BitVec 16))) (k : Nat) : Option Byte :=
  (list.getD (k / 2) none).map fun v => BitVec.ofNat 8 (if k % 2 = 0 then v.toNat / 256 else v.toNat % 256)

/-- 8.1: the first segment holds the characters 0 and 1, and the others those from 2 on. -/
theorem characterAt_cons (x : Option (BitVec 16)) (list : List (Option (BitVec 16))) :
    characterAt (x :: list) 0 = x.map (fun v => BitVec.ofNat 8 (v.toNat / 256)) ∧
      characterAt (x :: list) 1 = x.map (fun v => BitVec.ofNat 8 (v.toNat % 256)) ∧
      ∀ k, characterAt (x :: list) (k + 2) = characterAt list k := by
  refine ⟨by simp [characterAt], by simp [characterAt], fun k => ?_⟩
  have h : (k + 2) / 2 = k / 2 + 1 ∧ (k + 2) % 2 = k % 2 := by omega
  simp [characterAt, h]

/-- R159: what the test of the text finds, character by character. -/
theorem completeText_eq_some (list : List (Option (BitVec 16))) (text : List Byte) :
    completeText list = some text ↔
      (∀ k c, text[k]? = some c → characterAt list k = some c ∧ c ≠ 0x0D) ∧
        (text.length = 2 * list.length ∨ characterAt list text.length = some 0x0D) := by
  induction list generalizing text with
  | nil =>
    cases text with
    | nil => simp [completeText]
    | cons c t =>
      simp [completeText, characterAt]
  | cons x list ih =>
    obtain ⟨first, second, rest⟩ := characterAt_cons x list
    rw [completeText_cons]
    cases x with
    | none =>
      refine ⟨fun h => by simp at h, fun ⟨each, last⟩ => ?_⟩
      cases text with
      | nil => simp [first] at last
      | cons c t => simpa [first] using each 0 c rfl
    | some v =>
      simp only [Option.map_some, Option.bind_some] at first second ⊢
      generalize BitVec.ofNat 8 (v.toNat / 256) = high at *
      generalize BitVec.ofNat 8 (v.toNat % 256) = low at *
      by_cases a : high = 0x0D
      · rw [if_pos a, Option.some.injEq]
        refine ⟨?_, fun ⟨each, _⟩ => ?_⟩
        · rintro rfl
          exact ⟨by simp, .inr (first.trans (congrArg some a))⟩
        · cases text with
          | nil => rfl
          | cons c t =>
            obtain ⟨e, n⟩ := each 0 c rfl
            exact absurd (Option.some.inj (e.symm.trans first)) (fun h => n (h.trans a))
      · rw [if_neg a]
        match text with
        | [] =>
          have n : ¬ characterAt (some v :: list) 0 = some 13#8 := fun h => a (Option.some.inj (first.symm.trans h))
          split <;> simp [n]
        | [c] =>
          by_cases b : low = 0x0D
          · rw [if_pos b]
            refine ⟨fun h => ?_, fun ⟨each, _⟩ => ?_⟩
            · obtain rfl : high = c := by simpa using h
              refine ⟨fun k d hk => ?_, .inr (second.trans (congrArg some b))⟩
              match k, hk with
              | 0, hk =>
                obtain rfl : high = d := by simpa using hk
                exact ⟨first, a⟩
            · exact congrArg (fun x => some [x]) (Option.some.inj (first.symm.trans (each 0 c rfl).1))
          · have n : ¬ characterAt (some v :: list) 1 = some 13#8 := fun h => b (Option.some.inj (second.symm.trans h))
            rw [if_neg b]
            have odd : ¬ [c].length = 2 * (some v :: list).length := by
              simp only [List.length_cons, List.length_nil]
              omega
            refine ⟨fun h => by simp at h, fun ⟨_, last⟩ => last.elim (fun h => absurd h odd) fun h => absurd h n⟩
        | c :: d :: t =>
          by_cases b : low = 0x0D
          · rw [if_pos b]
            refine ⟨fun h => by simp at h, fun ⟨each, _⟩ => ?_⟩
            obtain ⟨e, n⟩ := each 1 d rfl
            exact absurd ((Option.some.inj (e.symm.trans second)).trans b) n
          · rw [if_neg b, Option.map_eq_some_iff]
            have shift : (c :: d :: t).length = 2 * (some v :: list).length ↔ t.length = 2 * list.length := by
              simp only [List.length_cons]
              omega
            have last : characterAt (some v :: list) (c :: d :: t).length = characterAt list t.length := rest _
            rw [shift, last]
            constructor
            · rintro ⟨u, h, e⟩
              obtain ⟨rfl, rfl, rfl⟩ : high = c ∧ low = d ∧ u = t := by simpa using e
              obtain ⟨each, done⟩ := (ih u).mp h
              refine ⟨fun k x hk => ?_, done⟩
              match k, hk with
              | 0, hk =>
                obtain rfl : high = x := by simpa using hk
                exact ⟨first, a⟩
              | 1, hk =>
                obtain rfl : low = x := by simpa using hk
                exact ⟨second, b⟩
              | k + 2, hk => exact (rest k).symm ▸ each k x hk
            · rintro ⟨each, done⟩
              refine ⟨t, (ih t).mpr ⟨fun k x hk => ?_, done⟩, ?_⟩
              · exact rest k ▸ each (k + 2) x hk
              · rw [Option.some.inj (first.symm.trans (each 0 c rfl).1), Option.some.inj (second.symm.trans (each 1 d rfl).1)]

/-- R159: the text that the decoder finds complete is the one that the segments complete. -/
theorem completeText_eq_some_iff (segments : Vector (Option (BitVec 16)) 24) (text : List Byte) :
    completeText segments.toList = some text ↔ completes segments text := by
  rw [completeText_eq_some, Vector.length_toList]
  rfl

end Sys2Proof.Machine
end

