-- ==== Sys2Proof/Tests/Slice0.lean ====
section
/-! SUPPORT. Tests: what the well-formedness check refuses, frames of the request catalogue written out word by word,
figures worked in the spec, and for each statement with hypotheses a concrete state and operands that meet them, clause
by clause. -/

-- One test after another: a test that the kernel evaluates holds its thread until those before it are checked.
set_option Elab.async false

namespace Sys2Proof.Tests

open Sys2Proof.Machine

/-! ### Well-formedness -/

theorem test_fetch_frame_needs_word0 :
    (Instr.fetchFrame .a 0 0).wellFormed = false ∧ (Instr.fetchFrame .a 0 1).wellFormed = true := by decide

/-- A frame that passes R170 is no bad request, and kind 0 is a fetch frame. -/
theorem test_bad_request_fails_a_check :
    (Instr.badRequest .a 0x22 2 [1, 150]).wellFormed = false ∧ (Instr.badRequest .a 0 0 []).wellFormed = false ∧
      (Instr.badRequest .a 0x22 2 [1]).wellFormed = true := by decide

theorem test_zone_power_on_is_not_off :
    (Instr.zonePowerOn .a 0 0).wellFormed = false ∧ (Instr.zonePowerOn .a 0 1).wellFormed = true := by decide

theorem test_explicit_preset_is_not_mode1 :
    (Instr.storePresetExplicit .a 0 1 0 0 0).wellFormed = false ∧
      (Instr.storePresetExplicit .a 0 0 0 0 0).wellFormed = true := by decide

theorem test_packet_has_one_to_five_words :
    (Instr.packetArrival 0 []).wellFormed = false ∧ (Instr.packetArrival 0 [0, 0, 0, 0, 0, 0]).wellFormed = false ∧
      (Instr.packetArrival 0 [0, 0, 0, 0, 0]).wellFormed = true := by decide

theorem test_data_reply_has_six_words :
    (Instr.getDataReply [0, 0, 0, 0, 0, 0, 0]).wellFormed = false ∧
      (Instr.getDataReply [0, 0, 0, 0, 0, 0]).wellFormed = true := by decide

/-! ### Frames (9.5, 9.6, 12.2) -/

/-- The five select periods of 9.6. -/
theorem test_frames_of_the_worked_example :
    decodeFrame .b [0x2202, 1, 150] = .setVolume .b 1 150 ∧ decodeFrame .b [0x2701, 1] = .getZone .b 1 ∧
      decodeFrame .b [0x2202, 1] = .badRequest .b 0x22 2 [1] ∧
      decodeFrame .b [0x0000, 7, 7] = .fetchFrame .b 0 3 ∧ decodeFrame .b [] = .selectReleasedBeforeWord0 .b := by
  decide

theorem test_frames_of_each_family :
    decodeFrame .a [0x0500] = .wake .a ∧ decodeFrame .a [0x1102, 7, 16] = .setPrefill .a 7 16 ∧
      decodeFrame .c [0x2002, 2, 0] = .zonePowerOff .c 2 ∧ decodeFrame .c [0x2002, 2, 9] = .zonePowerOn .c 2 9 ∧
      decodeFrame .a [0x3805, 5, 1, 0, 250, 0xFFFE] = .setSpeaker .a 5 1 0 250 0xFFFE ∧
      decodeFrame .a [0x4002, 9, 10] = .assignLane .a 9 10 ∧
      decodeFrame .a [0x5104, 0, 0, 1, 0x7F0C] = .tune .a 0 0 1 0x7F0C ∧
      decodeFrame .a [0x5505, 4, 1, 9, 9, 9] = .storePresetCurrent .a 4 9 9 9 ∧
      decodeFrame .a [0x6000] = .getStationData .a := by decide

/-! ### Figures worked in the spec -/

/-- 12.1: a clean word, one with d9 in error and one with d9 and d0 in error. -/
theorem test_word_check :
    encodeWord 0x5A21 = 0xC0005A21 ∧ checkWord 0xC0005A21 = .clean 0x5A21 ∧
      checkWord 0xC0005821 = .corrected 0x5A21 ∧ checkWord 0xC0005820 = .uncorrectable := by decide +kernel

/-- R66: full gain at index 160, the table's ends and silence. -/
theorem test_gains : gainOf 160 = 65536 ∧ gainOf 0 = 7 ∧ gainOf 184 = 260904 ∧ gainOf (-1) = 0 := by decide

/-- R64, R65: an exact half is rounded upwards for both signs. -/
theorem test_rounding : roundedProduct 1 16384 = 1 ∧ roundedProduct (-1) 16384 = 0 ∧ applyGain (-1) 32768 = 0 := by
  decide

/-- 4.5: the first steps of a centre-panned signal. -/
theorem test_steering_of_a_centre :
    smooth 0 32767 = 4095 ∧ smooth 4095 32767 = 7679 ∧ smooth 7679 32767 = 10815 ∧
      steeringOf 0 10815 = ⟨10895, 8192, 5407, 32768, 32768⟩ := by decide

/-- 4.5: block 4 of the centre-panned signal, and antiphase after left steering. -/
theorem test_matrix_positions :
    (steeringOf 0 10815).positions (Frame.pair (1000000, 1000000)) =
        ⟨669983, 669983, 664978, 0, 0, 0, 0, 0⟩ ∧
      ((steeringOf 16384 (-32760)).positions (Frame.pair (8388607, -8388607))).sl = 8388607 ∧
      ((steeringOf 16384 (-32760)).positions (Frame.pair (8388607, -8388607))).sr = -4193792 := by decide

/-- 6.11: the temperature of a code, the ceiling targets, the duties and the trip of the thermal walk. -/
theorem test_thermal_walk :
    temperatureOf 2483 = 60 ∧ dutyOf (some 60) = 665 ∧ dutyOf (some 69) = 879 ∧ dutyOf (some 84) = 1023 ∧
      ceilingTargetOf (some 84) = 164 ∧ ceilingTargetOf (some 88) = 148 ∧ ceilingTargetOf (some 98) = 144 ∧
      tripOf true (some 75) = true ∧ tripOf true (some 69) = false := by decide

/-! ### States the witnesses use -/

/-- A part that is ACTIVE with its power-on delay ended and its Sample Clock Unit running. -/
def awake : State :=
  { State.reset with
    hub := { State.reset.hub with
      clock := { Clock.reset with running := true }
      standby := { State.reset.hub.standby with power := .active, delay := .ended } } }

/-- `awake` with its hub changed. -/
def on (f : Hub → Hub) : State := awake.onHub f

/-- `awake` with one source changed. -/
def withSource (i : SourceId) (x : Source) : State := { awake with sources := awake.sources.set i x }

/-- A part in a given power state. -/
def powered (p : PowerState) : State := on fun h => { h with standby := { h.standby with power := p } }

/-- `awake` with one event found. -/
def found (d : Due) (f : Hub → Hub) : State := on fun h => { f h with due := [d] }

/-- The main zone playing TUN, which it may move, with the radio record changed. -/
def tuning (f : Radio → Radio) : State :=
  on fun h =>
    { h with
      zones := h.zones.set .main { h.zones.main with power := true, selected := 6, current := some 6, state := .waiting }
      radio := f { h.radio with holder := some .main, state := .idle } }

/-- A part with one exchange in flight and the radio record changed. -/
def talking (m : LinkMessage) (use : ExchangeUse) (f : Radio → Radio) : State :=
  tuning fun r => { f r with exchange := some ⟨m, 1, use, 2⟩ }

/-- A port record whose queue holds the given number of LANE_STATE notices. -/
def queued (n : Nat) : PortRecord :=
  { PortRecord.reset with
    subscriptions := 0x20, queue := (List.range n).map fun k => ⟨.laneState, k, 0⟩ }

/-! ### Single steps worked in the spec -/

/-- The state that a command leads to. -/
def after (c : Instr) (s : State) : State :=
  match exec c s with
  | .next t => t
  | .fault _ | .refused _ => s

/-- 9.6, period 1: SET_VOLUME(Z2, 150). -/
theorem test_set_volume :
    ((after (.setVolume .b 1 150) awake).hub.zone .z2).volume = 150 ∧
      ((after (.setVolume .b 1 150) awake).ports.get .b).slot = some ⟨.ok, false, .volume 150, [150]⟩ ∧
      ((after (.setVolume .b 1 150) awake).ports.get .b).run = 1 := by decide +kernel

/-- A port in the course of a select period that shows a reply. -/
def showing (r : Option Reply) : State :=
  awake.setPort .a { PortRecord.reset with receive := .receiving, slot := r, outFrame := r }

/-- 9.6, period 4: three words fetch a reply of two data words, and two words leave it. -/
theorem test_fetch :
    ((after (.fetchFrame .a 0 3) (showing (some ⟨.badRequest, true, .badRequest 0x22 2, [0x22, 2]⟩))).ports.get .a).slot = none ∧
      ((after (.fetchFrame .a 0 2) (showing (some ⟨.badRequest, true, .badRequest 0x22 2, [0x22, 2]⟩))).ports.get .a).slot =
        some ⟨.badRequest, true, .badRequest 0x22 2, [0x22, 2]⟩ := by decide +kernel

/-- A port that is IDLE with a reply in its slot. -/
def replied : State :=
  awake.setPort .a { PortRecord.reset with slot := some ⟨.badRequest, true, .badRequest 0x22 2, [0x22, 2]⟩ }

/-- R169, R173: a fetch frame at an IDLE port asserts its line first: three words fetch the reply, and two leave it. -/
theorem test_fetch_when_idle :
    ((after (.fetchFrame .a 0 3) replied).ports.get .a).slot = none ∧
      ((after (.fetchFrame .a 0 3) replied).ports.get .a).wordsReceived = 3 ∧
      ((after (.fetchFrame .a 0 2) replied).ports.get .a).slot = (replied.ports.get .a).slot ∧
      ((after (.fetchFrame .a 0 2) replied).ports.get .a).receive = .idle := by decide +kernel

/-- 9.6, period 3: a frame one word short discards the reply that stood unread. -/
theorem test_bad_request :
    ((after (.badRequest .a 0x22 2 [1]) (showing (some ⟨.ok, false, .volume 150, [150]⟩))).ports.get .a).slot =
        some ⟨.badRequest, true, .badRequest 0x22 2, [0x22, 2]⟩ ∧
      ((after (.badRequest .a 0x22 2 [1]) (showing (some ⟨.ok, false, .volume 150, [150]⟩))).ports.get .a).discarded = 1 := by
  decide +kernel

/-- R187, R195: the notice of a power-on reset holds the cause 0 and the port 3; that of a SOFT_RESET the cause 2. -/
theorem test_resets :
    ((after .powerOnReset awake).ports.get .c).queue = [⟨.standbyEntered, 0, 12⟩] ∧
      ((after (.softReset .b) awake).ports.get .a).queue = [⟨.standbyEntered, 0, 6⟩] ∧
      ((after (.softReset .b) awake).ports.get .b).queue = [] := by decide +kernel

/-- A part that its reset pin keeps in reset, port B's select line having been asserted since. -/
def kept : State := after (.selectLineAsserted .b) (after (.resetPin true) awake)

/-- R187, R168: a request given in reset is not run; the release takes the reset with the cause PIN (1) and no port (3), and
leaves the port whose select line is still asserted IGNORING. -/
theorem test_reset_pin :
    ((after (.setVolume .a 1 150) kept).hub.zone .z2).volume = 120 ∧
      ((after (.setVolume .a 1 150) kept).ports.get .a).slot = none ∧
      ((after (.resetPin false) kept).ports.get .b).receive = .ignoring ∧
      ((after (.resetPin false) kept).ports.get .c).queue = [⟨.standbyEntered, 0, 13⟩] ∧
      (after (.resetPin false) kept).hub.standby.inReset = false := by decide +kernel

/-- 11.4: WAKE starts the Sample Clock Unit. -/
theorem test_wake :
    (after (.wake .b) State.reset).hub.standby.power = .waking ∧ (after (.wake .b) State.reset).hub.clock.running = true := by
  decide +kernel

/-- The main zone in a given state at a gain index, with a decode source, playing SA0 by a locked clock. -/
def listening (st : ZoneState) (gain : Int) : State :=
  on fun h =>
    { h with
      zones := h.zones.set .main { h.zones.main with power := true, state := st, gain := gain, current := some 2 }
      clock := { h.clock with state := .locked, reference := some 2, period := 33550848 }
      decoder := { h.decoder with source := some 2 } }

/-- 3.10, interrupted: a SELECT_SOURCE during a switch changes the selected source and nothing else. -/
theorem test_select_during_switch :
    (after (.selectSource .c 0 5) (listening (.fadingOut .switch) 60)).hub.zones.main =
      { (listening (.fadingOut .switch) 60).hub.zones.main with selected := 5 } := by decide +kernel

/-- 2.6, 3.10: power off fades out from the present gain, and the clock enters FREE at the nominal period at once. -/
theorem test_power_off :
    (after (.zonePowerOff .c 0) (listening .playing 60)).hub.zones.main.state = .fadingOut .powerOff ∧
      (after (.zonePowerOff .c 0) (listening .playing 60)).hub.zones.main.gain = 60 ∧
      (after (.zonePowerOff .c 0) (listening .playing 60)).hub.clock.state = .free ∧
      (after (.zonePowerOff .c 0) (listening .playing 60)).hub.clock.period = 33554432 := by decide +kernel

/-- 4.6: FOLD2 of a stereo source is DIRECT with another reason, which a playing zone fades for. -/
theorem test_decode_mode :
    (after (.setDecodeMode .b 3 0) (listening .playing 100)).hub.decoder.derived = ⟨.direct, .fold2NeedsMultichannel⟩ ∧
      (after (.setDecodeMode .b 3 0) (listening .playing 100)).hub.zones.main.state = .fadingOut .reconfigure := by
  decide +kernel

/-- 5.7: the delay of 15 m, and the grants once the distance claim is 14,693 cells. -/
theorem test_lipsync_squeeze :
    delayOf 1800 300 = 2099 ∧ (196608 - 14693) / 384 = 473 ∧
      grantMs { Zone.reset 184 with power := true, lipRequested := 400 } .main 181915 = 400 ∧
      grantMs { Zone.reset 160 with power := true, lipRequested := 300 } .z2 28315 = 294 ∧
      grantMs { Zone.reset 160 with power := true, lipRequested := 200 } .z3 91 = 0 := by decide +kernel

/-- 6.10: a CLOSED lane takes a pending assignment and begins its release ramp; a full target is refused. -/
theorem test_assign_live_lane :
    (after (.assignLane .a 5 10) (on fun h => h.setLane 5 { h.lanes[5] with relay := .closed })).hub.lanes[5] =
        { Lane.reset 6 with relay := .closed, pending := some 10, ramp := some 0 } ∧
      ((after (.assignLane .c 5 8) awake).ports.get .c).slot = some ⟨.targetTaken, false, .none, []⟩ := by decide +kernel

/-- PA0 as 1.7 has it before its last event: 29 frames held, sequence 44 written, the group A part of 47 waiting. -/
def refilling : State :=
  withSource 0
    { Source.reset false with
      state := .prefill, maskA := 15, maskB := 15, channels := 255, buffer := List.replicate 29 Frame.zero
      lastSeq := some 44, lastWritten := some Frame.zero, pendingFrame := some ⟨47, some ⟨0, 0, 0, 0⟩, none⟩ }

/-- 1.7: group 2, sequence 47: frame 44 twice, then frame 47, which fills the buffer to its target. -/
theorem test_gap_is_filled :
    (after (.packetArrival 0 ([0x7A2F, 0, 0, 0, 0].map encodeWord)) refilling).sources[0].buffer.length = 32 ∧
      (after (.packetArrival 0 ([0x7A2F, 0, 0, 0, 0].map encodeWord)) refilling).sources[0].state = .running ∧
      (after (.packetArrival 0 ([0x7A2F, 0, 0, 0, 0].map encodeWord)) refilling).sources[0].counters =
        { SourceCounters.zero with gaps := 1, gapFilled := 2 } ∧
      (after (.packetArrival 0 ([0x7A2F, 0, 0, 0, 0].map encodeWord)) refilling).sources[0].arrivals = 3 := by
  decide +kernel

/-- 1.7: a fast sender: a block start that finds 61 frames drops one. -/
theorem test_slip :
    (after .outputBlockStart
        (withSource 3 { Source.reset true with state := .running, arrival := true
                                               buffer := List.replicate 61 Frame.zero })).sources[3].buffer.length = 60 ∧
      (after .outputBlockStart
        (withSource 3 { Source.reset true with state := .running, arrival := true
                                               buffer := List.replicate 61 Frame.zero })).sources[3].counters.slips = 1 := by
  decide +kernel

/-- R113: a fault input of a CLOSING lane is its first trip. -/
theorem test_trip :
    (after (.faultInputAsserted 4 true)
        (on fun h => h.setLane 4 { h.lanes[4] with relay := .closing, timer := 7 })).hub.lanes[4] =
      { Lane.reset 5 with fault := .retry, trips := [0], tripCount := 1, faultInput := true } := by decide +kernel

/-- A part whose converter has come to a channel. -/
def converting (c : SenseChannel) : State :=
  on fun h => { h with protection := { h.protection with nextChannel := some c } }

/-- R125: a code below 2,600 is a LOW supply. -/
theorem test_supply_low :
    (after (.senseConversion 13 2599) (converting 13)).hub.protection.supply.low = true ∧
      (after (.senseConversion 13 2600) (converting 13)).hub.protection.supply.low = false := by decide +kernel

/-- R118: a channel is converted in its turn, once a block. -/
theorem test_rotation :
    (after .outputBlockStart awake).hub.protection.nextChannel = some 0 ∧
      (after (.senseConversion 0 2048) (converting 0)).hub.protection.nextChannel = some 1 ∧
      (after (.senseConversion 13 2700) (converting 13)).hub.protection.nextChannel = none ∧
      (after (.senseConversion 5 2048) (converting 4)).hub.protection.sense[5] = none := by decide +kernel

/-- 7.11: the seek from 98,100 kHz upwards. -/
theorem test_seek :
    (after (.seek .a 0 1) (tuning fun r => { r with held := ⟨.fm, 98100⟩ })).hub.radio.op =
        some ⟨.seek .main true ⟨.fm, 98100⟩ 98200 0, .set, 0⟩ ∧
      (after (.seek .a 0 1) (tuning fun r => { r with held := ⟨.fm, 98100⟩ })).hub.radio.mute = true := by decide +kernel

/-- 7.11: level 41, noise 22 and a pilot at 98,400 kHz end the seek. -/
theorem test_seek_found :
    (after (.getQualityReply 41 22 1)
        (talking .getQuality .step fun r =>
          { r with op := some ⟨.seek .main true ⟨.fm, 98100⟩ 98400 2, .measure, 0⟩ })).hub.radio.held = ⟨.fm, 98400⟩ ∧
      (after (.getQualityReply 41 22 1)
        (talking .getQuality .step fun r =>
          { r with op := some ⟨.seek .main true ⟨.fm, 98100⟩ 98400 2, .measure, 0⟩ })).hub.radio.state = .idle := by
  decide +kernel

/-- R147: the bytes of a message sum to 0 modulo 256. -/
theorem test_link_bytes :
    LinkMessage.status.bytes = [5, 0, 251] ∧ (LinkMessage.setFreq ⟨.fm, 98100⟩).bytes = [1, 3, 0, 0x26, 0x52, 0x84] := by
  decide +kernel

/-- 8.10: a segment is confirmed at its second word. -/
theorem test_name_segment :
    NameSegment.take 0x5249 ⟨none, none⟩ = ⟨none, some 0x5249⟩ ∧
      NameSegment.take 0x5249 ⟨none, some 0x5249⟩ = ⟨some 0x5249, none⟩ := by decide +kernel

/-! ### The ports and the invariants -/

theorem witness_frame_decodes :
    (Instr.setRadioOptions .c 1 0 30 40 40 2).wellFormed = true ∧
      (Instr.setRadioOptions .c 1 0 30 40 40 2).frame = some (.c, 0x5B, [1, 0, 30, 40, 40, 2]) ∧
      (Instr.identify .a).wellFormed = true ∧ (Instr.identify .a).frame = some (.a, 0x01, []) := by decide

theorem witness_every_frame :
    (decodeFrame .b [0x2202, 1, 150]).frame = some (.b, 0x22, [1, 150]) ∧ (decodeFrame .b []).frame = none ∧
      (decodeFrame .b [0x0000]).frame = none ∧ (decodeFrame .b [0x2202, 1]).frame = none := by decide

/-- A state that meets every invariant at a bound: full queues, a full buffer, a volume at its maximum. -/
def atBounds : State :=
  { withSource 7 { Source.reset true with buffer := List.replicate 64 Frame.zero } with
    ports := ⟨queued 16, queued 16, queued 16⟩
    pending := [.setMaxVolume .a 1 160] }

theorem witness_invariants :
    (atBounds.queuesOk ∧ atBounds.buffersOk ∧ atBounds.settingsOk ∧ atBounds.delivered) ∧
      ∃ t, step atBounds = .next t := by
  refine ⟨?_, _, rfl⟩
  unfold State.queuesOk PortRecord.queueOk State.buffersOk Source.bufferOk State.settingsOk ZoneSettings.ok
    State.delivered
  decide

/-- `awake` with one port ignoring its select period. -/
def ignoring : State := awake.setPort .b { PortRecord.reset with receive := .ignoring }

theorem witness_ignoring :
    ¬ ignoring.listens .b ∧ (Instr.wake .b).frame = some (.b, 0x05, []) ∧
      (ignoring.ports.get .b).receive = .ignoring := by
  unfold State.listens
  decide

theorem witness_request_answered :
    awake.listens .b ∧ (Instr.setVolume .b 1 150).frame = some (.b, 0x22, [1, 150]) ∧
      Instr.setVolume .b 1 150 ≠ .softReset .b := by
  unfold State.listens
  decide

theorem witness_select_periods :
    (awake.ports.get .a).receive = .idle ∧ (ignoring.ports.get .b).receive = .ignoring ∧
      ((showing none).ports.get .a).receive = .receiving ∧ ((showing none).ports.get .a).outFrame = none ∧
      ((showing (some ⟨.badRequest, false, .badRequest 0x22 2, [0x22, 2]⟩)).ports.get .a).outFrame =
        some ⟨.badRequest, false, .badRequest 0x22 2, [0x22, 2]⟩ ∧ ([0x22, 2] : List Word).length + 1 ≤ 3 ∧
      2 < ([0x22, 2] : List Word).length + 1 ∧ replied.listens .a ∧ (replied.ports.get .a).receive = .idle ∧
      (replied.ports.get .a).slot = some ⟨.badRequest, true, .badRequest 0x22 2, [0x22, 2]⟩ ∧ awake.listens .a ∧
      (awake.ports.get .a).slot = none := by
  unfold State.listens
  decide

/-- Each of the four reasons: an unknown kind, a wrong count, a frame one word short and one a word long. -/
theorem witness_bad_requests :
    awake.listens .a ∧ (Instr.badRequest .a 0x0F 0 []).wellFormed = true ∧
      (Instr.badRequest .a 0x22 33 [1, 150]).wellFormed = true ∧ (Instr.badRequest .a 0x22 2 [1]).wellFormed = true ∧
      (Instr.badRequest .a 0x22 2 [1, 150, 0]).wellFormed = true := by
  unfold State.listens
  decide

theorem witness_reading :
    awake.listens .c ∧ awake.delivered ∧ (7 : Word).toNat = (7 : SourceId).val ∧ (2 : Word).toNat = ZoneId.z3.code ∧
      (10 : Word).toNat = (10 : LaneId).val ∧ (39 : Word).toNat = (39 : Fin 40).val ∧ (47 : Word).toNat ≤ 47 := by
  unfold State.listens State.delivered
  decide

/-- R167: a committed text of 48 characters. -/
def storied : StationView :=
  { stationView awake.hub with text := some (List.replicate 48 0x41) }

theorem witness_text_of_48 : ∃ text, storied.text = some text ∧ text.length = 48 := ⟨_, rfl, rfl⟩

/-- The first value outside each set, as the first, the second and the third word refused. -/
theorem witness_bad_codes :
    awake.listens .a ∧ awake.delivered ∧ badCode (.getSource .a 8) 1 ∧ badCode (.subscribe .a 256) 1 ∧
      badCode (.selectSource .a 2 8) 2 ∧ badCode (.zonePowerOn .a 0 2) 2 ∧ badCode (.setGroups .a 1 4 5) 3 ∧
      badCode (.setSpeaker .a 6 1 2 0 0) 3 ∧ badCode (.storePresetExplicit .a 39 0 2 0 0) 3 := by
  unfold State.listens State.delivered badCode
  decide

theorem witness_sets : awake.listens .a ∧ awake.delivered ∧ (255 : Word).toNat < 256 := by
  unfold State.listens State.delivered
  decide

/-- A queue of 15 entries and one of 16, a notice inside the subscription set and one outside it, a notice of a kind and
object that is queued and one that is not. -/
theorem witness_delivery :
    (queued 15).queueOk ∧ (queued 16).queueOk ∧
      (queued 16).subscriptions.getLsbD NoticeKind.laneState.classCode = true ∧
      (queued 16).subscriptions.getLsbD NoticeKind.zoneMute.classCode = false ∧
      (queued 2).queue = [⟨.laneState, 0, 0⟩] ++ ⟨.laneState, 1, 0⟩ :: [] ∧
      (∀ m ∈ (queued 16).queue, ¬ (m.kind = NoticeKind.laneFault ∧ m.object = 0)) ∧
      (queued 15).queue.length < 16 ∧ 16 ≤ (queued 16).queue.length := by
  unfold PortRecord.queueOk
  decide

/-! ### Resets and standby -/

/-- A part kept in reset, a request and a select line's release at its ports, and an arrival that is none of the commands
which act in reset; a part that is not kept so, whose port listens. -/
theorem witness_resets :
    kept.hub.standby.inReset = true ∧ releasesSelect (.wake .a) .a ∧ releasesSelect (.ignoringRelease .b) .b ∧
      ¬ releasesSelect .outputBlockStart .a ∧ kept.pending = [] ∧ awake.listens .a ∧ ¬ kept.listens .c := by
  refine ⟨rfl, .inl ⟨_, _, rfl⟩, .inr (.inr (.inr (.inl rfl))), ?_, rfl, ?_, ?_⟩
  · simp [releasesSelect, Instr.frame]
  · unfold State.listens
    decide
  · unfold State.listens
    decide

theorem witness_power_requests :
    (powered .standby).listens .a ∧ (powered .standby).delivered ∧ (powered .standby).hub.standby.power = .standby ∧
      State.reset.hub.clock.running = false ∧ State.reset.hub.zones.main.state = .off ∧
      (powered .waking).hub.standby.power = .waking ∧ (powered .active).hub.standby.power = .active ∧
      (powered .enteringStandby).hub.standby.power = .enteringStandby := by
  unfold State.listens State.delivered
  decide

/-- A part at its 100th block start in WAKING. -/
def aboutToBeActive : State :=
  found .active fun h => { h with standby := { h.standby with power := .waking, wakingCount := 100, delay := .notEnded } }

/-- A part at the end of its power-on delay, the main zone on: lane 0 meets its closing conditions, lane 9 does not. -/
def delayEnding : State :=
  found .powerOnDelayEnd fun h =>
    { h with
      zones := h.zones.set .main { h.zones.main with power := true, state := .waiting, current := some 2 }
      standby := { h.standby with delay := .running 2000 } }

theorem witness_active :
    aboutToBeActive.ready ∧ Due.active ∈ aboutToBeActive.hub.due ∧ aboutToBeActive.hub.standby.power = .waking ∧
      aboutToBeActive.hub.standby.wakingCount = 100 ∧ delayEnding.ready ∧
      Due.powerOnDelayEnd ∈ delayEnding.hub.due ∧ delayEnding.hub.standby.power = .active ∧
      delayEnding.hub.standby.delay = .running 2000 ∧
      (({ delayEnding.hub with standby := { delayEnding.hub.standby with delay := .ended } } : Hub).closing 0).all =
        true ∧ delayEnding.hub.lanes[0].faultInput = false ∧
      (({ delayEnding.hub with standby := { delayEnding.hub.standby with delay := .ended } } : Hub).closing 9).all =
        false := by
  unfold State.ready State.delivered
  decide

theorem witness_standby_entry :
    (powered .enteringStandby).ready ∧ (powered .enteringStandby).hub.standby.power = .enteringStandby ∧
      (∀ z, ((powered .enteringStandby).hub.zone z).state = .off) ∧
      ∀ l : LaneId, (powered .enteringStandby).hub.lanes[l].relay = .open := by
  unfold State.ready State.delivered
  exact ⟨⟨rfl, rfl⟩, rfl, fun z => by cases z <;> rfl, by decide⟩

/-! ### Source Intake and the clock -/

/-- A source in a given state with one frame in its buffer. -/
def source (st : SourceState) (packet : Bool) : Source :=
  { Source.reset (!packet) with state := st, buffer := if st = .running then [Frame.zero] else [] }

theorem witness_prefill :
    awake.listens .a ∧ awake.delivered ∧ State.reset.listens .a ∧ State.reset.delivered ∧
      (7 : Word).toNat = (7 : SourceId).val ∧ awake.hub.clock.running = true ∧
      State.reset.hub.clock.running = false ∧ (if (24 : Word).toNat < 24 then 16 else 32) = awake.sources[7].prefill ∧
      (if (12 : Word).toNat < 12 then 8 else 16) ≠ awake.sources[7].prefill := by
  unfold State.listens State.delivered
  decide

/-- A packet source that awaits new groups. -/
def regrouping : State := withSource 1 { source .running true with change := some (.newGroups 3 4) }

theorem witness_groups :
    regrouping.listens .a ∧ regrouping.delivered ∧ (2 : Word).toNat = (2 : SourceId).val ∧
      2 ≤ (2 : SourceId).val ∧ (1 : SourceId).val < 2 ∧ ¬ (1 ≤ (5 : Word).toNat ∧ (5 : Word).toNat ≤ 4) ∧
      awake.sources[1].groupA = 1 ∧ awake.sources[1].groupB = 2 ∧ awake.sources[1].change = none ∧
      regrouping.sources[1].change = some (.newGroups 3 4) ∧ regrouping.hub.clock.running = true := by
  unfold State.listens State.delivered
  decide

/-- A source that awaits a restart. -/
def restarting (st : SourceState) : State := withSource 2 { source st false with change := some .restart }

theorem witness_pending_change :
    regrouping.ready ∧ (restarting .running).ready ∧
      (restarting .running).sources[2].change = some .restart ∧ (restarting .running).sources[2].state = .running ∧
      (restarting .prefill).sources[2].state = .prefill ∧ (restarting .absent).sources[2].state = .absent ∧
      awake.sources[2].change = none := by
  unfold State.ready State.delivered
  decide

/-- A running source that has had no frame for eight blocks and has corrected 24 times in a row. -/
def failing : State :=
  { withSource 2 { source .running false with absence := 8, corrections := 24 } with
    hub := { awake.hub with due := [.sourceAbsent 2, .slipRestart 2] } }

theorem witness_source_leaves :
    failing.ready ∧ Due.sourceAbsent 2 ∈ failing.hub.due ∧ Due.slipRestart 2 ∈ failing.hub.due ∧
      failing.sources[2].state = .running ∧ failing.sources[2].absence = 8 ∧
      failing.sources[2].corrections = 24 := by
  unfold State.ready State.delivered
  decide

/-- A serial source in a given state with a buffer of a given fill level. -/
def filled (st : SourceState) (n : Nat) : State :=
  withSource 2 { source st false with buffer := List.replicate n Frame.zero }

theorem witness_serial :
    (filled .running 63).ready ∧ (filled .running 63).settled ∧
      (filled .running 63).hub.standby.power ≠ .standby ∧ (filled .running 63).sources[2].buffer.length < 64 ∧
      64 ≤ (filled .running 64).sources[2].buffer.length ∧ (filled .prefill 31).sources[2].state = .prefill ∧
      (filled .absent 0).sources[2].state = .absent ∧ playable (filled .absent 0).sources[2].adopted = true ∧
      (filled (.unusable .rate) 0).sources[2].state = .unusable .rate ∧
      (filled .running 63).sources[2].assembly = .waiting ∧ State.reset.settled ∧
      State.reset.hub.standby.power = .standby ∧ State.reset.hub.standby.wakeSense.getLsbD 2 = false := by
  unfold State.ready State.delivered State.settled
  decide

/-- A part in STANDBY that senses every source. -/
def sensing : State :=
  State.reset.onHub fun h => { h with standby := { h.standby with wakeSense := 255 } }

theorem witness_serial_sensed :
    sensing.ready ∧ sensing.settled ∧ sensing.hub.standby.power = .standby ∧
      sensing.hub.standby.wakeSense.getLsbD 7 = true ∧ sensing.sources[7].state = .absent := by
  unfold State.ready State.delivered State.settled
  decide

/-- R18: a status block of audio at 48 kHz and 16 bits with an empty name. -/
def statusBlock : StatusBlock := BitVec.ofNat 160 (2 * 2 ^ 8 + 1 * 2 ^ 16 + 253 * 2 ^ 152)

/-- All of that block but its last bit. -/
def statusBits : StatusBlock := BitVec.ofNat 160 (2 * 2 ^ 8 + 1 * 2 ^ 16 + 125 * 2 ^ 152)

/-- A serial source one bit short of a block, with the block before it and its adopted record. -/
def collecting (s : State) (prev : Option StatusBlock) (r : Option StatusRecord) : State :=
  { s with
    sources := s.sources.set 2
      { s.sources[2] with assembly := .collecting 159 statusBits, prevBlock := prev, adopted := r } }

/-- A block that completes: one that fails, one that is the first, one that is confirmed, in ACTIVE and in STANDBY. -/
theorem witness_status_blocks :
    (collecting awake none none).ready ∧ (collecting awake none none).settled ∧
      (collecting sensing none none).settled ∧
      (collecting awake none none).sources[2].assembly = .collecting 159 statusBits ∧
      statusBits ||| BitVec.ofNat 160 (true.toNat * 2 ^ 159) = statusBlock ∧
      recordOf statusBlock = some ⟨false, 2, .w16, 0⟩ ∧
      recordOf (statusBits ||| BitVec.ofNat 160 (false.toNat * 2 ^ 159)) = none ∧
      (collecting awake (some statusBlock) none).sources[2].prevBlock = some statusBlock ∧
      (collecting awake (some statusBlock) none).sources[2].adopted ≠ some ⟨false, 2, .w16, 0⟩ ∧
      (collecting sensing (some statusBlock) (some ⟨false, 2, .w16, 0⟩)).sources[2].adopted =
        some ⟨false, 2, .w16, 0⟩ ∧
      (collecting sensing (some statusBlock) none).hub.standby.reported.getLsbD 2 = false := by
  unfold State.ready State.delivered State.settled
  decide +kernel

/-- R18, R191: a confirmed block is adopted, and in STANDBY is reported once. -/
theorem test_confirmed_block :
    (after (.serialFrameArrival 0 0 0 true true false)
        (collecting sensing (some statusBlock) none)).sources[2].adopted = some ⟨false, 2, .w16, 0⟩ ∧
      (after (.serialFrameArrival 0 0 0 true true false)
        (collecting sensing (some statusBlock) none)).hub.standby.reported = 4 := by decide +kernel

/-- PA0 running with full masks, its last written sequence 255 and the group A part of sequence 1 waiting. -/
def assembling : State :=
  withSource 0
    { source .running true with
      maskA := 15, maskB := 15, channels := 255, lastSeq := some 255, pendingFrame := some ⟨1, some ⟨1, 2, 3, 4⟩, none⟩ }

/-- A header of group B with sequence 1 and a full mask, four zero samples, and headers of sequence 0 and of group 7. -/
theorem witness_packet :
    assembling.ready ∧ assembling.settled ∧ assembling.hub.standby.power ≠ .standby ∧
      ([0x7A01, 0, 0, 0, 0].map encodeWord).map (fun w => (checkWord w).data?) =
        [some 0x7A01, some 0, some 0, some 0, some 0] ∧
      (0x7A01 : BitVec 26).toNat / 256 % 8 = assembling.sources[0].groupB ∧
      (0x7A01 : BitVec 26).toNat / 256 % 8 ≠ assembling.sources[0].groupA ∧ (0x7A01 : BitVec 26).toNat % 256 = 1 ∧
      ((0x7A01 : BitVec 26) >>> 11).setWidth 4 = assembling.sources[0].maskB ∧
      unionOf assembling.sources[0].maskA assembling.sources[0].maskB = assembling.sources[0].channels ∧
      assembling.sources[0].lastSeq = some (if 1 = 1 then 255 else 1 - 1) ∧
      assembling.sources[0].pendingFrame = some ⟨1, some ⟨1, 2, 3, 4⟩, none⟩ ∧
      assembling.sources[0].state = .running ∧ assembling.sources[0].buffer.length < 64 ∧
      (0x7A00 : BitVec 26).toNat % 256 = 0 ∧ (0x7F01 : BitVec 26).toNat / 256 % 8 = 7 := by
  unfold State.ready State.delivered State.settled
  decide +kernel

theorem witness_packet_rejected :
    sensing.settled ∧ ([0, 0, 0, 0] : List CodeWord).length ≠ 5 ∧ checkWord 0xC0005820 = .uncorrectable ∧
      State.reset.hub.standby.wakeSense.getLsbD 0 = false := by
  unfold State.settled
  decide

/-- The main zone waiting for, or playing, SA0, the source in a given state, under a given clock record. -/
def following (st : SourceState) (f : Clock → Clock) : State :=
  { withSource 2 (source st false) with
    hub := { awake.hub with
      zones := awake.hub.zones.set .main
        { awake.hub.zones.main with
          power := true, current := some 2, state := if st = .running then .fadingIn else .waiting }
      clock := f awake.hub.clock } }

theorem witness_clock_mode :
    awake.listens .a ∧ awake.delivered ∧ (following .running id).hub.clock.running = true ∧
      ClockMode.forcedFree ≠ awake.hub.clock.mode ∧ State.reset.hub.clock.running = false ∧
      (following .running fun c => { c with state := .locked, reference := some 2 }).hub.clock.reference ≠ none ∧
      (following .running fun c => { c with mode := .forcedFree }).hub.clock.reference = none ∧
      (following .running fun c => { c with mode := .forcedFree }).hub.clock.state = .free ∧
      (following .running id).hub.zones.main.current = some 2 ∧ (following .running id).sources[2].state = .running ∧
      (following .prefill id).sources[2].state ≠ .running ∧ awake.hub.zones.main.current = none := by
  unfold State.listens State.delivered
  decide

theorem witness_sample_period :
    awake.ready ∧ awake.settled ∧ awake.hub.clock.running = true ∧ State.reset.settled ∧
      State.reset.hub.clock.running = false ∧ (filled .running 0).sources[2].buffer = [] ∧
      (filled .running 1).sources[2].buffer = Frame.zero :: [] ∧ awake.hub.lanes[0].relay ≠ .closed := by
  unfold State.ready State.delivered State.settled
  decide

/-- A block start that a sample period has found, at which a source with an intake change recorded is RUNNING, and one
whose sources have none. -/
theorem witness_block_start :
    (found .blockStart id).ready ∧ ((found .blockStart id).onHub (Hub.dropDue .blockStart)).settled ∧
      (found .blockStart id).hub.due = [.blockStart] ∧ (found .blockStart id).hub.clock.running = true ∧
      (awake.onHub (Hub.dropDue .blockStart)).settled ∧
      (∀ i : SourceId, (found .blockStart id).sources[i].change = none) ∧
      (withSource 2 { source .running false with change := some .restart }).sources[2].change = some .restart ∧
      ((withSource 2 { source .running false with change := some .restart }).onHub
        (Hub.dropDue .blockStart)).settled ∧
      (∀ i : SourceId, (filled .running 61).sources[i].change = none) ∧
      ((filled .running 61).onHub (Hub.dropDue .blockStart)).settled ∧
      (State.reset.onHub (Hub.dropDue .blockStart)).settled ∧ State.reset.hub.clock.running = false := by
  unfold State.ready State.delivered State.settled
  decide

/-- R150, R162: the 40th block start finds the data poll and not the quality poll, and a weak run of 1,999 the follow
check. -/
theorem test_radio_counts :
    (after .outputBlockStart
        (tuning fun r => { r with dataCount := 39, qualityCount := 198 })).hub.due = [.dataPoll] ∧
      (after .outputBlockStart
        (tuning fun r => { r with dataCount := 39, qualityCount := 198 })).hub.radio.qualityCount = 199 ∧
      (after .outputBlockStart
        ((tuning id).onHub fun h =>
          { h with
            station := { h.station with code := some 7, alternatives := [98300], weakRun := some 1999 } })).hub.due =
        [.followTrigger] := by decide +kernel

/-- R162: a back-off of 1 falls to 0 before the trigger is examined (notes/assumptions/80.md), and one of 2 holds it off. -/
theorem test_back_off_falls_first :
    let weak := fun n : Nat => (tuning id).onHub fun h =>
      { h with
        station := { h.station with code := some 7, alternatives := [98300], weakRun := some 2000, backOff := n } }
    (after .outputBlockStart (weak 1)).hub.due = [.followTrigger] ∧
      (after .outputBlockStart (weak 2)).hub.due = [] := by decide +kernel

/-- The end of a full interval of 762 arrivals from the reference, one block of eight good ones short of lock. -/
def adjusting (st : ClockState) (part : Bool) : State :=
  { following .running
      fun c => { c with state := st, reference := some 2, good := 7, partialInterval := part } with
    sources := awake.sources.set 2 { source .running false with arrivals := 762 } }.onHub
      fun h => { h with due := [.intervalEnd] }

theorem witness_interval_end :
    (adjusting .acquiring false).ready ∧ Due.intervalEnd ∈ (adjusting .acquiring false).hub.due ∧
      (adjusting .acquiring false).hub.clock.running = true ∧
      (adjusting .acquiring false).hub.clock.reference = some 2 ∧
      (adjusting .acquiring false).hub.desiredReference = some 2 ∧
      (adjusting .acquiring false).sources[2].state = .running ∧
      (adjusting .acquiring false).sources[2].entryInterval = false ∧
      762 ≤ (adjusting .acquiring false).sources[2].arrivals ∧
      Due.sourceAbsent 2 ∉ (adjusting .acquiring false).hub.due ∧
      (adjusting .acquiring true).hub.clock.partialInterval = true ∧
      (adjusting .locked false).hub.clock.state = .locked := by
  unfold State.ready State.delivered
  decide

/-- The end of an interval with a source in a given state that has made a number of frames in it, under a locked clock
that follows it; `gone` says whether the source becomes ABSENT at the block start that ends the interval. -/
def judging (st : SourceState) (arrivals bad good : Nat) (gone : Bool) : State :=
  { following st fun c => { c with state := .locked, reference := some 2 } with
    sources := awake.sources.set 2
      { source st false with
        arrivals := arrivals, badRun := bad, goodRun := good, absence := if gone then 8 else 0 } }.onHub
      fun h => { h with due := if gone then [.sourceAbsent 2, .intervalEnd] else [.intervalEnd] }

/-- A source that leaves by its second bad interval, one that becomes ABSENT, one at its fourth good interval and one
with a record that is not for playing. -/
theorem witness_interval_leaves :
    (judging .running 761 1 0 false).ready ∧ Due.intervalEnd ∈ (judging .running 761 1 0 false).hub.due ∧
      (judging .running 761 1 0 false).sources[2].entryInterval = false ∧
      (judging .running 761 1 0 false).hub.desiredReference = some 2 ∧
      (judging .running 761 1 0 false).hub.zones.main.state ≠ .fadingOut .switch ∧
      Due.sourceAbsent 2 ∈ (judging .running 768 0 0 true).hub.due ∧
      (judging .running 768 0 0 true).sources[2].absence = 8 ∧ (judging .running 768 0 0 true).ready ∧
      (judging (.unusable .rate) 774 0 3 false).sources[2].goodRun = 3 ∧
      (judging (.unusable .rate) 774 0 3 false).sources[2].adopted = none := by
  unfold State.ready State.delivered
  decide

/-- R55: MAIN fades in the source that leaves by its second bad interval, and waits for it then. -/
theorem test_interval_silences :
    (judging .running 761 1 0 false).hub.zones.main.current = some 2 ∧
      (judging .running 761 1 0 false).hub.zones.main.state = .fadingIn ∧
      (∀ z ∈ [ZoneId.main, .z2, .z3], ((judging .running 761 1 0 false).hub.zone z).pending.layout = false) ∧
      (after .measurementIntervalEnd (judging .running 761 1 0 false)).hub.zones.main.state = .waiting ∧
      (after .measurementIntervalEnd (judging .running 768 1 0 false)).hub.zones.main.state = .fadingIn := by
  decide +kernel

/-- R15, R33: a source that becomes ABSENT at the interval's end is not judged, and the clock is in HOLDOVER. -/
theorem test_absent_is_not_judged :
    (after .measurementIntervalEnd (judging .running 700 1 0 true)).sources[2].state = .absent ∧
      (after .measurementIntervalEnd (judging .running 700 1 0 true)).sources[2].lastArrivals = 0 ∧
      (after .measurementIntervalEnd (judging .running 700 1 0 true)).hub.clock.state = .holdover ∧
      (after .measurementIntervalEnd (judging .running 700 1 0 true)).hub.clock.holdover = 1 := by decide +kernel

/-- The seventh and the eighth interval end in HOLDOVER. -/
theorem witness_holdover :
    Due.intervalEnd ∈ ((following .prefill
        fun c => { c with state := .holdover, reference := some 2, holdover := 7 }).onHub
          fun h => { h with due := [.intervalEnd] }).hub.due ∧
      (following .prefill fun c => { c with state := .holdover, reference := some 2 }).hub.desiredReference = some 2 ∧
      Due.holdoverExpiry ∈ (found .holdoverExpiry
        fun h => { h with clock := { h.clock with state := .holdover, holdover := 8 } }).hub.due ∧
      (found .holdoverExpiry
        fun h => { h with clock := { h.clock with state := .holdover, holdover := 8 } }).hub.clock.holdover = 8 := by
  decide

/-! ### Zones, the decoder and the layout -/

theorem witness_volume :
    awake.listens .a ∧ awake.delivered ∧ (2 : Word).toNat = ZoneId.z3.code ∧ (0 : Word).toNat = ZoneId.main.code := by
  unfold State.listens State.delivered
  decide

/-- A request of 501 ms and the one that is held. -/
theorem witness_lipsync :
    awake.listens .a ∧ awake.delivered ∧ min (501 : Word).toNat 500 ≠ (awake.hub.zone .main).lipRequested ∧
      min (0 : Word).toNat 500 = (awake.hub.zone .main).lipRequested ∧ awake.hub.renderer.derived.cells ≤ 196608 := by
  unfold State.listens State.delivered
  decide

/-- The main zone in a given state, its power setting with it. -/
def zoned (st : ZoneState) (on? : Bool) : State :=
  on fun h =>
    h.setZone .main { h.zones.main with power := on?, state := st, current := if st = .off then none else some 2 }

theorem witness_zone_power :
    (zoned .off false).listens .a ∧ (zoned .off false).delivered ∧ (zoned .off false).hub.standby.power = .active ∧
      (zoned .off false).hub.zones.main.power = false ∧ (zoned .off false).hub.zones.main.state = .off ∧
      (∀ l : LaneId, (zoned .off false).hub.lanes[l].faultInput = false) ∧
      (zoned (.fadingOut .powerOff) false).hub.zones.main.state = .fadingOut .powerOff ∧
      (zoned .playing true).hub.zones.main.power = true ∧ (zoned .playing true).hub.zones.main.state ≠ .off ∧
      (zoned .waiting true).hub.zones.main.state = .waiting ∧ (powered .waking).hub.standby.power ≠ .active := by
  unfold State.listens State.delivered
  decide

theorem witness_select_source :
    (zoned .playing true).listens .a ∧ (zoned .playing true).delivered ∧ (7 : Word).toNat = (7 : SourceId).val ∧
      (zoned .playing true).hub.zones.main.current = some 2 ∧ (zoned .playing true).hub.zones.main.selected = 2 ∧
      (zoned .fadingIn true).hub.zones.main.state = .fadingIn ∧
      (zoned (.fadingOut .switch) true).hub.zones.main.state = .fadingOut .switch ∧
      (zoned .waiting true).hub.zones.main.current ≠ some 7 ∧
      (zoned (.fadingOut .powerOff) false).hub.zones.main.state ≠ .off ∧
      (zoned .off false).hub.zones.main.power = false ∧
      (State.reset.onHub fun h => h.setZone .main { h.zones.main with power := true }).hub.standby.power ≠ .active := by
  unfold State.listens State.delivered
  decide

/-- R70, R30, R31: a source selected while the main zone waits is handed over and becomes the clock's reference. -/
theorem test_select_hands_over :
    (after (.selectSource .a 0 7) (zoned .waiting true)).hub.decoder.source = some 7 ∧
      (after (.selectSource .a 0 7) (zoned .waiting true)).hub.clock.reference = some 7 ∧
      (after (.selectSource .a 0 7) (zoned .playing true)).hub.decoder.source = none := by decide +kernel

/-- R46, R70, R97: MAIN turned on takes its grant, its source and its decode source; R47, R70: turned off in WAITING it
gives them up. -/
theorem test_power_hands_over :
    (after (.zonePowerOn .a 0 1) (zoned .off false)).hub.zones.main.lipEffect =
        (after (.zonePowerOn .a 0 1) (zoned .off false)).hub.zones.main.lipGranted ∧
      (after (.zonePowerOn .a 0 1) (zoned .off false)).hub.decoder.source = some 2 ∧
      (after (.zonePowerOn .a 0 1) (zoned .off false)).hub.lanes[0].relay = .closing ∧
      (after (.zonePowerOff .a 0) (listening .waiting (-1))).hub.decoder.source = none := by decide +kernel

/-- R97: a zone that plays and is granted more fades out to adopt it. -/
theorem test_grant_is_taken :
    (after (.setLipsync .a 0 100) (zoned .playing true)).hub.zones.main.state = .fadingOut .reconfigure ∧
      (after (.setLipsync .a 0 100) (zoned .playing true)).hub.zones.main.pending.lipsync = true ∧
      (after (.setLipsync .a 0 100) (zoned .waiting true)).hub.zones.main.lipEffect = 100 := by decide +kernel

/-- A fade-out, with a given purpose, that has reached −1; a fade-in at its target; a wait of 3,000 blocks. -/
def fading (k : Purpose) : State := found (.fadeOutEnd .main) fun _ => (zoned (.fadingOut k) true).hub

def arriving : State :=
  found (.fadeInEnd .z2) fun h => h.setZone .z2 { h.zones.z2 with power := true, state := .fadingIn, gain := 120 }

def waited : State :=
  found (.noSignal .z3) fun h => h.setZone .z3 { h.zones.z3 with power := true, state := .waiting, noSignal := 3000 }

theorem witness_fades :
    (fading .switch).ready ∧ Due.fadeOutEnd .main ∈ (fading .switch).hub.due ∧
      (fading .switch).hub.zones.main.state = .fadingOut .switch ∧ (fading .switch).hub.zones.main.gain = -1 ∧
      (fading .switch).hub.zones.main.pending.layout = false ∧
      (fading .reconfigure).hub.zones.main.state = .fadingOut .reconfigure ∧
      (fading .powerOff).hub.zones.main.state = .fadingOut .powerOff ∧ Due.fadeInEnd .z2 ∈ arriving.hub.due ∧
      arriving.hub.zones.z2.state = .fadingIn ∧ arriving.hub.zones.z2.gain = arriving.hub.zones.z2.volume ∧
      arriving.hub.zones.z2.mute = false ∧ Due.noSignal .z3 ∈ waited.hub.due ∧ waited.hub.zones.z3.state = .waiting ∧
      waited.hub.zones.z3.noSignal = 3000 ∧ waited.hub.zones.z3.noSignalReported = false := by
  unfold State.ready State.delivered
  decide

/-- The main zone at the end of a fade-out, its selected source SA1 another than the current one, with a DECODE item
pending that makes a DIRECT pair a MATRIX one. -/
def handing (k : Purpose) : State :=
  found (.fadeOutEnd .main) fun _ =>
    let h := (zoned (.fadingOut k) true).hub
    { h with
      zones := h.zones.set .main { h.zones.main with selected := 3, pending := ⟨true, true, false⟩ }
      decoder := { h.decoder with source := some 2, derived := ⟨.matrix, .asRequested⟩, itemPending := true } }

/-- Zone 2 at the end of a fade-out with a LIPSYNC item pending. -/
def lagging (k : Purpose) : State :=
  found (.fadeOutEnd .z2) fun h =>
    h.setZone .z2 { h.zones.z2 with power := true, state := .fadingOut k, gain := -1, pending := ⟨true, false, false⟩ }

theorem witness_fade_items :
    (handing .switch).ready ∧ Due.fadeOutEnd .main ∈ (handing .switch).hub.due ∧
      (handing .switch).hub.zones.main.state = .fadingOut .switch ∧ (handing .switch).hub.zones.main.gain = -1 ∧
      (handing .switch).hub.zones.main.pending = ⟨true, true, false⟩ ∧
      (handing .switch).hub.zones.main.current ≠ some (handing .switch).hub.zones.main.selected ∧
      (handing .switch).hub.clock.running = true ∧ (handing .switch).hub.clock.reference ≠ some 3 ∧
      (lagging .reconfigure).ready ∧ Due.fadeOutEnd .z2 ∈ (lagging .reconfigure).hub.due ∧
      (lagging .reconfigure).hub.zones.z2.state = .fadingOut .reconfigure ∧
      (lagging .reconfigure).hub.zones.z2.gain = -1 ∧ (lagging .reconfigure).hub.zones.z2.pending.layout = false ∧
      (lagging .reconfigure).hub.zones.z2.pending.decode = false := by
  unfold State.ready State.delivered
  decide

/-- R53, R71: RECONFIGURE adopts the derived pair; R70: SWITCH hands the new source over with the table's pair; POWER_OFF
takes the source away. -/
theorem test_fade_items :
    (after (.fadeOutEnd .main) (handing .reconfigure)).hub.decoder.active = ⟨.matrix, .asRequested⟩ ∧
      (after (.fadeOutEnd .main) (handing .reconfigure)).hub.decoder.itemPending = false ∧
      (after (.fadeOutEnd .main) (handing .switch)).hub.decoder.source = some 3 ∧
      (after (.fadeOutEnd .main) (handing .switch)).hub.decoder.active = ⟨.direct, .auto⟩ ∧
      (after (.fadeOutEnd .main) (handing .switch)).hub.clock.reference = some 3 ∧
      (after (.fadeOutEnd .main) (handing .powerOff)).hub.decoder.source = none := by decide +kernel

/-- A decode source, the main zone in a given state, with or without a DECODE item pending. -/
def decoding (st : ZoneState) (item : Bool) : State :=
  on fun h =>
    { (zoned st true).hub with decoder := { h.decoder with source := some 2, itemPending := item } }

theorem witness_decode_mode :
    (decoding .playing false).listens .a ∧ (decoding .playing false).delivered ∧
      (decoding .playing false).hub.decoder.source = some 2 ∧ awake.hub.decoder.source = none ∧
      RequestedMode.auto = awake.hub.decoder.requested ∧ false = awake.hub.decoder.autoMatrix ∧
      (⟨.direct, .fold2NeedsMultichannel⟩ : DecodePair) ≠ (decoding .playing false).hub.decoder.active ∧
      (⟨.direct, .auto⟩ : DecodePair) = (decoding .playing false).hub.decoder.active ∧
      (decoding .playing true).hub.decoder.itemPending = true ∧
      (decoding .waiting false).hub.zones.main.state = .waiting ∧
      (decoding (.fadingOut .switch) false).hub.zones.main.state = .fadingOut .switch := by
  unfold State.listens State.delivered
  decide

/-- A position with a lane and without, and the same without a SUB. -/
theorem witness_layout_derivation :
    (deriveLayoutOf Renderer.reset.entries ⟨true, 300, 0⟩ 1 lanesReset).present.getLsbD 2 = true ∧
      (deriveLayoutOf Renderer.reset.entries ⟨true, 300, 0⟩ 1 lanesReset).present.getLsbD 5 = false ∧
      (deriveLayoutOf Renderer.reset.entries ⟨true, 300, 0⟩ 1 lanesReset).crossover = some 1 ∧
      (deriveLayoutOf Renderer.reset.entries ⟨false, 300, 0⟩ 1 lanesReset).crossover = none := by decide +kernel

/-- `awake` with no SUB. -/
def withoutSub : State := on fun h => { h with renderer := { h.renderer with sub := ⟨false, 300, 0⟩ } }

theorem witness_layout_requests :
    awake.listens .a ∧ awake.delivered ∧ (6 : Word).toNat = (6 : Position).val ∧ (1 : Word).toNat = (1 : Position).val ∧
      (1 : Word) = (if true then 1 else 0) ∧ (0 : Word) = (if false then 1 else 0) ∧
      withoutSub.hub.renderer.sub.present = false ∧ awake.hub.renderer.sub.present = true ∧
      awake.hub.renderer.entries[0] = ⟨true, false, 300, 0⟩ ∧
      (∀ l : LaneId, awake.hub.lanes[l].faultInput = false) ∧ (4 : Word).toNat ≤ 4 ∧
      (4 : Word).toNat ≠ awake.hub.renderer.crossover ∧ (1 : Word).toNat = awake.hub.renderer.crossover := by
  unfold State.listens State.delivered
  decide

theorem witness_fault_layout :
    (found .faultLayout fun h => { h with renderer := { h.renderer with faultAdoption := true } }).ready ∧
      Due.faultLayout ∈
        (found .faultLayout fun h => { h with renderer := { h.renderer with faultAdoption := true } }).hub.due ∧
      (found .faultLayout fun h =>
        { h with renderer := { h.renderer with faultAdoption := true } }).hub.renderer.faultAdoption = true := by
  unfold State.ready State.delivered
  decide

/-! ### What one block's change leads to in the others -/

/-- R179: the sixteen data words of IDENTIFY, as its list gives them. -/
theorem test_identify_words :
    ((after (.identify .b) awake).ports.get .b).slot.map (fun r => r.words) =
      some [0x8420, 1, 1, 2, 3, 8, 3, 11, 40, 48, 16, 3, 0, 1, 0, 0] := by decide +kernel

/-- R190: STANDBY at once, with every zone OFF and with the main zone WAITING; and not at once, with the zone playing. -/
theorem witness_standby_at_once :
    awake.listens .a ∧ awake.delivered ∧ (after (.enterStandby .a) awake).hub.standby.power = .standby ∧
      (zoned .waiting true).hub.standby.power = .active ∧ (zoned .waiting true).hub.zones.main.state = .waiting ∧
      (zoned .waiting true).hub.zones.main.power = true ∧
      (∀ l : LaneId, (zoned .waiting true).hub.lanes[l].relay = .open) ∧
      (after (.enterStandby .a) (zoned .waiting true)).hub.standby.power = .standby ∧
      (after (.enterStandby .a) (zoned .playing true)).hub.standby.power = .enteringStandby := by
  unfold State.listens State.delivered
  decide +kernel

/-- SA0 in a given state, the main zone, whose source it is, in a given state, and the clock that follows it in a given
state, with the record of SA0 changed. -/
def linked (st : SourceState) (zone : ZoneState) (clock : ClockState) (f : Source → Source) : State :=
  { withSource 2 (f (source st false)) with
    hub := { (zoned zone true).hub with
      clock := { awake.hub.clock with state := clock, reference := some 2 }
      due := [.sourceAbsent 2, .slipRestart 2] } }

/-- SA0 about to restart from a given state. -/
def relinked (st : SourceState) (zone : ZoneState) (clock : ClockState) : State :=
  linked st zone clock fun x => { x with change := some .restart, buffer := List.replicate x.prefill Frame.zero }

/-- R36: an ENTER_STANDBY that turns a WAITING main zone off and reaches STANDBY at once makes the reference none and stops
the unit, with a CLOCK_STATE for each (notes/assumptions/78.md). -/
theorem test_clock_states_of_standby :
    let s := linked .prefill .waiting .holdover id
    (((s.onHub (Hub.beginStandby s.sources .a)).takeStandbyEntry).hub.outbox.filter fun n =>
        decide (n.kind = .clockState)) =
      [⟨.clockState, 0, 241⟩, ⟨.clockState, 0, 240⟩] := by decide +kernel

/-- A source that leaves RUNNING while the main zone plays it, fades it in, waits for it and fades it out for each purpose,
the clock following it in each state; and one that enters it while the zone waits and the clock is in FREE or HOLDOVER. -/
theorem witness_reactions :
    (relinked .running .playing .locked).ready ∧
      (relinked .running .playing .locked).sources[2].change = some .restart ∧
      (relinked .running .playing .locked).sources[2].state = .running ∧
      (relinked .running .playing .locked).hub.zones.main.current = some 2 ∧
      (relinked .running .playing .locked).hub.zones.main.state = .playing ∧
      (relinked .running .fadingIn .acquiring).hub.zones.main.state = .fadingIn ∧
      (relinked .running .waiting .free).hub.zones.main.state = .waiting ∧
      (∀ z ∈ [ZoneId.main, .z2, .z3], ((relinked .running .playing .locked).hub.zone z).pending.layout = false ∧
        ((relinked .running .playing .locked).hub.zone z).pending.decode = false) ∧
      (relinked .running (.fadingOut .switch) .locked).hub.zones.main.state = .fadingOut .switch ∧
      (relinked .running (.fadingOut .reconfigure) .locked).hub.zones.main.state = .fadingOut .reconfigure ∧
      (relinked .running (.fadingOut .powerOff) .locked).hub.zones.main.state = .fadingOut .powerOff ∧
      (relinked .running .playing .locked).hub.clock.running = true ∧
      (relinked .running .playing .locked).hub.clock.mode = .auto ∧
      (relinked .running .playing .locked).hub.clock.reference = some 2 ∧
      (relinked .prefill .waiting .free).sources[2].state = .prefill ∧
      (relinked .prefill .waiting .free).sources[2].prefill ≤ (relinked .prefill .waiting .free).sources[2].buffer.length ∧
      (relinked .prefill .waiting .holdover).hub.clock.holdover < 8 ∧
      (restarting .prefill).sources[2].buffer.length < (restarting .prefill).sources[2].prefill ∧
      (linked .prefill .waiting .locked fun x => { x with absence := 8 }).sources[2].state = .prefill ∧
      Due.sourceAbsent 2 ∈ (linked .prefill .waiting .locked fun x => { x with absence := 8 }).hub.due := by
  unfold State.ready State.delivered
  decide +kernel

/-- R55, R32: a restart from PLAYING leaves the zone waiting in silence and the clock in HOLDOVER. -/
theorem test_restart_silences :
    (after (.pendingIntakeChange 2) (relinked .running .playing .locked)).hub.zones.main.state = .waiting ∧
      (after (.pendingIntakeChange 2) (relinked .running .playing .locked)).hub.zones.main.gain = -1 ∧
      (after (.pendingIntakeChange 2) (relinked .running .playing .locked)).hub.clock.state = .holdover := by
  decide +kernel

/-- R56, R32: an entry to RUNNING starts the fade-in and the clock acquires; R54, R55: a departure ends the fade to OFF. -/
theorem test_entry_and_end :
    (after (.pendingIntakeChange 2) (relinked .prefill .waiting .holdover)).hub.zones.main.state = .fadingIn ∧
      (after (.pendingIntakeChange 2) (relinked .prefill .waiting .holdover)).hub.clock.state = .acquiring ∧
      (after (.pendingIntakeChange 2) (relinked .running (.fadingOut .powerOff) .locked)).hub.zones.main.current = none ∧
      (after (.pendingIntakeChange 2) (relinked .running (.fadingOut .powerOff) .locked)).hub.zones.main.state = .off := by
  decide +kernel

/-- PA1 about to take new groups, the main zone in a given state with PA1 its current and its decode source. -/
def regroupingFor (st : SourceState) (zone : ZoneState) (decodes : Bool) : State :=
  { withSource 1 { source st true with change := some (.newGroups 3 4), maskA := 15, maskB := 1, channels := 31 } with
    hub := { (zoned zone true).hub with
      zones := (zoned zone true).hub.zones.set .main { (zoned zone true).hub.zones.main with current := some 1 }
      decoder := { awake.hub.decoder with source := if decodes then some 1 else none, requested := .matrix } } }

theorem witness_new_groups :
    (regroupingFor .running .playing true).ready ∧
      (regroupingFor .running .playing true).sources[1].change = some (.newGroups 3 4) ∧
      (regroupingFor .running .playing true).sources[1].state = .running ∧
      (regroupingFor .running .playing true).sources[1].channels ≠ (0 : Channels) ∧
      (regroupingFor .running .playing true).hub.decoder.source = some 1 ∧
      (regroupingFor .running .playing true).hub.decoder.itemPending = false ∧
      (regroupingFor .running .playing true).hub.zones.main.current = some 1 ∧
      (regroupingFor .running .playing true).hub.zones.main.state = .playing ∧
      (regroupingFor .prefill .waiting true).sources[1].state ≠ .running ∧
      (regroupingFor .prefill .waiting true).hub.zones.main.state = .waiting ∧
      (regroupingFor .prefill .waiting false).hub.decoder.source ≠ some 1 ∧
      (⟨.matrix, .asRequested⟩ : DecodePair) ≠ (regroupingFor .running .playing true).hub.decoder.active := by
  unfold State.ready State.delivered
  decide +kernel

/-- R72: in either order the zone waits in silence with the new mode in force. -/
theorem test_new_groups_derive :
    (after (.pendingIntakeChange 1) (regroupingFor .running .playing true)).hub.decoder.active =
        ⟨.matrix, .asRequested⟩ ∧
      (after (.pendingIntakeChange 1) (regroupingFor .running .playing true)).hub.zones.main.state = .waiting := by
  decide +kernel

/-- A serial source in a given state, one bit short of a block that a block before it confirms, with a buffer. -/
def confirming (st : SourceState) (n : Nat) (r : Option StatusRecord) : State :=
  { filled st n with
    sources := (filled st n).sources.set 2
      { (filled st n).sources[2] with assembly := .collecting 159 statusBits, prevBlock := some statusBlock, adopted := r } }

/-- A confirmed block of a record that plays, and of one that does not, new or held already, in each state. -/
theorem witness_serial_reactions :
    (confirming .running 5 none).ready ∧ (confirming .running 5 none).settled ∧
      (confirming .running 5 none).sources[2].adopted ≠ some ⟨false, 2, .w16, 0⟩ ∧
      (confirming .running 5 (some ⟨false, 2, .w16, 0⟩)).sources[2].adopted = some ⟨false, 2, .w16, 0⟩ ∧
      (confirming .prefill 31 none).sources[2].prefill ≤ (confirming .prefill 31 none).sources[2].buffer.length + 1 ∧
      ¬ (confirming .prefill 3 none).sources[2].prefill ≤ (confirming .prefill 3 none).sources[2].buffer.length + 1 ∧
      (confirming (.unusable .rate) 0 none).sources[2].state = .unusable .rate ∧
      recordOf (statusBlock ^^^ BitVec.ofNat 160 (1 + 2 ^ 152)) = some ⟨true, 2, .w16, 0⟩ ∧
      (filled .prefill 31).sources[2].prefill ≤ (filled .prefill 31).sources[2].buffer.length + 1 ∧
      ¬ (filled .prefill 3).sources[2].prefill ≤ (filled .prefill 3).sources[2].buffer.length + 1 ∧
      1 < (filled .absent 0).sources[2].prefill ∧ playable (some ⟨true, 2, .w16, 0⟩) = false := by
  unfold State.ready State.delivered State.settled
  decide +kernel

/-- PA0 with full masks in a given state, with a pending frame, a last sequence and a buffer. -/
def packed (st : SourceState) (n : Nat) (last : Option Nat) (pend : Option PendingFrame) : State :=
  withSource 0
    { source st true with
      maskA := 15, maskB := 15, channels := 255, lastSeq := last, pendingFrame := pend
      buffer := List.replicate n Frame.zero, lastWritten := some Frame.zero }

/-- Headers with sequence 1: of group A and of group B with full masks, and of group A with a new mask. -/
theorem witness_packet_headers :
    ([0x7901, 0, 0, 0, 0].map encodeWord).map (fun w => (checkWord w).data?) =
        [some 0x7901, some 0, some 0, some 0, some 0] ∧
      ([0x1901, 0, 0, 0, 0].map encodeWord).map (fun w => (checkWord w).data?) =
        [some 0x1901, some 0, some 0, some 0, some 0] ∧
      (0x7901 : BitVec 26).toNat / 256 % 8 = (packed .running 5 none none).sources[0].groupA ∧
      (0x7A01 : BitVec 26).toNat / 256 % 8 = (packed .running 5 none none).sources[0].groupB ∧
      (0x7A01 : BitVec 26).toNat / 256 % 8 ≠ (packed .running 5 none none).sources[0].groupA ∧
      (0x7901 : BitVec 26).toNat % 256 = 1 ∧ ((0x7901 : BitVec 26) >>> 11).setWidth 4 = (15 : BitVec 4) ∧
      ((0x1901 : BitVec 26) >>> 11).setWidth 4 = (3 : BitVec 4) ∧ ((0x7A01 : BitVec 26) >>> 11).setWidth 4 = (15 : BitVec 4) ∧
      (((15 : BitVec 4) ++ (15 : BitVec 4) : Channels) = (packed .running 5 none none).sources[0].channels) ∧
      (((15 : BitVec 4) ++ (3 : BitVec 4) : Channels) ≠ (packed .running 5 none none).sources[0].channels) ∧
      ((0 : BitVec 26).getLsbD 25 = false) ∧ ((0x3000000 : BitVec 26).getLsbD 25 = true) := by
  decide +kernel

/-- A new channel set in RUNNING and PREFILL; a late duplicate and a duplicate; no frame pending, one of the same sequence
and one of another; a gap of 0, 2 and 6; a full buffer, one that a frame fills to its target, and each other state. -/
theorem witness_packet_clauses :
    (packed .running 5 none none).ready ∧ (packed .running 5 none none).settled ∧
      (packed .running 5 none none).hub.standby.power ≠ .standby ∧
      (packed .running 5 none none).hub.decoder.source ≠ some 0 ∧ (packed .prefill 5 none none).sources[0].state ≠ .running ∧
      (packed .running 5 (some 1) none).sources[0].lastSeq = some 1 ∧
      (packed .running 5 none (some ⟨1, some ⟨1, 2, 3, 4⟩, none⟩)).sources[0].pendingFrame =
        some ⟨1, some ⟨1, 2, 3, 4⟩, none⟩ ∧
      (packed .running 5 (some 3) (some ⟨6, some ⟨1, 2, 3, 4⟩, none⟩)).sources[0].pendingFrame =
        some ⟨6, some ⟨1, 2, 3, 4⟩, none⟩ ∧
      (1 = (255 + 0) % 255 + 1) ∧ (6 = (3 + 2) % 255 + 1) ∧ (6 = (254 + 6) % 255 + 1) ∧
      (packed .running 5 none none).sources[0].lastWritten = some Frame.zero ∧
      (packed .running 61 none none).sources[0].buffer.length + 2 < 64 ∧
      64 ≤ (packed .running 64 none none).sources[0].buffer.length ∧
      (packed .prefill 31 none none).sources[0].prefill ≤ (packed .prefill 31 none none).sources[0].buffer.length + 0 + 1 ∧
      (packed .prefill 5 none none).sources[0].buffer.length + 2 + 1 < (packed .prefill 5 none none).sources[0].prefill ∧
      (packed (.unusable .rate) 0 none none).sources[0].state = .unusable .rate ∧
      (packed .absent 0 none none).sources[0].state = .absent ∧ 1 < (packed .absent 0 none none).sources[0].prefill ∧
      (packed .running 5 none none).sources[0].assembly = .waiting := by
  unfold State.ready State.delivered State.settled
  decide +kernel

/-- R6: a new mask in RUNNING restarts the intake; R7: a late duplicate is rejected; R7, R8: a group A packet of sequence 7
completes the frame 6 with zero channels, after two fills of the gap from 3, and starts frame 7. -/
theorem test_packet_paths :
    (after (.packetArrival 0 ([0x1901, 0, 0, 0, 0].map encodeWord)) (packed .running 5 (some 8) none)).sources[0].state =
        .prefill ∧
      (after (.packetArrival 0 ([0x1901, 0, 0, 0, 0].map encodeWord)) (packed .running 5 (some 8) none)).sources[0].channels =
        0xF3 ∧
      (after (.packetArrival 0 ([0x7901, 0, 0, 0, 0].map encodeWord))
          (packed .running 5 (some 1) none)).sources[0].counters = { SourceCounters.zero with wordsRejected := 1 } ∧
      ((after (.packetArrival 0 ([0x7907, 0, 0, 0, 0].map encodeWord))
          (packed .running 5 (some 3) (some ⟨6, some ⟨1, 2, 3, 4⟩, none⟩))).sources[0].buffer.drop 7 =
        [⟨1, 2, 3, 4, 0, 0, 0, 0⟩]) ∧
      (after (.packetArrival 0 ([0x7907, 0, 0, 0, 0].map encodeWord))
          (packed .running 5 (some 3) (some ⟨6, some ⟨1, 2, 3, 4⟩, none⟩))).sources[0].pendingFrame =
        some ⟨7, some ⟨0, 0, 0, 0⟩, none⟩ := by decide +kernel

/-- R17: the status bit of an accepted group A packet, alone with the block-start flag, starts a block. -/
theorem test_packet_status_bit :
    (after (.packetArrival 0 ([0x7901, 0x3000000, 0, 0, 0].map encodeWord)) (packed .running 5 none none)).sources[0].assembly =
        .collecting 1 1 ∧
      (after (.packetArrival 0 ([0x7A01, 0x3000000, 0, 0, 0].map encodeWord)) (packed .running 5 none none)).sources[0].assembly =
        .waiting := by decide +kernel

/-- Each zone's power setting and selected source, and a holder. -/
def wanting (a b c : Bool) (holder : Option ZoneId) : State :=
  on fun h =>
    { h with
      zones :=
        ⟨{ h.zones.main with power := a, selected := 6 }, { h.zones.z2 with power := b, selected := 6 },
          { h.zones.z3 with power := c, selected := 6 }⟩
      radio := { h.radio with holder := holder } }

/-- R133: the holder passes to the first zone that qualifies in the order MAIN, Z2, Z3, stays while it qualifies, and is
none where none does. -/
theorem test_holder :
    (after (.zonePowerOff .a 0) (wanting true true true (some .main))).hub.radio.holder = some .z2 ∧
      (after (.zonePowerOff .a 1) (wanting false true true (some .z2))).hub.radio.holder = some .z3 ∧
      (after (.zonePowerOff .a 2) (wanting false false true (some .z3))).hub.radio.holder = none ∧
      (after (.zonePowerOn .a 0 1) (wanting false true false (some .z2))).hub.radio.holder = some .z2 ∧
      (after (.selectSource .a 1 0) (wanting true true false (some .z2))).hub.radio.holder = some .main := by
  decide +kernel

theorem witness_holder :
    (wanting true true true (some .main)).listens .a ∧ (wanting true true true (some .main)).delivered ∧
      (wanting true true true (some .main)).hub.zones.main.power = true ∧
      (wanting false true false (some .z2)).hub.zones.main.power = false ∧
      (wanting false true false (some .z2)).hub.radio.holder = some .z2 ∧
      (wanting true true false (some .z2)).hub.standby.power = .active := by
  unfold State.listens State.delivered
  decide

/-- The layout that SET_SPEAKER makes of the reset table with C absent. -/
def withoutCentre : Layout :=
  deriveLayoutOf (awake.hub.renderer.entries.set 2 ⟨false, true, 300, 0⟩) awake.hub.renderer.sub
    awake.hub.renderer.crossover awake.hub.lanes

theorem witness_raises_layout :
    withoutCentre ≠ (zoned .playing true).hub.renderer.derived ∧ withoutCentre ≠ (zoned .playing true).hub.renderer.inForce ∧
      (zoned .playing true).hub.renderer.itemPending = false ∧ (zoned .playing true).listens .a ∧
      (zoned .playing true).delivered ∧ (zoned .playing true).hub.zones.main.state = .playing ∧
      (zoned .waiting true).hub.zones.main.state = .waiting ∧ (zoned .off false).hub.zones.main.state = .off ∧
      (zoned (.fadingOut .switch) true).hub.zones.main.state = .fadingOut .switch ∧
      ¬ ((300 : Word).toNat = 300 ∧ false = awake.hub.renderer.sub.present) ∧
      (∀ l : LaneId, (zoned .playing true).hub.lanes[l].faultInput = false) := by
  unfold State.listens State.delivered
  decide +kernel

/-- R86, R50: the item sends a main zone that plays into a fade and is pending; R87: one that waits adopts it at once. -/
theorem test_layout_item :
    (after (.setSpeaker .a 2 0 1 300 0) (zoned .playing true)).hub.zones.main.state = .fadingOut .reconfigure ∧
      (after (.setSpeaker .a 2 0 1 300 0) (zoned .playing true)).hub.renderer.itemPending = true ∧
      (after (.setSpeaker .a 2 0 1 300 0) (zoned .playing true)).hub.renderer.inForce = awake.hub.renderer.inForce ∧
      (after (.setSpeaker .a 2 0 1 300 0) (zoned .waiting true)).hub.renderer.inForce = withoutCentre ∧
      (after (.setSpeaker .a 2 0 1 300 0) (zoned .waiting true)).hub.renderer.itemPending = false := by decide +kernel

/-- A main zone at the end of a fade with a LAYOUT item pending. -/
def rebuilding (k : Purpose) : State :=
  found (.fadeOutEnd .main) fun _ =>
    let h := (zoned (.fadingOut k) true).hub
    { h with
      zones := h.zones.set .main { h.zones.main with gain := -1, pending := ⟨false, false, true⟩ }
      renderer := { h.renderer with derived := withoutCentre, itemPending := true } }

theorem witness_layout_fade :
    (rebuilding .switch).ready ∧ Due.fadeOutEnd .main ∈ (rebuilding .switch).hub.due ∧
      (rebuilding .switch).hub.zones.main.state = .fadingOut .switch ∧ (rebuilding .switch).hub.zones.main.gain = -1 ∧
      (rebuilding .switch).hub.zones.main.pending.layout = true ∧
      (rebuilding .reconfigure).hub.zones.main.state = .fadingOut .reconfigure ∧
      (rebuilding .powerOff).hub.zones.main.state = .fadingOut .powerOff ∧
      (rebuilding .switch).hub.renderer.derived ≠ (rebuilding .switch).hub.renderer.inForce := by
  unfold State.ready State.delivered
  decide +kernel

/-- R87: the end of the fade puts the derived layout in force, for the block that begins. -/
theorem test_layout_adopted :
    (after (.fadeOutEnd .main) (rebuilding .reconfigure)).hub.renderer.inForce = withoutCentre ∧
      (after (.fadeOutEnd .main) (rebuilding .reconfigure)).hub.renderer.governing = withoutCentre ∧
      (after (.fadeOutEnd .main) (rebuilding .reconfigure)).hub.renderer.itemPending = false := by decide +kernel

/-- R53: SA0 leaves at a block start while MAIN fades out to switch to SA1; the adoption moves MAIN's grant, so that it fades
out again at once, and the layout adopted governs the block that begins. -/
def refading : State :=
  let s := linked .running (.fadingOut .switch) .locked fun x => { x with absence := 8 }
  { s with sources := s.sources.set 3 (source .running false) }.onHub fun h =>
    { h with
      zones :=
        h.zones.set .main { h.zones.main with selected := 3, lipRequested := 500, pending := ⟨false, false, true⟩ }
      renderer :=
        { h.renderer with
          derived := withoutCentre, itemPending := true, inForce := { h.renderer.inForce with subDelay := 9000 } } }

theorem test_refade_governs :
    refading.ready ∧ (after (.sourceAbsent 2) refading).hub.zones.main.state = .fadingOut .reconfigure ∧
      (after (.sourceAbsent 2) refading).hub.zones.main.current = some 3 ∧
      (after (.sourceAbsent 2) refading).hub.renderer.inForce = withoutCentre ∧
      (after (.sourceAbsent 2) refading).hub.renderer.governing = withoutCentre := by
  unfold State.ready State.delivered
  decide +kernel

/-! ### Lanes and protection -/

/-- A lane in a given relay state with its timer, its ramp and its fault state. -/
def laned (d : Due) (l : LaneId) (st : Relay) (timer : Nat) (ramp : Option Nat) (fault : FaultState) : State :=
  found d fun h =>
    h.setLane l { h.lanes[l] with relay := st, timer := timer, ramp := ramp, fault := fault, retryTimer := 2000 }

theorem witness_assign_lane :
    awake.listens .a ∧ awake.delivered ∧ (10 : Word).toNat = (10 : LaneId).val ∧ (11 : Word).toNat = (11 : Fin 12).val ∧
      ((List.finRange 11).filter fun k =>
        decide (k ≠ (10 : LaneId)) && decide (awake.hub.lanes[k].assignment = (9 : Fin 12))).length = 1 ∧
      ((List.finRange 11).filter fun k =>
        decide (k ≠ (10 : LaneId)) && decide (awake.hub.lanes[k].assignment = (1 : Fin 12))).length = 1 ∧
      awake.hub.lanes[10].assignment = 0 ∧ awake.hub.lanes[10].relay = .open ∧
      awake.hub.lanes[10].faultInput = false ∧ awake.hub.lanes[10].pending = none ∧
      (laned .blockStart 10 .closed 0 none .ok).hub.lanes[10].relay = .closed ∧
      (laned .blockStart 10 .closing 0 none .ok).hub.lanes[10].relay = .closing ∧
      (laned .blockStart 10 .opening 0 none .ok).hub.lanes[10].relay = .opening := by
  unfold State.listens State.delivered
  decide

theorem witness_lane_faults :
    (laned (.retryEnd 10) 10 .open 0 none .retry).ready ∧
      (laned (.retryEnd 10) 10 .open 0 none .retry).listens .a ∧ (10 : Word).toNat = (10 : LaneId).val ∧
      (1 : Word) = (if true then 1 else 0) ∧
      Due.retryEnd 10 ∈ (laned (.retryEnd 10) 10 .open 0 none .retry).hub.due ∧
      (laned (.retryEnd 10) 10 .open 0 none .retry).hub.lanes[10].fault = .retry ∧
      (laned (.retryEnd 10) 10 .open 0 none .retry).hub.lanes[10].retryTimer = 2000 ∧
      (laned (.retryEnd 10) 10 .open 0 none .retry).hub.lanes[10].relay = .open ∧
      (laned (.retryEnd 10) 10 .open 0 none .retry).hub.lanes[10].faultInput = false ∧
      awake.hub.lanes[10].fault = .ok ∧ Due.tripExpiry 0 ∈ (laned (.tripExpiry 0) 0 .open 0 none .ok).hub.due := by
  unfold State.listens State.ready State.delivered
  decide

theorem witness_relays :
    (laned (.relayClosed 0) 0 .closing 50 none .ok).ready ∧
      Due.relayClosed 0 ∈ (laned (.relayClosed 0) 0 .closing 50 none .ok).hub.due ∧
      (laned (.relayClosed 0) 0 .closing 50 none .ok).hub.lanes[0].relay = .closing ∧
      (laned (.relayClosed 0) 0 .closing 50 none .ok).hub.lanes[0].timer = 50 ∧
      Due.rampEnd 10 ∈ (laned (.rampEnd 10) 10 .closed 0 (some 9) .ok).hub.due ∧
      (laned (.rampEnd 10) 10 .closed 0 (some 9) .ok).hub.lanes[10].relay = .closed ∧
      (laned (.rampEnd 10) 10 .closed 0 (some 9) .ok).hub.lanes[10].ramp = some 9 ∧
      Due.relayOpened 10 ∈ (laned (.relayOpened 10) 10 .opening 20 none .ok).hub.due ∧
      (laned (.relayOpened 10) 10 .opening 20 none .ok).hub.lanes[10].relay = .opening ∧
      (laned (.relayOpened 10) 10 .opening 20 none .ok).hub.lanes[10].timer = 20 ∧
      (laned (.relayOpened 10) 10 .opening 20 none .ok).hub.lanes[10].faultInput = false := by
  unfold State.ready State.delivered
  decide

theorem witness_fault_input :
    awake.ready ∧ awake.hub.lanes[0].relay = .open ∧
      (laned .blockStart 10 .closing 0 none .ok).hub.lanes[10].faultInput = false ∧
      (laned .blockStart 10 .closing 0 none .ok).hub.lanes[10].relay ≠ .open := by
  unfold State.ready State.delivered
  decide

/-- A lane that serves SR with two trips in its history and, where asked, a pending assignment. -/
def twice (pend : Option (Fin 12)) : State :=
  on fun h => h.setLane 4 { h.lanes[4] with relay := .closing, trips := [3, 2], pending := pend }

theorem witness_third_trip :
    (twice none).ready ∧ (twice none).hub.lanes[4].relay ≠ .open ∧ (twice none).hub.lanes[4].pending = none ∧
      (twice none).hub.lanes[4].fault ≠ .latchedDc ∧ (twice (some 11)).hub.lanes[4].pending ≠ none ∧
      (twice (some 11)).ready ∧ (twice (some 11)).hub.lanes[4].faultInput = false ∧
      (twice (some 11)).hub.lanes[4].relay ≠ .open ∧ (twice (some 11)).hub.lanes[4].fault ≠ .latchedDc ∧
      (laned (.relayOpened 10) 10 .opening 20 none .ok).hub.lanes[10].pending = none ∧
      (laned .blockStart 4 .open 0 none .latchedOc).hub.lanes[4].fault ≠ .ok ∧
      (laned .blockStart 4 .open 0 none .latchedOc).hub.lanes[4].fault ≠ .retry := by
  unfold State.ready State.delivered
  decide

/-- R113, R109: a trip that latches a lane which serves SR alone, with code 0 pending, where MAIN plays: the LAYOUT item of
the relay's report fades MAIN (notes/assumptions/77.md), and the layout of the fault waits for the block start. -/
theorem test_third_trip_fades :
    let s := (zoned .playing true).onHub fun h =>
      h.setLane 4 { h.lanes[4] with relay := .closed, trips := [3, 2], pending := some 0 }
    (after (.faultInputAsserted 4 true) s).hub.lanes[4].fault = .latchedOc ∧
      (after (.faultInputAsserted 4 true) s).hub.zones.main.state = .fadingOut .reconfigure ∧
      (after (.faultInputAsserted 4 true) s).hub.renderer.itemPending = true ∧
      (after (.faultInputAsserted 4 true) s).hub.renderer.faultAdoption = true := by decide +kernel

/-- R113, R86: the third trip latches the lane, whose layout waits for the next block start; R114: so does its clearing. -/
theorem test_third_trip :
    (after (.faultInputAsserted 4 true) (twice none)).hub.lanes[4].fault = .latchedOc ∧
      (after (.faultInputAsserted 4 true) (twice none)).hub.renderer.faultAdoption = true ∧
      (after (.faultInputAsserted 4 true) (twice (some 11))).hub.lanes[4].assignment = 11 ∧
      (after (.clearLaneFault .a 4 0) (laned .blockStart 4 .open 0 none .latchedOc)).hub.renderer.faultAdoption =
        true := by decide +kernel

/-- Lane 0 one reading short of a full window at the largest mean that is allowed, and lane 1 with a full one, the
rotation having come to a channel. -/
def offset (c : SenseChannel) : State :=
  (converting c).onHub fun h =>
    (h.setLane 0 { h.lanes[0] with dcWindow := List.replicate 255 100, dcSum := 25500 }).setLane 1
      { h.lanes[1] with dcWindow := List.replicate 256 100, dcSum := 25600 }

/-- A reading of 100 keeps the sum of lane 0 at 25,600, and one of 101 takes it beyond. -/
theorem witness_conversions :
    (offset 0).ready ∧ (offset 0).hub.clock.running = true ∧ State.reset.hub.clock.running = false ∧
      (offset 0).hub.protection.nextChannel = some 0 ∧ (offset 1).hub.protection.nextChannel = some 1 ∧
      awake.hub.protection.nextChannel ≠ some 0 ∧
      (offset 0).hub.lanes[0].fault = .ok ∧ (offset 0).hub.lanes[0].dcWindow.length ≤ 256 ∧
      (offset 1).hub.lanes[1].dcWindow.length = 256 ∧
      ((offset 0).hub.lanes[0].dcWindow ++ [100]).length = 256 ∧ (offset 0).hub.lanes[0].dcSum + 100 ≤ 25600 ∧
      25600 < (offset 0).hub.lanes[0].dcSum + 101 ∧ (2148 : BitVec 12).toNat = 2048 + 100 ∧
      (laned .blockStart 0 .open 0 none .latchedDc).hub.lanes[0].fault = .latchedDc := by
  unfold State.ready State.delivered
  decide +kernel

/-- A supply in a given state with a run of good conversions, its channel next. -/
def supplied (low : Bool) (run : Nat) : State :=
  (converting 13).onHub fun h => { h with protection := { h.protection with supply := ⟨low, run⟩ } }

theorem witness_supply :
    (supplied true 499).ready ∧ (supplied true 499).hub.clock.running = true ∧
      (supplied true 499).hub.protection.nextChannel = some 13 ∧
      (supplied true 499).hub.protection.supply.low = true ∧ 499 ≤ (supplied true 499).hub.protection.supply.goodRun ∧
      (supplied true 498).hub.protection.supply.goodRun < 499 ∧ (supplied false 0).hub.protection.supply.low = false ∧
      (2599 : BitVec 12).toNat < 2600 ∧ 2600 ≤ (2600 : BitVec 12).toNat ∧ (2699 : BitVec 12).toNat < 2700 ∧
      2700 ≤ (2700 : BitVec 12).toNat := by
  unfold State.ready State.delivered
  decide

/-- A part with MAIN on, whose lane 0 meets its closing conditions but for what the state says, a relay in a given state. -/
def readied (s : State) (st : Relay) : State :=
  s.onHub fun h =>
    let g := (zoned .waiting true).hub
    { h with zones := g.zones, lanes := h.lanes.set 0 { h.lanes[0] with relay := st, pending := none } }

/-- R110, R125: the supply's return closes a lane in OPEN; R111: its fall opens a lane in CLOSED. -/
theorem test_supply_moves_relays :
    (after (.senseConversion 13 2700) (readied (supplied true 499) .open)).hub.lanes[0].relay = .closing ∧
      (after (.senseConversion 13 2599) (readied (supplied false 0) .closed)).hub.lanes[0].relay = .open ∧
      (∀ l : LaneId, (readied (supplied true 499) .open).hub.lanes[l].faultInput = false) ∧
      (∀ l : LaneId, (readied (supplied false 0) .closed).hub.lanes[l].relay ≠ .open →
        (readied (supplied false 0) .closed).hub.lanes[l].pending = none) := by decide +kernel

/-- A temperature update with a code in each channel, or in none. -/
def heated (a b : Option (BitVec 12)) : State :=
  found .temperature fun h =>
    { h with
      protection :=
        { h.protection with
          sense := (h.protection.sense.set 11 a).set 12 b
          thermal := { h.protection.thermal with updateCount := 100 } } }

theorem witness_temperature :
    (heated (some 2483) (some 2400)).ready ∧ Due.temperature ∈ (heated (some 2483) (some 2400)).hub.due ∧
      (heated (some 2483) (some 2400)).hub.protection.thermal.updateCount = 100 ∧
      (heated (some 2483) (some 2400)).hub.protection.sense[11] = some 2483 ∧
      (heated none none).hub.protection.sense[12] = none ∧
      (heated none (some 3252)).hub.protection.sense[12] = some 3252 ∧ temperatureOf 3252 = 91 ∧
      (heated none none).hub.protection.thermal.trip = false := by
  unfold State.ready State.delivered
  decide

/-- A part at a temperature update with the thermal trip as given. -/
def tripped (trip : Bool) (code : BitVec 12) (st : Relay) : State :=
  readied
    ((heated (some code) none).onHub fun h =>
      { h with protection := { h.protection with thermal := { h.protection.thermal with trip := trip } } })
    st

/-- R121, R110, R111: at 91 degrees a trip opens the relay; at 60 its end closes one in OPEN. -/
theorem test_trip_moves_relays :
    (after .temperatureUpdate (tripped false 3252 .closed)).hub.lanes[0].relay = .open ∧
      (after .temperatureUpdate (tripped false 3252 .closed)).hub.protection.thermal.trip = true ∧
      (after .temperatureUpdate (tripped true 2483 .open)).hub.lanes[0].relay = .closing ∧
      (after .temperatureUpdate (tripped true 2483 .open)).hub.protection.thermal.trip = false ∧
      (∀ l : LaneId, (tripped true 2483 .open).hub.lanes[l].faultInput = false) := by decide +kernel

theorem witness_fan :
    awake.ready ∧ Due.fanDuty ∈ (found .fanDuty id).hub.due ∧ (found .fanDuty id).ready ∧
      Due.fanDuty ∉ awake.hub.due ∧ awake.hub.clock.running = true ∧ Due.fanDuty ∉ State.reset.hub.due ∧
      State.reset.hub.clock.running = false ∧ State.reset.hub.protection.fan.pwm ≤ 1023 ∧
      (found .fanWindow fun h =>
        { h with
          protection :=
            { h.protection with
              fan := { h.protection.fan with windowPos := 1000, pulses := 4, stallRun := 2 } } }).ready ∧
      (found .fanWindow fun h =>
        { h with
          protection :=
            { h.protection with
              fan := { h.protection.fan with windowPos := 1000, pulses := 4, stallRun := 2 } } }).hub.protection.fan.windowPos =
        1000 := by
  unfold State.ready State.delivered
  decide

/-! ### The radio, the link and the station data -/

theorem witness_radio_checks :
    (tuning id).listens .a ∧ (tuning id).delivered ∧ (tuning id).hub.mayMove .main ∧
      (powered .waking).hub.standby.power ≠ .active ∧ (awake.hub.zone .main).power = false ∧
      (tuning id).hub.radio.holder ≠ some .z2 ∧
      ((tuning id).onHub fun h =>
        h.setZone .z2 { h.zones.z2 with power := true, selected := 6 }).hub.zones.z2.selected.val = 6 ∧
      (tuning fun r => { r with online := false }).hub.mayMove .main ∧
      (tuning fun r => { r with online := false }).hub.radio.online = false ∧
      ({ (tuning id).hub.radio with state := .tuning } : Radio).state ≠ .idle ∧ (39 : Word).toNat < 40 ∧
      (1 : Word).toNat < 2 ∧ ∀ k : Fin 40, (tuning id).hub.radio.presets[k] = none := by
  unfold State.listens State.delivered Hub.mayMove
  decide

/-- A radio whose START sequence has not reached SET, and one in IDLE. -/
theorem witness_tuning :
    (tuning id).listens .a ∧ (tuning id).delivered ∧ (0 : Word).toNat = ZoneId.main.code ∧
      (tuning id).hub.mayMove .main ∧ (tuning id).hub.radio.online = true ∧ (tuning id).hub.radio.state ≠ .off ∧
      (tuning id).hub.radio.state ≠ .tuning ∧ (tuning id).hub.radio.plan = ⟨100, 9⟩ ∧
      (tuning fun r => { r with presets := r.presets.set 39 (some ⟨⟨.fm, 108000⟩, none, none⟩) }).hub.radio.presets[39] =
        some ⟨⟨.fm, 108000⟩, none, none⟩ ∧
      ((tuning id).onHub fun h => { h with radio := { h.radio with state := .tuning, op := some ⟨.start, .blend, 0⟩ } }
        ).hub.radio.op = some ⟨.start, .blend, 0⟩ := by
  unfold State.listens State.delivered Hub.mayMove
  decide

/-- A radio in a given state with an operation in flight. -/
def operating (st : RadioState) (k : OpKind) (phase : Phase) (n : Nat) : State :=
  (tuning id).onHub fun h => { h with radio := { h.radio with state := st, op := some ⟨k, phase, n⟩ } }

theorem witness_searches :
    (tuning id).listens .a ∧ (tuning id).delivered ∧ (tuning id).hub.mayMove .main ∧
      (tuning id).hub.radio.online = true ∧ (tuning id).hub.radio.state = .idle ∧
      (tuning id).hub.radio.held = ⟨.fm, 87500⟩ ∧ (tuning id).hub.radio.plan.step .fm = 100 ∧
      (tuning id).hub.radio.plan.lower .fm = 87500 ∧ (tuning id).hub.radio.plan.top .fm = 108000 ∧
      (tuning fun r => { r with held := ⟨.am, 1615⟩ }).hub.radio.held.band = .am ∧
      (tuning id).hub.radio.plan.top .am = 1620 ∧ (tuning id).hub.radio.plan.next .am true 1615 = 1620 ∧
      (tuning id).hub.radio.plan.next .am false 1615 = 1611 ∧ (tuning id).hub.radio.plan.next .am true 1620 = 522 ∧
      (operating .seeking (.seek .main true ⟨.fm, 98100⟩ 98200 0) .set 0).hub.mayMove .main ∧
      (operating .seeking (.seek .main true ⟨.fm, 98100⟩ 98200 0) .set 0).hub.radio.state = .seeking ∧
      (operating .followCheck (.follow 20 [98300] 0 7 0) .set 0).hub.radio.state = .followCheck ∧
      (operating .tuning .ret .set 0).hub.radio.state = .tuning := by
  unfold State.listens State.delivered Hub.mayMove
  decide

theorem witness_presets :
    awake.listens .a ∧ awake.delivered ∧ (39 : Word).toNat = (39 : Fin 40).val ∧ (0 : Word) = (if false then 1 else 0) ∧
      (1 : Word) = (if true then 1 else 0) := by
  unfold State.listens State.delivered
  decide

/-- A seek and a scan whose band's step changes, an IDLE radio that holds an AM frequency, and a radio in TUNING that
does, on its way to it and before SET. -/
theorem witness_band_plan :
    awake.listens .a ∧ awake.delivered ∧ (10 : Nat) ≠ awake.hub.radio.plan.amStep ∧ 9 = awake.hub.radio.plan.amStep ∧
      awake.hub.radio.op = none ∧ awake.hub.radio.plan.fmStep = 100 ∧
      (operating .tuning (.request .main) .measure 0).hub.radio.op = some ⟨.request .main, .measure, 0⟩ ∧
      (operating .tuning (.request .main) .measure 0).hub.radio.state = .tuning ∧
      (operating .tuning .start .blend 0).hub.radio.op = some ⟨.start, .blend, 0⟩ ∧
      (operating .followCheck (.follow 20 [98300] 0 7 0) .set 0).hub.radio.state = .followCheck ∧
      (tuning fun r => { r with held := ⟨.am, 999⟩ }).hub.radio.held.band = .am ∧
      (tuning fun r => { r with held := ⟨.am, 999⟩ }).hub.radio.state = .idle ∧
      (tuning fun r => { r with held := ⟨.am, 999⟩ }).hub.radio.online = true ∧
      (operating .seeking (.seek .main true ⟨.fm, 98100⟩ 98200 0) .set 0).hub.radio.op =
        some ⟨.seek .main true ⟨.fm, 98100⟩ 98200 0, .set, 0⟩ ∧
      (operating .scanning (.scan .main .am 522) .set 0).hub.radio.op = some ⟨.scan .main .am 522, .set, 0⟩ ∧
      (operating .scanning (.scan .main .am 522) .set 0).hub.radio.state = .scanning := by
  unfold State.listens State.delivered
  decide

/-- A RECOVERY in its phase BLEND with a blend pending that was kept through OFFLINE (R148). -/
def recovering : State :=
  (operating .tuning .recovery .blend 0).onHub fun h => { h with radio := { h.radio with blendPending := true } }

/-- R150: the blend pending goes first, and the SET_BLEND of the phase after it (notes/assumptions/65.md). -/
theorem test_blends_of_a_recovery :
    recovering.hub.radio.online = true ∧ recovering.hub.radio.op = some ⟨.recovery, .blend, 0⟩ ∧
      (after .linkMessageSend recovering).hub.radio.exchange.map Exchange.use = some .blend ∧
      (after .linkMessageSend recovering).hub.radio.blendPending = false ∧
      (after .linkMessageSend recovering).hub.radio.op = some ⟨.recovery, .blend, 0⟩ ∧
      (after .linkMessageSend (operating .tuning .recovery .blend 0)).hub.radio.exchange.map Exchange.use =
        some .step := by decide +kernel

/-- Each message that can wait: a SET_BLEND, an operation in each phase that sends, and the two polls. -/
theorem witness_link_send :
    (talking .status .probe id).ready ∧ (talking .status .probe id).hub.radio.exchange ≠ none ∧
      (tuning fun r => { r with blendPending := true }).hub.radio.blendPending = true ∧
      (tuning id).hub.radio.exchange = none ∧ (tuning id).hub.radio.blendPending = false ∧
      (operating .tuning .start .status 0).hub.radio.op = some ⟨.start, .status, 0⟩ ∧
      (operating .tuning .start .blend 0).hub.radio.op = some ⟨.start, .blend, 0⟩ ∧
      (operating .tuning .ret .set 0).hub.radio.op = some ⟨.ret, .set, 0⟩ ∧
      (operating .tuning .ret .measure 0).hub.radio.op = some ⟨.ret, .measure, 0⟩ ∧
      (operating .followCheck (.follow 20 [98300] 0 7 0) .data 0).hub.radio.op =
        some ⟨.follow 20 [98300] 0 7 0, .data, 0⟩ ∧ (tuning id).hub.radio.op = none ∧
      (tuning fun r => { r with qualityWaiting := true }).hub.radio.qualityWaiting = true ∧
      (tuning fun r => { r with dataWaiting := true }).hub.radio.dataWaiting = true := by
  unfold State.ready State.delivered
  decide

theorem witness_failed_attempts :
    (tuning id).ready ∧ (tuning id).hub.radio.exchange = none ∧
      (talking .status .probe id).hub.radio.exchange = some ⟨.status, 1, .probe, 2⟩ ∧
      (talking .getQuality .poll id).hub.radio.exchange = some ⟨.getQuality, 1, .poll, 2⟩ ∧
      ((tuning id).onHub fun h =>
        h.setRadio { h.radio with exchange := some ⟨.getData, 2, .poll, 2⟩ }).hub.radio.exchange =
          some ⟨.getData, 2, .poll, 2⟩ ∧
      LinkMessage.getQuality.code ≠ 1 ∧ 6 < ([0, 0, 0, 0, 0, 0, 0] : List CodeWord).length := by
  unfold State.ready State.delivered
  decide

/-- Characters on the link, each as soon after the one before it as it can be. -/
def spoken (start : Nat) (bytes : List Byte) : List LinkCharacter :=
  bytes.zipIdx.map fun b => ⟨start + 10 * b.2, b.1⟩

/-- A reply whose first character begins at the deadline, and one that stops before its payload is whole. -/
theorem witness_link_reply :
    (talking .status .step id).hub.radio.exchange = some ⟨.status, 1, .step, 2⟩ ∧
      10 * LinkMessage.status.bytes.length + 2 = 32 ∧
      (spoken 62 [5, 2, 0, 7, 242]).map LinkCharacter.byte = 5 :: 2 :: [0, 7] ++ [242] ∧
      (∀ c ∈ spoken 62 [5, 2, 0, 7, 242], 32 ≤ c.start) ∧
      (∀ c ∈ (spoken 62 [5, 2, 0, 7, 242]).head?, c.start ≤ 32 + 30) ∧
      (∀ (k : Nat) (h : k + 1 < (spoken 62 [5, 2, 0, 7, 242]).length),
        (spoken 62 [5, 2, 0, 7, 242])[k + 1].start ≤ (spoken 62 [5, 2, 0, 7, 242])[k].start + 40) ∧
      LinkMessage.status.code = 5 ∧ (5 + 2 + ([0, 7] : List Nat).sum + 242) % 256 = 0 ∧
      ((spoken 62 [5, 2, 0]).map LinkCharacter.byte)[1]? = some 2 ∧ (spoken 62 [5, 2, 0]).length < 3 + 2 := by
  refine ⟨rfl, by decide, by decide, by decide, by decide, fun k h => ?_, rfl, by decide, by decide, by decide⟩
  have l : k < 4 := Nat.lt_of_succ_lt_succ h
  interval_cases k <;> exact Nat.le_of_ble_eq_true rfl

/-- R147: what a STATUS attempt with a turnaround of 2, which releases the line at bit time 32, comes to: a reply, one
that begins at the deadline after a character that is ignored, one a bit time later, and replies of a bad sum, a wrong
kind and an impossible length; and a reply cut short. -/
theorem test_link_outcome :
    (talking .status .step id).hub.linkOutcome (spoken 32 [5, 2, 0, 7, 242]) = some (.statusReply 7) ∧
      (talking .status .step id).hub.linkOutcome (⟨31, 9⟩ :: spoken 62 [5, 2, 0, 7, 242, 9]) = some (.statusReply 7) ∧
      (talking .status .step id).hub.linkOutcome (spoken 63 [5, 2, 0, 7, 242]) = some .linkAttemptFailed ∧
      (talking .status .step id).hub.linkOutcome (spoken 32 [5, 2, 0, 7, 241]) = some .linkAttemptFailed ∧
      (talking .status .step id).hub.linkOutcome (spoken 32 [4, 2, 0, 7, 243]) = some .linkAttemptFailed ∧
      (talking .status .step id).hub.linkOutcome (spoken 32 [5, 1, 0, 250]) = some .linkAttemptFailed ∧
      (talking .status .step id).hub.linkOutcome (spoken 32 [5, 2, 0, 7]) = some .linkAttemptFailed ∧
      (talking .getData .poll id).hub.linkOutcome (spoken 32 [3, 4, 0xC0, 0, 0x5A, 0x21, 0xBE]) =
        some (.getDataReply [0xC0005A21]) := by decide +kernel

theorem witness_replies :
    (talking (.setFreq ⟨.fm, 98100⟩) .step id).ready ∧
      (talking (.setFreq ⟨.fm, 98100⟩) .step fun r => { r with op := some ⟨.ret, .set, 0⟩ }).hub.awaits 1 .step ∧
      (talking (.setFreq ⟨.fm, 98100⟩) .step fun r => { r with op := some ⟨.ret, .set, 0⟩ }).hub.radio.op =
        some ⟨.ret, .set, 0⟩ ∧
      (talking (.setFreq ⟨.fm, 98100⟩) .stale id).hub.awaits 1 .stale ∧
      (talking (.setBlend true) .step id).hub.awaits 4 .step ∧ (talking (.setBlend true) .blend id).hub.awaits 4 .blend ∧
      (talking .status .step id).hub.awaits 5 .step ∧ (talking .status .probe id).hub.awaits 5 .probe ∧
      (talking .status .stale id).hub.awaits 5 .stale := by
  unfold State.ready State.delivered Hub.awaits
  exact ⟨⟨rfl, rfl⟩, ⟨_, rfl, rfl, rfl⟩, rfl, ⟨_, rfl, rfl, rfl⟩, ⟨_, rfl, rfl, rfl⟩, ⟨_, rfl, rfl, rfl⟩, ⟨_, rfl, rfl, rfl⟩,
    ⟨_, rfl, rfl, rfl⟩, ⟨_, rfl, rfl, rfl⟩⟩

/-- A GET_QUALITY exchange that a step of an operation made. -/
def measuring (k : OpKind) (stations : List StationEntry) : State :=
  talking .getQuality .step fun r => { r with op := some ⟨k, .measure, 0⟩, stations := stations }

/-- 48 station list entries of level 30. -/
def fullList : List StationEntry := (List.range 48).map fun k => ⟨⟨.fm, 87500 + 100 * k⟩, 30, none, none⟩

theorem witness_quality :
    (measuring .ret []).ready ∧ (measuring .ret []).hub.awaits 2 .step ∧
      (talking .getQuality .poll id).hub.awaits 2 .poll ∧ (talking .getQuality .poll id).hub.radio.state = .idle ∧
      (talking .getQuality .stale id).hub.awaits 2 .stale ∧
      (measuring .ret []).hub.radio.op = some ⟨.ret, .measure, 0⟩ ∧
      (measuring (.seek .main true ⟨.fm, 87500⟩ 87600 0) []).hub.radio.op =
        some ⟨.seek .main true ⟨.fm, 87500⟩ 87600 0, .measure, 0⟩ ∧
      (measuring (.scan .main .fm 108000) []).hub.radio.op = some ⟨.scan .main .fm 108000, .measure, 0⟩ ∧
      (measuring (.follow 20 [98300] 0 7 0) []).hub.radio.op = some ⟨.follow 20 [98300] 0 7 0, .measure, 0⟩ := by
  unfold State.ready State.delivered Hub.awaits
  exact ⟨⟨rfl, rfl⟩, ⟨_, rfl, rfl, rfl⟩, ⟨_, rfl, rfl, rfl⟩, rfl, ⟨_, rfl, rfl, rfl⟩, rfl, rfl, rfl, rfl⟩

/-- A level and noise at the thresholds of an FM seek, and those just outside; a seek that has come round, one with a
point to go and one at its last; a full list whose levels are all as high as a new entry's, and one with a lower. -/
theorem witness_quality_bounds :
    (measuring .ret []).hub.radio.options.fmLevel ≤ min 120 (30 : Byte).toNat ∧
      min 100 (40 : Byte).toNat ≤ (measuring .ret []).hub.radio.options.fmNoise ∧
      ¬ (measuring .ret []).hub.radio.options.fmLevel ≤ min 120 (29 : Byte).toNat ∧
      BandPlan.next ⟨100, 9⟩ .fm true 108000 = 87500 ∧ BandPlan.next ⟨100, 9⟩ .fm true 87500 ≠ 87500 ∧
      204 + 1 < BandPlan.points ⟨100, 9⟩ .fm ∧ BandPlan.points ⟨100, 9⟩ .fm ≤ 205 + 1 ∧
      BandPlan.top ⟨100, 9⟩ .fm ≤ 108000 ∧ 107900 < BandPlan.top ⟨100, 9⟩ .fm ∧ 48 ≤ fullList.length ∧
      (∀ a ∈ fullList, 30 ≤ a.level) ∧ (∃ a ∈ fullList, a.level < 31) ∧ 20 + 6 ≤ min 120 (26 : Byte).toNat ∧
      min 120 (25 : Byte).toNat < 20 + 6 := by decide +kernel

/-- R142: an AM entry stands after the FM ones and an FM entry among them; a full list gives up the first of its weakest
entries for a stronger one, which takes its own place in list order. -/
theorem test_station_list_order :
    (after (.getQualityReply 45 10 0) (measuring (.scan .main .fm 87700)
        [⟨⟨.fm, 87600⟩, 30, none, none⟩, ⟨⟨.fm, 87900⟩, 31, none, none⟩, ⟨⟨.am, 522⟩, 60, none, none⟩])).hub.radio.stations =
        [⟨⟨.fm, 87600⟩, 30, none, none⟩, ⟨⟨.fm, 87900⟩, 31, none, none⟩, ⟨⟨.am, 522⟩, 60, none, none⟩].insertIdx 1
          ⟨⟨.fm, 87700⟩, 45, none, none⟩ ∧
      (after (.getQualityReply 45 10 0) (measuring (.scan .main .fm 108000) fullList)).hub.radio.stations =
        fullList.tail ++ [⟨⟨.fm, 108000⟩, 45, none, none⟩] := by decide +kernel

/-- A list of three with its weakest entry in the middle, and the place of another entry in what it leaves. -/
theorem witness_station_list :
    weakestOf [⟨⟨.fm, 87600⟩, 30, none, none⟩, ⟨⟨.fm, 87700⟩, 25, none, none⟩, ⟨⟨.am, 522⟩, 25, none, none⟩]
        ⟨⟨.fm, 87700⟩, 25, none, none⟩ [⟨⟨.fm, 87600⟩, 30, none, none⟩, ⟨⟨.am, 522⟩, 25, none, none⟩] ∧
      placedIn ⟨⟨.fm, 108000⟩, 45, none, none⟩ [⟨⟨.fm, 87600⟩, 30, none, none⟩, ⟨⟨.am, 522⟩, 25, none, none⟩]
        [⟨⟨.fm, 87600⟩, 30, none, none⟩, ⟨⟨.fm, 108000⟩, 45, none, none⟩, ⟨⟨.am, 522⟩, 25, none, none⟩] ∧
      (fullList.map fun a => a.freq.khz).Pairwise (· < ·) ∧ (∀ a ∈ fullList, a.freq ≠ ⟨.fm, 108000⟩) ∧
      (∀ a ∈ fullList, a.freq.band = .fm) := by
  refine ⟨⟨[⟨⟨.fm, 87600⟩, 30, none, none⟩], [⟨⟨.am, 522⟩, 25, none, none⟩], rfl, rfl, by simp, by simp⟩,
    ⟨[⟨⟨.fm, 87600⟩, 30, none, none⟩], [⟨⟨.am, 522⟩, 25, none, none⟩], rfl, rfl, by simp [Freq.precedes],
      by simp [Freq.precedes]⟩, ?_⟩
  decide +kernel

/-- A radio whose counts have run out: an event found and an operation at the end of its phase. -/
def counted (d : Due) (k : OpKind) (phase : Phase) (n : Nat) : State :=
  (operating .tuning k phase n).onHub fun h => { h with due := [d] }

theorem witness_counts :
    (counted .settleEnd .ret .settle 30).ready ∧ Due.settleEnd ∈ (counted .settleEnd .ret .settle 30).hub.due ∧
      (counted .settleEnd .ret .settle 30).hub.radio.op = some ⟨.ret, .settle, 30⟩ ∧
      (counted .settleEnd .ret .settle 30).hub.radio.held.band = .fm ∧
      (counted .settleEnd (.scan .main .am 522) .settle 60).hub.radio.op = some ⟨.scan .main .am 522, .settle, 60⟩ ∧
      (counted .followSettleEnd (.follow 20 [98300] 0 7 0) .settle 30).hub.radio.op =
        some ⟨.follow 20 [98300] 0 7 0, .settle, 30⟩ ∧
      (counted .followWaitEnd (.follow 20 [98300] 0 7 0) .wait 30).hub.radio.op =
        some ⟨.follow 20 [98300] 0 7 0, .wait, 30⟩ := by
  unfold State.ready State.delivered
  decide

/-- R136, R152: GET_RADIO carries a settle count of 0 in MEASURE (notes/assumptions/79.md). -/
theorem test_settle_count_after_settle :
    (radioView (after .settleEnd (counted .settleEnd .ret .settle 30)).hub.radio).op = some ⟨.ret, .measure, 0⟩ := by
  decide +kernel

/-- An IDLE radio on FM with a data poll, a quality poll and a follow check due. -/
def polling : State :=
  (tuning fun r => { r with report := some ⟨24, 60, false, ⟨.fm, 87500⟩⟩ }).onHub fun h =>
    { h with
      station := { h.station with code := some 7, alternatives := [98300], weakRun := some 2000 }
      due := [.dataPoll, .qualityPoll, .followTrigger] }

theorem witness_polls :
    polling.ready ∧ polling.hub.radio.state = .idle ∧ polling.hub.radio.held.band = .fm ∧
      polling.hub.radio.online = true ∧ Due.dataPoll ∈ polling.hub.due ∧ Due.qualityPoll ∈ polling.hub.due ∧
      Due.followTrigger ∈ polling.hub.due ∧ polling.hub.radio.options.follow = true ∧
      polling.hub.station.alternatives ≠ [] ∧ polling.hub.station.weakRun = some 2000 ∧
      polling.hub.station.backOff = 0 ∧ polling.hub.station.code = some 7 ∧
      polling.hub.radio.report = some ⟨24, 60, false, ⟨.fm, 87500⟩⟩ ∧
      Due.linkProbe ∈
        ((tuning fun r => { r with online := false }).onHub fun h => { h with due := [.linkProbe] }).hub.due ∧
      (tuning fun r => { r with online := false }).hub.radio.op = none := by
  unfold State.ready State.delivered
  decide

/-- A GET_DATA poll in flight over a given station record. -/
def reading (x : Station) : State := (talking .getData .poll id).onHub fun h => { h with station := x }

theorem witness_station_words :
    (reading Station.reset).ready ∧ (reading Station.reset).hub.awaits 3 .poll ∧
      (reading Station.reset).hub.radio.state = .idle ∧ ([0, 0, 0, 0, 0, 0] : List CodeWord).length ≤ 6 ∧
      ([0, 0, 0, 0, 0] : List CodeWord).length < 6 :=
  ⟨⟨rfl, rfl⟩, ⟨_, rfl, rfl, rfl⟩, rfl, by decide, by decide⟩

/-- A reply of one word can be taken: the premise of the clause on the words after the first. -/
theorem witness_first_word : ∃ t, exec (.getDataReply [0xC0005A21]) (reading Station.reset) = .next t := ⟨_, rfl⟩

/-- 8.10: the six segments of the name RIVERSIDE FM. -/
def riverside : Vector NameSegment 6 :=
  #v[⟨some 0x5249, none⟩, ⟨some 0x5645, none⟩, ⟨some 0x5253, none⟩, ⟨some 0x4944, none⟩, ⟨some 0x4520, none⟩,
    ⟨some 0x464D, none⟩]

/-- 8.10: RIVERSIDE FM in twelve characters. -/
theorem witness_name :
    spells riverside [0x52, 0x49, 0x56, 0x45, 0x52, 0x53, 0x49, 0x44, 0x45, 0x20, 0x46, 0x4D] :=
  (spelledName_eq_some_iff _ _).mp (by decide +kernel)

/-- R159: a text that ends in the second place of a segment, one of 0 characters whatever stands beyond the end character,
one of all 48, and none where a segment before the end has not been received. -/
theorem witness_text :
    completes (((Vector.replicate 24 none).set 0 (some 0x4142)).set 1 (some 0x430D)) [0x41, 0x42, 0x43] ∧
      completes (((Vector.replicate 24 none).set 0 (some 0x0D42)).set 3 (some 0x0D0D)) [] ∧
      completes (Vector.replicate 24 (some 0x4142)) (List.replicate 24 [0x41, 0x42]).flatten ∧
      ∀ text, ¬ completes ((Vector.replicate 24 none).set 1 (some 0x430D)) text := by
  refine ⟨(completeText_eq_some_iff _ _).mp (by decide +kernel), (completeText_eq_some_iff _ _).mp (by decide +kernel),
    (completeText_eq_some_iff _ _).mp (by decide +kernel), fun text h => ?_⟩
  have none_ : completeText ((Vector.replicate 24 none).set 1 (some 0x430D)).toList = none := by decide +kernel
  rw [(completeText_eq_some_iff _ _).mpr h] at none_
  exact Option.some_ne_none _ none_

/-- Words of each kind with their fields at the ends of their ranges, and the codes of the list of alternatives. -/
theorem witness_word_kinds :
    checkWord 0xC0005A21 = .clean 0x5A21 ∧ checkWord 0xC0005821 = .corrected 0x5A21 ∧
      checkWord 0xC0005820 = .uncorrectable ∧ checkWord (encodeWord 0x04A0041) = .clean 0x04A0041 ∧
      (0x04A0041 : BitVec 26).toNat / 2 ^ 22 = 1 ∧ (0x04A0041 : BitVec 26).toNat / 2 ^ 17 % 32 = 5 ∧
      (0x0AE0041 : BitVec 26).toNat / 2 ^ 22 = 2 ∧ (0x0AE0041 : BitVec 26).toNat / 2 ^ 17 % 32 = 23 ∧
      (0x0C0CDCE : BitVec 26).toNat / 2 ^ 22 = 3 ∧ 0xCD ≤ 205 ∧ 205 < 0xCE ∧
      (0x1000D9F : BitVec 26).toNat / 2 ^ 22 = 4 ∧ 0xD9F % 2048 = 1439 ∧ 0xD9F / 2048 = 1 ∧
      (0x140001F : BitVec 26).toNat / 2 ^ 22 = 5 ∧ (0x1800000 : BitVec 26).toNat / 2 ^ 22 = 6 := by decide +kernel

/-- A follow check reading data from its one candidate, at the fourth poll and at the fifth, and on its first of two. -/
def hearing (candidates : List Nat) (polls : Nat) : State :=
  (talking .getData .step fun r => { r with report := some ⟨40, 10, false, ⟨.fm, 98300⟩⟩ }).onHub fun h =>
    { h with
      radio := { h.radio with state := .followCheck, op := some ⟨.follow 20 candidates 0 0x5A21 polls, .data, 0⟩ } }

theorem witness_follow :
    (hearing [98300] 3).ready ∧ (hearing [98300] 3).hub.awaits 3 .step ∧
      ([0xC0005A21] : List CodeWord).length ≤ 6 ∧
      (hearing [98300] 3).hub.radio.op = some ⟨.follow 20 [98300] 0 0x5A21 3, .data, 0⟩ ∧
      (hearing [98300, 98400] 4).hub.radio.op = some ⟨.follow 20 [98300, 98400] 0 0x5A21 4, .data, 0⟩ ∧
      (hearing [98300] 3).hub.radio.report = some ⟨40, 10, false, ⟨.fm, 98300⟩⟩ :=
  ⟨⟨rfl, rfl⟩, ⟨_, rfl, rfl, rfl⟩, by decide, rfl, rfl, rfl⟩

/-- R155: a corrected word and an uncorrectable one of a follow check advance their own counters, a clean one neither. -/
theorem test_follow_counts :
    (after (.getDataReply [0xC0005821, 0xC0005820]) (hearing [98300, 98400] 3)).hub.station.corrected = 1 ∧
      (after (.getDataReply [0xC0005821, 0xC0005820]) (hearing [98300, 98400] 3)).hub.station.rejected = 1 ∧
      (after (.getDataReply [0xC0005820, 0xC0005820]) (hearing [98300, 98400] 3)).hub.station.rejected = 2 ∧
      (after (.getDataReply [0xC0005A21]) (hearing [98300, 98400] 3)).hub.station.corrected = 0 ∧
      (after (.getDataReply [0xC0005A21]) (hearing [98300, 98400] 3)).hub.station.rejected = 0 := by decide +kernel

/-- The word of 12.1 carries the data code 0x5A21; its neighbour, another code. -/
theorem witness_follow_words :
    (0x5A21 : BitVec 26).toNat / 2 ^ 22 % 8 = 0 ∧ ((0x5A21 : BitVec 26).setWidth 16).toNat = 0x5A21 ∧
      checkWord (encodeWord 0x5A22) = .clean 0x5A22 ∧ ((0x5A22 : BitVec 26).setWidth 16).toNat ≠ 0x5A21 := by
  decide +kernel

end Sys2Proof.Tests
end

section
/-! SUPPORT. The intake buffers over a whole step (R4, O6), and the four invariants at reset (O9). Every command is an event,
a request or a release of a select line, and each of the three keeps the buffers where its effect or its rule does. -/

namespace Sys2Proof.Machine

/-- An outcome that goes on goes on with every intake buffer within its bound. -/
def endsBuffersOk (o : Host.Outcome State Fault Refusal) : Prop := ∀ t, o = .next t → t.buffersOk

theorem endsBuffersOk_next {s : State} : endsBuffersOk (.next s) ↔ s.buffersOk :=
  ⟨fun h => h s rfl, fun h _ e => Host.Outcome.next.inj e ▸ h⟩

/-! ### The forms a command can take -/

theorem tell_buffersOk {f : State → State} {s : State} (keeps : (f s).buffersOk) : endsBuffersOk (tell f s) :=
  endsBuffersOk_next.mpr keeps

theorem event_buffersOk {f : State → State} {s : State} (ok : s.buffersOk) (keeps : (f s).buffersOk) :
    endsBuffersOk (event f s) := by
  unfold event
  split
  · exact endsBuffersOk_next.mpr ok
  · exact tell_buffersOk keeps

theorem eventStep_buffersOk (d : Due) {s : State} (ok : s.buffersOk) : endsBuffersOk (event (State.eventStep d) s) :=
  event_buffersOk ok (State.eventStep_buffersOk d ok)

/-- An event of the blocks behind Source Intake touches no buffer. -/
theorem event_onHub_buffersOk (f : Hub → Hub) {s : State} (ok : s.buffersOk) : endsBuffersOk (event (State.onHub f) s) :=
  event_buffersOk ok (State.onHub_buffersOk f ok)

theorem request_buffersOk {p : Port} {kind : Nat} {params : List Word} {rule : State → State × Answer} {s : State}
    (ok : s.buffersOk) (keeps : ∀ u : State, u.buffersOk → (rule u).1.buffersOk) :
    endsBuffersOk (request p kind params rule s) := by
  unfold request
  split
  · exact endsBuffersOk_next.mpr ok
  · exact endsBuffersOk_next.mpr (keeps _ ok)

/-- A request whose rule acts on the blocks behind Source Intake touches no buffer. -/
theorem request_onHub_buffersOk {p : Port} {kind : Nat} {params : List Word}
    {rule : Vector Source 8 → Hub → Hub × Answer} {s : State} (ok : s.buffersOk) :
    endsBuffersOk (request p kind params (onHub rule) s) :=
  request_buffersOk ok fun _ h => h

theorem request_readOnly_buffersOk {p : Port} {kind : Nat} {params : List Word} {read : State → ReplyData} {s : State}
    (ok : s.buffersOk) : endsBuffersOk (request p kind params (readOnly read) s) :=
  request_buffersOk ok fun _ h => h

/-! ### Resets and the rules of Source Intake -/

/-- R1: every buffer is empty at reset. -/
theorem State.reset_buffersOk : State.reset.buffersOk := by
  have empty : ∀ i : SourceId, State.reset.sources[i].buffer = [] := by decide
  intro i
  rw [Source.bufferOk, empty i]
  exact Nat.zero_le _

/-- R1: a reset leaves every buffer empty. -/
theorem State.reboot_buffersOk (c : ResetCause) (p : Option Port) (s : State) : (s.reboot c p).buffersOk :=
  State.reset_buffersOk

theorem State.recordChange_buffersOk (i : SourceId) (c : IntakeChange) {s : State} (ok : s.buffersOk) :
    (s.recordChange i c).buffersOk := by
  have written : (s.setSource i { s.sources[i] with change := some c }).buffersOk := State.setSource_buffersOk ok (ok i)
  unfold State.recordChange
  dsimp only
  split
  · exact written
  · exact State.takeChange_buffersOk i written

theorem execSetPrefill_buffersOk (p : Port) (source target : Word) {s : State} (ok : s.buffersOk) :
    endsBuffersOk (execSetPrefill p source target s) := by
  refine request_buffersOk ok fun u h => ?_
  rcases sourceOf source with _ | i
  · exact h
  · dsimp only
    split
    · exact h
    · exact State.recordChange_buffersOk i _ (State.setSource_buffersOk h (h i))

theorem execSetGroups_buffersOk (p : Port) (source a b : Word) {s : State} (ok : s.buffersOk) :
    endsBuffersOk (execSetGroups p source a b s) := by
  refine request_buffersOk ok fun u h => ?_
  rcases sourceOf source with _ | i
  · exact h
  · dsimp only
    repeat' split
    · exact h
    · exact h
    · exact h
    · exact h
    · exact State.recordChange_buffersOk i _ h

theorem execClearSourceCounters_buffersOk (p : Port) (source : Word) {s : State} (ok : s.buffersOk) :
    endsBuffersOk (execClearSourceCounters p source s) := by
  refine request_buffersOk ok fun u h => ?_
  rcases sourceOf source with _ | i
  · exact h
  · exact State.setSource_buffersOk h (h i)

theorem execSoftReset_buffersOk (p : Port) {s : State} (ok : s.buffersOk) : endsBuffersOk (execSoftReset p s) :=
  request_buffersOk ok fun u _ => State.reboot_buffersOk .request (some p) u

theorem execGetSource_buffersOk (p : Port) (source : Word) {s : State} (ok : s.buffersOk) :
    endsBuffersOk (execGetSource p source s) := by
  refine request_buffersOk ok fun u h => ?_
  rcases sourceOf source with _ | i <;> exact h

theorem execSubscribe_buffersOk (p : Port) (set : Word) {s : State} (ok : s.buffersOk) :
    endsBuffersOk (execSubscribe p set s) := by
  refine request_buffersOk ok fun u h => ?_
  rcases byteSetOf set with _ | c <;> exact h

theorem execReadNotices_buffersOk (p : Port) {s : State} (ok : s.buffersOk) : endsBuffersOk (execReadNotices p s) :=
  request_buffersOk ok fun _ h => h

theorem execEnterStandby_buffersOk (p : Port) {s : State} (ok : s.buffersOk) :
    endsBuffersOk (execEnterStandby p s) := by
  refine request_buffersOk ok fun u h => ?_
  have entered : ((u.onHub (Hub.beginStandby u.sources p)).takeStandbyEntry).buffersOk :=
    State.takeStandbyEntry_buffersOk (State.onHub_buffersOk _ h)
  dsimp only
  split <;> dsimp only
  · exact h
  · exact h
  · exact entered
  · exact entered

theorem State.fanDutyAdoption_buffersOk {s : State} (ok : s.buffersOk) : s.fanDutyAdoption.buffersOk := by
  unfold State.fanDutyAdoption
  repeat' split
  · exact State.eventStep_buffersOk _ ok
  · exact ok
  · exact State.onHub_buffersOk _ ok

theorem execOutputSamplePeriod_buffersOk {s : State} (ok : s.buffersOk) :
    endsBuffersOk (execOutputSamplePeriod s) := by
  have settled : s.settle.buffersOk := State.settle_buffersOk ok
  refine event_buffersOk ok ?_
  by_cases running : s.settle.hub.clock.running = true
  · rw [if_pos running]
    exact State.samplePeriod_buffersOk settled
  · rw [if_neg running]
    exact settled

/-! ### The releases of a select line -/

theorem execIgnoringRelease_buffersOk (p : Port) {s : State} (ok : s.buffersOk) :
    endsBuffersOk (execIgnoringRelease p s) := by
  refine endsBuffersOk_next.mpr ?_
  split <;> exact ok

theorem execFetchFrame_buffersOk (p : Port) (low : Byte) (words : Nat) {s : State} (ok : s.buffersOk) :
    endsBuffersOk (execFetchFrame p low words s) := by
  refine endsBuffersOk_next.mpr ?_
  split <;> exact ok

theorem execBadRequest_buffersOk (p : Port) (kind declared : Byte) (params : List Word) {s : State} (ok : s.buffersOk) :
    endsBuffersOk (execBadRequest p kind declared params s) := by
  unfold execBadRequest
  split
  · exact endsBuffersOk_next (s := s.releaseSelect p) |>.mpr ok
  · exact endsBuffersOk_next.mpr (show State.buffersOk _ from fun i => ok i)

theorem execFaultInputAsserted_buffersOk (l : LaneId) (level : Bool) {s : State} (ok : s.buffersOk) :
    endsBuffersOk (execFaultInputAsserted l level s) := by
  unfold execFaultInputAsserted
  split
  · exact endsBuffersOk_next.mpr (State.onHub_buffersOk _ ok)
  · exact event_onHub_buffersOk _ ok

/-! ### Every command -/

/-- R4: every command keeps every intake buffer within 64 frames. -/
theorem exec_buffersOk (i : Instr) {s : State} (ok : s.buffersOk) : endsBuffersOk (exec i s) := by
  cases i
  case powerOnReset => exact tell_buffersOk (State.reboot_buffersOk _ _ _)
  case resetPin asserted =>
    cases asserted
    · exact tell_buffersOk (State.reboot_buffersOk _ _ _)
    · exact endsBuffersOk_next.mpr (State.onHub_buffersOk _ ok)
  case softReset => exact execSoftReset_buffersOk _ ok
  case selectLineAsserted | selectReleasedBeforeWord0 =>
    refine endsBuffersOk_next.mpr ?_
    exact ok
  case ignoringRelease => exact execIgnoringRelease_buffersOk _ ok
  case fetchFrame => exact execFetchFrame_buffersOk _ _ _ ok
  case badRequest => exact execBadRequest_buffersOk _ _ _ _ ok
  case getSource => exact execGetSource_buffersOk _ _ ok
  case setPrefill => exact execSetPrefill_buffersOk _ _ _ ok
  case setGroups => exact execSetGroups_buffersOk _ _ _ _ ok
  case clearSourceCounters => exact execClearSourceCounters_buffersOk _ _ ok
  case enterStandby => exact execEnterStandby_buffersOk _ ok
  case subscribe => exact execSubscribe_buffersOk _ _ ok
  case readNotices => exact execReadNotices_buffersOk _ ok
  case identify | getResetCause | getClock | getDecode | getLayout | getDelay | getThermal | getRadio | getStationData =>
    exact request_readOnly_buffersOk ok
  case wake | setWakeSense | setClockMode | zonePowerOn | zonePowerOff | selectSource | setVolume | stepVolume | setMute
      | setMaxVolume | setLipsync | getZone | setDecodeMode | setSpeaker | setSub | setCrossover | assignLane | getLane
      | clearLaneFault | setBandPlan | tune | seek | scan | cancelRadio | storePresetExplicit | storePresetCurrent
      | recallPreset | clearPreset | getPreset | getStationList | setRadioOptions =>
    exact request_onHub_buffersOk ok
  case packetArrival => exact event_buffersOk ok (State.packet_buffersOk _ _ (State.settle_buffersOk ok))
  case serialFrameArrival =>
    exact event_buffersOk ok (State.serialFrame_buffersOk _ _ _ _ _ _ (State.settle_buffersOk ok))
  case outputSamplePeriod => exact execOutputSamplePeriod_buffersOk ok
  case outputBlockStart =>
    exact event_buffersOk ok (State.blockStart_buffersOk (State.settle_buffersOk (State.onHub_buffersOk _ ok)))
  case pendingIntakeChange => exact event_buffersOk ok (State.takeChange_buffersOk _ ok)
  case standbyEntry => exact event_buffersOk ok (State.takeStandbyEntry_buffersOk ok)
  case fanDutyAdoption => exact event_buffersOk ok (State.fanDutyAdoption_buffersOk ok)
  case faultInputAsserted => exact execFaultInputAsserted_buffersOk _ _ ok
  case senseConversion | fanTachPulse | linkMessageSend | setFreqReply | getQualityReply | getDataReply | setBlendReply
      | statusReply | linkAttemptFailed =>
    exact event_onHub_buffersOk _ ok
  all_goals exact eventStep_buffersOk _ ok

theorem State.idle_buffersOk {s : State} (ok : s.buffersOk) : s.idle.buffersOk := by
  unfold State.idle
  split <;> exact ok

/-- Settles O6: a step is the idle step or a command, and every command keeps the buffers. -/
theorem everyStepKeepsIntakeBuffers : Obligations.EveryStepKeepsIntakeBuffers := by
  intro s t ok e
  unfold step at e
  split at e
  · exact endsBuffersOk_next.mpr (State.idle_buffersOk ok) t e
  · next c rest _ => exact exec_buffersOk c (s := { s with pending := rest }) ok t e

/-- Settles O9: the queues and the buffers are empty, no notice waits, and the zones hold their reset settings. -/
theorem invariantsHoldAtReset : Obligations.InvariantsHoldAtReset := by
  have empty : PortRecord.reset.queueOk := ⟨Nat.zero_le _, List.Pairwise.nil⟩
  have zone (m : Nat) (low : 120 ≤ m) (high : m ≤ 184) : (Zone.reset m).settings.ok :=
    ⟨low, high, Nat.zero_le _⟩
  exact ⟨⟨empty, empty, empty⟩, State.reset_buffersOk,
    ⟨zone 184 (by decide) (by decide), zone 160 (by decide) (by decide), zone 160 (by decide) (by decide)⟩, rfl⟩

end Sys2Proof.Machine
end

section
/-! SUPPORT. The requests that read (O14): a request whose rule leaves the state as it is and answers with what it reads
leaves nothing behind but its reply. -/

namespace Sys2Proof.Machine

variable {p : Port} {kind : Nat} {params : List Word}

/-! ### Parameter words that name something -/

theorem sourceOf_eq {w : Word} {i : SourceId} (e : w.toNat = i.val) : sourceOf w = some i := by
  simp [sourceOf, e]

theorem zoneOf_eq {w : Word} {z : ZoneId} (e : w.toNat = z.code) : zoneOf w = some z := by
  cases z <;> simp [zoneOf, e, ZoneId.code, ZoneId.ofNat?]

theorem laneOf_eq {w : Word} {l : LaneId} (e : w.toNat = l.val) : laneOf w = some l := by
  simp [laneOf, e]

theorem presetOf_eq {w : Word} {i : Fin 40} (e : w.toNat = i.val) : presetOf w = some i := by
  simp [presetOf, e]

/-! ### A rule that changes nothing -/

/-- R169, R171: the record of a port as its request's rule finds it: the frame shifted in, and requests run advanced. -/
def PortRecord.runs (kind : Nat) (params : List Word) (x : PortRecord) : PortRecord :=
  { x.shiftIn (requestWord0 kind params.length) params (1 + params.length) with run := bump x.run }

/-- R171, R172: a request whose rule leaves the state as it finds it is answered, and changes nothing else. -/
theorem request_answersOnly {s : State} {rule : State → State × Answer} {a : Answer} (h : s.listens p)
    (quiet : s.delivered)
    (reads : rule (s.setPort p ((s.ports.get p).runs kind params)) =
      (s.setPort p ((s.ports.get p).runs kind params), a)) :
    ∃ t, request p kind params rule s = .next t ∧ s.answersOnly t p a.status a.data := by
  refine ⟨_, request_run rule h, ?_⟩
  change s.answersOnly (finishFrame p (rule (s.setPort p ((s.ports.get p).runs kind params))).2
    (deliverOutbox (some p) (rule (s.setPort p ((s.ports.get p).runs kind params))).1)) p a.status a.data
  rw [reads]
  have none : s.hub.outbox = [] := quiet
  refine ⟨⟨?_, fun q other => ?_, rfl, rfl⟩, rfl, ?_⟩
  · simp [PortRecord.answeredBy, deliverOutbox_port, PortRecord.place, PortRecord.runs, none]
  · simp [other, deliverOutbox_port, none]
  · simp [← none]

/-- A rule of the blocks behind Source Intake that answers with what it reads. -/
theorem request_onHub_reads {s : State} {rule : Vector Source 8 → Hub → Hub × Answer} {d : ReplyData}
    (h : s.listens p) (quiet : s.delivered) (reads : rule s.sources s.hub = (s.hub, ⟨.ok, d⟩)) :
    ∃ t, request p kind params (onHub rule) s = .next t ∧ s.answersOnly t p .ok d :=
  request_answersOnly (a := ⟨.ok, d⟩) h quiet <| by
    unfold onHub
    simp only [State.setPort_sources, State.setPort_hub, reads]
    rfl

/-- R22: GET_SOURCE reads the record of the source that its word names. -/
theorem execGetSource_reads {s : State} {w : Word} {i : SourceId} (e : w.toNat = i.val) (h : s.listens p)
    (quiet : s.delivered) :
    ∃ t, execGetSource p w s = .next t ∧
      s.answersOnly t p .ok (.source (sourceView i s.hub.radio.mute s.sources[i])) :=
  request_answersOnly (a := ⟨.ok, _⟩) h quiet (by rw [sourceOf_eq e]; rfl)

/-- R179: IDENTIFY reads its port's record with its own run counted. -/
theorem execIdentify_reads {s : State} (h : s.listens p) (quiet : s.delivered) :
    ∃ t, execIdentify p s = .next t ∧
      s.answersOnly t p .ok
        (.identity 0x8420 1 p s.hub.standby.power #v[3, 8, 3, 11, 40, 48, 16] 3 0 (bump (s.ports.get p).run)
          (s.ports.get p).refused (s.ports.get p).discarded) :=
  request_answersOnly (a := ⟨.ok, _⟩) h quiet (by simp [readOnly, PortRecord.runs])

/-- Settles O14: each of the fourteen rules answers with what it reads and leaves the state as it is. -/
theorem readingRequestsChangeNothing : Obligations.ReadingRequestsChangeNothing := by
  intro s p h quiet
  refine ⟨fun w i e => ?_, ?_, fun w z e => ?_, ?_, ?_, ?_, fun w l e => ?_, ?_, fun w i e => ?_, fun first e => ?_,
    ?_, ?_, ?_, ?_⟩
  case refine_1 => exact execGetSource_reads e h quiet
  case refine_3 => exact request_onHub_reads h quiet (by rw [zoneOf_eq e])
  case refine_7 => exact request_onHub_reads h quiet (by rw [laneOf_eq e])
  case refine_9 => exact request_onHub_reads h quiet (by rw [presetOf_eq e])
  case refine_10 => exact request_onHub_reads h quiet (by rw [if_neg (by omega)])
  case refine_13 =>
    obtain ⟨t, run, answered⟩ := execIdentify_reads h quiet
    refine ⟨t, run, answered, ?_⟩
    obtain ⟨⟨⟨-, slot, -⟩, -⟩, -⟩ := answered
    rw [slot]
    rfl
  all_goals exact request_answersOnly (a := ⟨.ok, _⟩) h quiet rfl

end Sys2Proof.Machine
end

section
/-! SUPPORT. The pending intake changes (R23 to R25): what taking or recording one does to the record of its source, that it
reads no port, and the requests that write a source's settings (O22, O23). -/

namespace Sys2Proof.Machine

variable {p : Port}

/-! ### Records and ports -/

/-- A hub with no notice waiting is the hub with its notices taken out. -/
theorem State.hub_of_delivered {s : State} (quiet : s.delivered) : { s.hub with outbox := [] } = s.hub := by
  have none : s.hub.outbox = [] := quiet
  rw [← none]

/-- Two tables of sources with the same records are the same. -/
theorem sources_ext {a b : Vector Source 8} (e : ∀ j : SourceId, a[j] = b[j]) : a = b :=
  Vector.ext fun k hk => e ⟨k, hk⟩

theorem State.changeSource_setPort (i : SourceId) (y : Source) (x : PortRecord) (s : State) :
    (s.setPort p x).changeSource i y = (s.changeSource i y).setPort p x := rfl

/-! ### The record of a source whose pending change is taken -/

/-- R25: the record with the groups of a change selected and everything that the old groups brought gone. -/
def Source.selectGroups (a b : Nat) (x : Source) : Source :=
  { x with
    change := none, groupA := a, groupB := b, maskA := 0, maskB := 0, channels := 0, pendingFrame := none, lastSeq := none
    lastWritten := none, buffer := [], assembly := .waiting, prevBlock := none }

/-- R24: the record of a source whose pending change has been taken. -/
def Source.takeChange (x : Source) : Source :=
  match x.change with
  | none => x
  | some .restart =>
    match x.state with
    | .running => Source.enter .prefill { x with change := none }
    | .prefill =>
      if x.prefill ≤ x.fill then Source.enter .running { x with change := none } else { x with change := none }
    | _ => { x with change := none }
  | some (.newGroups a b) => if x.isRunning then (x.selectGroups a b).enter .prefill else x.selectGroups a b

/-- R3: a record replaced by one of the same state and channel set: nothing is posted and no other block reacts. -/
theorem State.changeSource_of_same {i : SourceId} {y : Source} {s : State} (state : y.state = s.sources[i].state)
    (channels : y.channels = s.sources[i].channels) : s.changeSource i y = s.setSource i y := by
  have now : (s.sources.set i y)[i].isRunning = s.sources[i].isRunning := by simp [Source.isRunning, state]
  simp only [State.changeSource, State.setSource, Hub.sourceChanged, now, state, channels]
  simp [postIf]

/-- R24: taking the pending change of a source replaces its record. -/
theorem State.takeChange_eq (i : SourceId) (s : State) :
    s.takeChange i = s.changeSource i s.sources[i].takeChange := by
  unfold State.takeChange Source.takeChange
  dsimp only
  rcases change : s.sources[i].change with _ | _ | ⟨a, b⟩
  · exact ((State.changeSource_of_same rfl rfl).trans (State.setSource_self i s)).symm
  · rcases state : s.sources[i].state with _ | _ | _ | r <;> dsimp only
    · exact .symm (State.changeSource_of_same (by exact state.symm) rfl)
    · by_cases filled : s.sources[i].prefill ≤ s.sources[i].fill
      · simp only [if_pos filled]
      · simp only [if_neg filled]
        exact .symm (State.changeSource_of_same (by exact state.symm) rfl)
    · exact .symm (State.changeSource_of_same (by exact state.symm) rfl)
  · rfl

theorem State.takeChange_same (i : SourceId) (s : State) : (s.takeChange i).sources[i] = s.sources[i].takeChange := by
  rw [State.takeChange_eq, State.changeSource_same]

theorem State.takeChange_setPort (i : SourceId) (x : PortRecord) (s : State) :
    (s.setPort p x).takeChange i = (s.takeChange i).setPort p x := by
  rw [State.takeChange_eq, State.takeChange_eq]
  rfl

/-- R3: what entering PREFILL leaves of a record. -/
theorem Source.enter_prefill_frame (x : Source) :
    (x.enter .prefill).change = x.change ∧ (x.enter .prefill).prefill = x.prefill ∧
      (x.enter .prefill).counters = x.counters ∧ (x.enter .prefill).adopted = x.adopted ∧
      (x.enter .prefill).groupA = x.groupA ∧ (x.enter .prefill).groupB = x.groupB ∧
      (x.enter .prefill).maskA = x.maskA ∧ (x.enter .prefill).maskB = x.maskB ∧
      (x.enter .prefill).channels = x.channels ∧ (x.enter .prefill).pendingFrame = x.pendingFrame :=
  ⟨rfl, rfl, rfl, rfl, rfl, rfl, rfl, rfl, rfl, rfl⟩

/-- R24: no change is pending once it is taken, and a target, the counters and the adopted record stay. -/
theorem Source.takeChange_frame (x : Source) :
    x.takeChange.change = none ∧ x.takeChange.prefill = x.prefill ∧ x.takeChange.counters = x.counters ∧
      x.takeChange.adopted = x.adopted := by
  unfold Source.takeChange
  split
  · next none => exact ⟨none, rfl, rfl, rfl⟩
  · repeat' split
    all_goals exact ⟨rfl, rfl, rfl, rfl⟩
  · split <;> exact ⟨rfl, rfl, rfl, rfl⟩

/-- R25: what a change of groups leaves of the record. -/
theorem Source.takeChange_newGroups {x : Source} {a b : Nat} (e : x.change = some (.newGroups a b)) :
    x.takeChange.groupA = a ∧ x.takeChange.groupB = b ∧ x.takeChange.maskA = 0 ∧ x.takeChange.maskB = 0 ∧
      x.takeChange.channels = 0 ∧ x.takeChange.buffer = [] ∧ x.takeChange.pendingFrame = none ∧
      x.takeChange.lastSeq = none ∧ x.takeChange.lastWritten = none ∧ x.takeChange.assembly = .waiting ∧
      x.takeChange.prevBlock = none ∧ x.takeChange.state = (if x.state = .running then .prefill else x.state) := by
  unfold Source.takeChange
  rw [e]
  by_cases running : x.state = .running
  · simp [Source.isRunning, running, Source.enter, Source.selectGroups]
  · simp [Source.isRunning, running, Source.selectGroups]

/-! ### A change recorded -/

/-- R23, R25: the record of a source whose change is recorded, and taken at once while the Sample Clock Unit is stopped. -/
theorem State.recordChange_same (i : SourceId) (c : IntakeChange) (s : State) :
    (s.recordChange i c).sources[i] =
      if s.hub.clock.running then { s.sources[i] with change := some c }
      else Source.takeChange { s.sources[i] with change := some c } := by
  unfold State.recordChange
  dsimp only
  split
  · exact State.setSource_same i _ s
  · rw [State.takeChange_same, State.setSource_same]

theorem State.recordChange_other {i j : SourceId} (c : IntakeChange) (s : State) (h : j ≠ i) :
    (s.recordChange i c).sources[j] = s.sources[j] := by
  unfold State.recordChange
  dsimp only
  split
  · exact State.setSource_other _ s h
  · rw [State.takeChange_other _ h, State.setSource_other _ s h]

/-- R23, R25: while the Sample Clock Unit runs a change is recorded and nothing else happens. -/
theorem State.recordChange_hub_of_running {i : SourceId} {c : IntakeChange} {s : State}
    (running : s.hub.clock.running = true) : (s.recordChange i c).hub = s.hub := by
  simp [State.recordChange, running]

theorem State.recordChange_of_running {i : SourceId} {c : IntakeChange} {s : State}
    (running : s.hub.clock.running = true) :
    s.recordChange i c = s.setSource i { s.sources[i] with change := some c } := if_pos running

theorem State.recordChange_of_stopped {i : SourceId} {c : IntakeChange} {s : State}
    (stopped : ¬ s.hub.clock.running = true) :
    s.recordChange i c = (s.setSource i { s.sources[i] with change := some c }).takeChange i := if_neg stopped

theorem State.recordChange_setPort (i : SourceId) (c : IntakeChange) (x : PortRecord) (s : State) :
    (s.setPort p x).recordChange i c = (s.recordChange i c).setPort p x := by
  by_cases running : s.hub.clock.running = true
  · rw [State.recordChange_of_running running, State.recordChange_of_running (s := s.setPort p x) running]
    rfl
  · rw [State.recordChange_of_stopped running, State.recordChange_of_stopped (s := s.setPort p x) running]
    exact State.takeChange_setPort i x (s.setSource i _)

@[simp] theorem State.recordChange_standby (i : SourceId) (c : IntakeChange) (s : State) :
    (s.recordChange i c).hub.standby = s.hub.standby := by
  unfold State.recordChange
  dsimp only
  split <;> simp

/-! ### SET_PREFILL -/

/-- R23: the state after a prefill target has been written. -/
def State.setPrefill (i : SourceId) (n : Nat) (s : State) : State :=
  if n = s.sources[i].prefill then s
  else
    (s.setSource i { s.sources[i] with prefill := n }).recordChange i (restartUnlessGroups s.sources[i].change)

theorem State.setPrefill_held {i : SourceId} {n : Nat} {s : State} (held : n = s.sources[i].prefill) :
    s.setPrefill i n = s := if_pos held

theorem State.setPrefill_unheld {i : SourceId} {n : Nat} {s : State} (new : n ≠ s.sources[i].prefill) :
    s.setPrefill i n =
      (s.setSource i { s.sources[i] with prefill := n }).recordChange i (restartUnlessGroups s.sources[i].change) :=
  if_neg new

theorem State.setPrefill_frame (i : SourceId) (n : Nat) (s : State) :
    (s.setPrefill i n).ports = s.ports ∧ (s.setPrefill i n).freeIndex = s.freeIndex ∧
      (s.setPrefill i n).pending = s.pending ∧ (s.setPrefill i n).hub.lanes = s.hub.lanes ∧
      (s.setPrefill i n).hub.protection = s.hub.protection ∧ (s.setPrefill i n).hub.radio = s.hub.radio ∧
      (s.setPrefill i n).hub.station = s.hub.station ∧ (s.setPrefill i n).hub.standby = s.hub.standby ∧
      settingsOf (s.setPrefill i n).hub.zones = settingsOf s.hub.zones ∧
      (s.setPrefill i n).hub.renderer.tables = s.hub.renderer.tables := by
  by_cases held : n = s.sources[i].prefill
  · rw [State.setPrefill_held held]
    exact ⟨rfl, rfl, rfl, rfl, rfl, rfl, rfl, rfl, rfl, rfl⟩
  · rw [State.setPrefill_unheld held]
    simp

theorem State.setPrefill_setPort (i : SourceId) (n : Nat) (x : PortRecord) (s : State) :
    (s.setPort p x).setPrefill i n = (s.setPrefill i n).setPort p x := by
  by_cases held : n = s.sources[i].prefill
  · rw [State.setPrefill_held held, State.setPrefill_held (s := s.setPort p x) held]
  · rw [State.setPrefill_unheld held, State.setPrefill_unheld (s := s.setPort p x) held]
    exact State.recordChange_setPort i _ x (s.setSource i _)

theorem State.setPrefill_other {i j : SourceId} (n : Nat) (s : State) (h : j ≠ i) :
    (s.setPrefill i n).sources[j] = s.sources[j] := by
  by_cases held : n = s.sources[i].prefill
  · rw [State.setPrefill_held held]
  · rw [State.setPrefill_unheld held, State.recordChange_other _ _ h, State.setSource_other _ s h]

/-- R23: the record of a source whose prefill target has been written. -/
theorem State.setPrefill_same (i : SourceId) (n : Nat) (s : State) :
    (s.setPrefill i n).sources[i].prefill = n ∧ (s.setPrefill i n).sources[i].counters = s.sources[i].counters ∧
      (s.setPrefill i n).sources[i].adopted = s.sources[i].adopted := by
  by_cases held : n = s.sources[i].prefill
  · rw [State.setPrefill_held held]
    exact ⟨held.symm, rfl, rfl⟩
  · rw [State.setPrefill_unheld held, State.recordChange_same, State.setSource_same]
    split
    · exact ⟨rfl, rfl, rfl⟩
    · obtain ⟨-, target, counters, adopted⟩ := Source.takeChange_frame
        { s.sources[i] with prefill := n, change := some (restartUnlessGroups s.sources[i].change) }
      exact ⟨target, counters, adopted⟩

/-- R23: a new target is recorded as a change, and taken at once while the Sample Clock Unit is stopped. -/
theorem State.setPrefill_new {i : SourceId} {n : Nat} {s : State} (new : n ≠ s.sources[i].prefill) :
    (s.hub.clock.running = true →
      (s.setPrefill i n).hub = s.hub ∧
        (s.setPrefill i n).sources[i] =
          { s.sources[i] with prefill := n, change := some (restartUnlessGroups s.sources[i].change) }) ∧
    (s.hub.clock.running = false → (s.setPrefill i n).sources[i].change = none) := by
  rw [State.setPrefill_unheld new]
  refine ⟨fun running => ⟨?_, ?_⟩, fun stopped => ?_⟩
  · exact State.recordChange_hub_of_running (s := s.setSource i _) running
  · rw [State.recordChange_same, State.setSource_hub, if_pos running, State.setSource_same]
  · rw [State.recordChange_same, State.setSource_hub, if_neg (by simp [stopped])]
    exact (Source.takeChange_frame _).1

/-- R23, R172: SET_PREFILL is answered with the target written. -/
theorem execSetPrefill_answers {s : State} {w : Word} {i : SourceId} (target : Word) (e : w.toNat = i.val)
    (h : s.listens p) :
    ∃ t, execSetPrefill p w target s = .next t ∧
      s.answers t p (s.ports.get p) (if prefillOf target ≠ target.toNat then .clamped else .ok)
        (.prefill (prefillOf target)) (s.setPrefill i (prefillOf target)).hub.outbox ∧
      t.sources = (s.setPrefill i (prefillOf target)).sources ∧
      t.hub = { (s.setPrefill i (prefillOf target)).hub with outbox := [] } := by
  have rule : execSetPrefill p w target s =
      request p 0x11 [w, target]
        (fun u => (u.setPrefill i (prefillOf target),
          okOrClamped (decide (prefillOf target ≠ target.toNat)) (.prefill (prefillOf target)))) s := by
    unfold execSetPrefill
    rw [sourceOf_eq e]
    refine congrArg (fun r => request p 0x11 [w, target] r s) (funext fun u => ?_)
    unfold State.setPrefill
    dsimp only
    split <;> rfl
  rw [rule]
  obtain ⟨t, run, answered, sources, hub⟩ := request_answers (kind := 0x11) (params := [w, target])
    (fun u => (u.setPrefill i (prefillOf target),
      okOrClamped (decide (prefillOf target ≠ target.toNat)) (.prefill (prefillOf target))))
    (fun u => by simp [State.setPrefill_frame]) (fun u x => by simp [State.setPrefill_setPort]) h
  exact ⟨t, run, by simpa [okOrClamped] using answered, sources, hub⟩

/-- R26, R172: CLEAR_SOURCE_COUNTERS is answered with the ten counters of its source at 0. -/
theorem execClearSourceCounters_answers {s : State} {w : Word} {i : SourceId} (e : w.toNat = i.val) (h : s.listens p) :
    ∃ t, execClearSourceCounters p w s = .next t ∧ s.answers t p (s.ports.get p) .ok .none s.hub.outbox ∧
      t.sources = s.sources.set i { s.sources[i] with counters := .zero } ∧ t.hub = { s.hub with outbox := [] } := by
  unfold execClearSourceCounters
  rw [sourceOf_eq e]
  exact request_answers (fun u => (u.setSource i { u.sources[i] with counters := .zero }, ⟨.ok, .none⟩))
    (fun u => ⟨rfl, rfl, rfl⟩) (fun u x => ⟨rfl, rfl, rfl⟩) h

/-- Settles O22: SET_PREFILL writes the nearest target and records or takes the change, and CLEAR_SOURCE_COUNTERS clears the
ten counters. -/
theorem prefillAndCounterRequests : Obligations.PrefillAndCounterRequests := by
  refine ⟨fun s p w target i h quiet e => ?_, fun s p w i h quiet e => ?_⟩
  · obtain ⟨t, run, answered, sources, hub⟩ := execSetPrefill_answers target e h
    obtain ⟨-, -, -, lanes, protection, radio, station, standby, zones, tables⟩ :=
      State.setPrefill_frame i (prefillOf target) s
    obtain ⟨written, counters, adopted⟩ := State.setPrefill_same i (prefillOf target) s
    have status : (if prefillOf target ≠ target.toNat then Status.clamped else .ok) =
        if target.toNat = prefillOf target then .ok else .clamped := by
      simp only [ne_eq, ite_not, eq_comm]
    change ∃ t notices, execSetPrefill p w target s = .next t ∧
      s.answers t p (s.ports.get p) (if target.toNat = prefillOf target then .ok else .clamped)
        (.prefill (prefillOf target)) notices ∧ _
    refine ⟨t, _, run, status ▸ answered, ?_, fun j other => ?_, fun (held : prefillOf target = _) => ?_,
      fun (new : prefillOf target ≠ _) running => ?_, fun (new : prefillOf target ≠ _) stopped => ?_,
      ?_, ?_, ?_, ?_, ?_, ?_, ?_, ?_, ?_⟩
    · rw [sources]; exact written
    · rw [sources]; exact State.setPrefill_other _ s other
    · rw [sources, hub, State.setPrefill_held held]
      exact ⟨rfl, State.hub_of_delivered quiet⟩
    · obtain ⟨same, record⟩ := (State.setPrefill_new new).1 running
      rw [sources, hub, same]
      refine ⟨State.hub_of_delivered quiet, record.trans ?_⟩
      rcases s.sources[i].change with _ | _ | _ <;> rfl
    · rw [sources]; exact (State.setPrefill_new new).2 stopped
    · rw [sources]; exact counters
    · rw [sources]; exact adopted
    all_goals rw [hub]
    · exact lanes
    · exact protection
    · exact radio
    · exact station
    · exact standby
    · exact zones
    · exact tables
  · obtain ⟨t, run, answered, sources, hub⟩ := execClearSourceCounters_answers e h
    have none : s.hub.outbox = [] := quiet
    exact ⟨t, run, none ▸ answered, hub.trans (State.hub_of_delivered quiet), sources⟩

/-! ### SET_GROUPS -/

theorem groupsPending_iff {c : Option IntakeChange} : groupsPending c = true ↔ ∃ a b, c = some (.newGroups a b) := by
  rcases c with _ | _ | _ <;> simp [groupsPending]

theorem isGroup_iff {w : Word} : isGroup w = true ↔ 1 ≤ w.toNat ∧ w.toNat ≤ 4 := by simp [isGroup]

/-- R25: the state after a pair of groups has been taken: selected already, recorded, or selected at once. -/
def State.setGroups (i : SourceId) (a b : Nat) (s : State) : State :=
  if a = s.sources[i].groupA ∧ b = s.sources[i].groupB ∧ groupsPending s.sources[i].change = false then s
  else s.recordChange i (.newGroups a b)

theorem State.setGroups_selected {i : SourceId} {a b : Nat} {s : State}
    (selected : a = s.sources[i].groupA ∧ b = s.sources[i].groupB ∧ groupsPending s.sources[i].change = false) :
    s.setGroups i a b = s := if_pos selected

theorem State.setGroups_new {i : SourceId} {a b : Nat} {s : State}
    (new : ¬ (a = s.sources[i].groupA ∧ b = s.sources[i].groupB ∧ groupsPending s.sources[i].change = false)) :
    s.setGroups i a b = s.recordChange i (.newGroups a b) := if_neg new

theorem State.setGroups_frame (i : SourceId) (a b : Nat) (s : State) :
    (s.setGroups i a b).ports = s.ports ∧ (s.setGroups i a b).freeIndex = s.freeIndex ∧
      (s.setGroups i a b).pending = s.pending ∧ (s.setGroups i a b).hub.lanes = s.hub.lanes ∧
      (s.setGroups i a b).hub.protection = s.hub.protection ∧ (s.setGroups i a b).hub.radio = s.hub.radio ∧
      (s.setGroups i a b).hub.station = s.hub.station ∧ (s.setGroups i a b).hub.standby = s.hub.standby := by
  by_cases selected : a = s.sources[i].groupA ∧ b = s.sources[i].groupB ∧ groupsPending s.sources[i].change = false
  · rw [State.setGroups_selected selected]
    exact ⟨rfl, rfl, rfl, rfl, rfl, rfl, rfl, rfl⟩
  · rw [State.setGroups_new selected]
    simp

theorem State.setGroups_setPort (i : SourceId) (a b : Nat) (x : PortRecord) (s : State) :
    (s.setPort p x).setGroups i a b = (s.setGroups i a b).setPort p x := by
  by_cases selected : a = s.sources[i].groupA ∧ b = s.sources[i].groupB ∧ groupsPending s.sources[i].change = false
  · rw [State.setGroups_selected selected, State.setGroups_selected (s := s.setPort p x) selected]
  · rw [State.setGroups_new selected, State.setGroups_new (s := s.setPort p x) selected]
    exact State.recordChange_setPort i _ x s

theorem State.setGroups_other {i j : SourceId} (a b : Nat) (s : State) (h : j ≠ i) :
    (s.setGroups i a b).sources[j] = s.sources[j] := by
  by_cases selected : a = s.sources[i].groupA ∧ b = s.sources[i].groupB ∧ groupsPending s.sources[i].change = false
  · rw [State.setGroups_selected selected]
  · rw [State.setGroups_new selected, State.recordChange_other _ _ h]

/-- R25: the groups of a change recorded while the Sample Clock Unit is stopped are selected at once. -/
theorem State.recordChange_newGroups_of_stopped {i : SourceId} {a b : Nat} {s : State}
    (stopped : ¬ s.hub.clock.running = true) :
    let y := (s.recordChange i (.newGroups a b)).sources[i]
    y.groupA = a ∧ y.groupB = b ∧ y.maskA = 0 ∧ y.maskB = 0 ∧ y.channels = 0 ∧ y.buffer = [] ∧
      y.pendingFrame = none ∧ y.change = none ∧ y.counters = s.sources[i].counters := by
  dsimp only
  rw [State.recordChange_same, if_neg stopped]
  obtain ⟨none, -, counters, -⟩ := Source.takeChange_frame { s.sources[i] with change := some (.newGroups a b) }
  obtain ⟨idA, idB, maskA, maskB, channels, buffer, pending, -⟩ :=
    Source.takeChange_newGroups (x := { s.sources[i] with change := some (.newGroups a b) }) rfl
  exact ⟨idA, idB, maskA, maskB, channels, buffer, pending, none, counters⟩

/-- R25, R172: a pair that SET_GROUPS takes is answered OK. -/
theorem execSetGroups_answers {s : State} {w a b : Word} {i : SourceId} (e : w.toNat = i.val) (packet : i.val < 2)
    (first : 1 ≤ a.toNat ∧ a.toNat ≤ 4) (second : 1 ≤ b.toNat ∧ b.toNat ≤ 4) (distinct : a ≠ b) (h : s.listens p) :
    ∃ t, execSetGroups p w a b s = .next t ∧
      s.answers t p (s.ports.get p) .ok .none (s.setGroups i a.toNat b.toNat).hub.outbox ∧
      t.sources = (s.setGroups i a.toNat b.toNat).sources ∧
      t.hub = { (s.setGroups i a.toNat b.toNat).hub with outbox := [] } := by
  have rule : execSetGroups p w a b s =
      request p 0x12 [w, a, b] (fun u => (u.setGroups i a.toNat b.toNat, ⟨.ok, .none⟩)) s := by
    unfold execSetGroups
    rw [sourceOf_eq e]
    refine congrArg (fun r => request p 0x12 [w, a, b] r s) (funext fun u => ?_)
    unfold State.setGroups
    simp [isPacket, packet, isGroup_iff.2 first, isGroup_iff.2 second, distinct]
    split <;> rfl
  rw [rule]
  exact request_answers (fun u => (u.setGroups i a.toNat b.toNat, ⟨.ok, .none⟩))
    (fun u => by simp [State.setGroups_frame]) (fun u x => by simp [State.setGroups_setPort]) h

/-- R25, R174: a word that SET_GROUPS refuses changes nothing. -/
theorem execSetGroups_refused {s : State} {w a b : Word} {i : SourceId} {n : Nat} (e : w.toNat = i.val)
    (h : s.listens p) (quiet : s.delivered)
    (refused : (if isPacket i = false then some 1 else if isGroup a = false then some 2
      else if isGroup b = false ∨ a = b then some 3 else none) = some n) :
    ∃ t, execSetGroups p w a b s = .next t ∧ s.answersOnly t p .badValue (.wordRefused n) := by
  unfold execSetGroups
  rw [sourceOf_eq e]
  refine request_answersOnly (a := badValue n) h quiet ?_
  dsimp only
  split_ifs at refused ⊢ <;> cases refused <;> rfl

/-- Settles O23: SET_GROUPS refuses what R25 refuses, and else records the pair or selects it at once. -/
theorem setGroupsRecordsTheChange : Obligations.SetGroupsRecordsTheChange := by
  refine fun s p w a b i h quiet e => ⟨fun serial => ?_, fun packet first => ?_, fun packet low high second => ?_,
    fun packet lowA highA lowB highB distinct => ?_⟩
  · exact execSetGroups_refused e h quiet (if_pos (by simp [isPacket]; omega))
  · exact execSetGroups_refused e h quiet (by simp [isPacket, packet, isGroup, first])
  · refine execSetGroups_refused e h quiet ?_
    have refused : isGroup b = false ∨ a = b := by simpa [isGroup] using second
    simp [isPacket, packet, isGroup_iff.2 ⟨low, high⟩, refused]
  · obtain ⟨t, run, answered, sources, hub⟩ :=
      execSetGroups_answers e packet ⟨lowA, highA⟩ ⟨lowB, highB⟩ distinct h
    obtain ⟨-, -, -, lanes, protection, radio, station, standby⟩ := State.setGroups_frame i a.toNat b.toNat s
    refine ⟨t, _, run, answered, fun j other => ?_, fun first second unchanged => ?_, fun new => ?_,
      by rw [hub]; exact lanes, by rw [hub]; exact protection, by rw [hub]; exact radio, by rw [hub]; exact station,
      by rw [hub]; exact standby⟩
    · rw [sources]; exact State.setGroups_other _ _ s other
    · have none : groupsPending s.sources[i].change = false := by
        refine Bool.eq_false_iff.2 fun pending => ?_
        obtain ⟨c, d, is⟩ := groupsPending_iff.1 pending
        exact unchanged c d is
      rw [sources, hub, State.setGroups_selected ⟨first, second, none⟩]
      exact ⟨rfl, State.hub_of_delivered quiet⟩
    · have unselected : ¬ (a.toNat = s.sources[i].groupA ∧ b.toNat = s.sources[i].groupB ∧
          groupsPending s.sources[i].change = false) := by
        rintro ⟨first, second, none⟩
        rcases new with other | pending
        · exact other ⟨first, second⟩
        · rw [groupsPending_iff.2 pending] at none
          cases none
      rw [sources, hub, State.setGroups_new unselected]
      refine ⟨fun running => ?_, fun stopped => ?_⟩
      · rw [State.recordChange_hub_of_running running, State.recordChange_of_running running]
        exact ⟨State.hub_of_delivered quiet, State.setSource_same i _ s⟩
      · exact State.recordChange_newGroups_of_stopped (by simp [stopped])

end Sys2Proof.Machine
end

section
/-! SUPPORT. What the end of the main zone's fade makes of the decoder and the layout in force (R53, R54, R70, R71, R87), the
decision of the block after it (R74, R89), and what the departure of a source from RUNNING and its entry lead to. -/

namespace Sys2Proof.Machine

/-! ### Adoptions of the decoder -/

/-- R69: the model's derivation is the table of the pairs. -/
theorem derivePair_eq_tablePair (d : Decoder) (set : Channels) :
    derivePair d.requested d.autoMatrix (multichannel set) = d.tablePair set := by
  unfold derivePair Decoder.tablePair multichannel
  cases d.requested <;> cases decide (set &&& 0xFC ≠ 0) <;> rfl

/-- Two decoder records with the same source, derived pair and settings. -/
def Decoder.sameStanding (d e : Decoder) : Prop :=
  e.source = d.source ∧ e.derived = d.derived ∧ e.requested = d.requested ∧ e.autoMatrix = d.autoMatrix

/-- R71: what the adoption of the derived pair makes of the decoder. -/
theorem Hub.adoptDecode_decoder (h : Hub) :
    h.decoder.adopts h.adoptDecode.decoder h.decoder.derived ∧ h.decoder.sameStanding h.adoptDecode.decoder ∧
      h.adoptDecode.decoder.itemPending = h.decoder.itemPending := by
  unfold Hub.adoptDecode
  by_cases changes : h.decoder.derived.mode ≠ h.decoder.active.mode
  · simp [changes, Decoder.adopts, Decoder.sameStanding, Decoder.restart, BlockSums.zero, Steering.zero]
  · simp [changes, Decoder.adopts, Decoder.sameStanding]

/-- R71: the adoption of a pair leaves the layouts. -/
theorem Hub.adoptDecode_layouts (h : Hub) :
    h.adoptDecode.renderer.inForce = h.renderer.inForce ∧ h.adoptDecode.renderer.derived = h.renderer.derived := by
  unfold Hub.adoptDecode
  dsimp only
  split <;> simp [Renderer.clearFilters]

/-- R71: a pair adopted twice is adopted once. -/
theorem Decoder.adopts.again {d e f : Decoder} {pair : DecodePair} (first : d.adopts e pair) (second : e.adopts f pair) :
    d.adopts f pair := by
  obtain ⟨active, changed, kept⟩ := first
  obtain ⟨active', -, kept'⟩ := second
  obtain ⟨lr, cs, sums, raw, steering⟩ := kept' (congrArg DecodePair.mode active.symm)
  refine ⟨active', fun n => ?_, fun e => ?_⟩
  · rw [lr, cs, sums, raw, steering]; exact changed n
  · rw [lr, cs, sums, raw, steering]; exact kept e

/-- R71: a record with the same active pair, steering and sums has adopted that pair. -/
theorem Decoder.adopts_active {d e : Decoder} (active : e.active = d.active) (lr : e.dLr = d.dLr) (cs : e.dCs = d.dCs)
    (sums : e.sums = d.sums) (raw : e.lastRaw = d.lastRaw) (steering : e.steering = d.steering) :
    d.adopts e d.active :=
  ⟨active, fun n => absurd rfl n, fun _ => ⟨lr, cs, sums, raw, steering⟩⟩

/-- R70: a handover derives the pair of its source and adopts it. -/
theorem Hub.handover_decoder (src : Vector Source 8) (i : SourceId) (h : Hub) :
    h.decoder.handedOver (h.handover src i).decoder i src[i].channels := by
  obtain ⟨adopts, ⟨source, derived, requested, matrix⟩, item⟩ :=
    Hub.adoptDecode_decoder { h with decoder := { h.decoder with source := some i }.derive src i }
  have pair : ({ h.decoder with source := some i }.derive src i).derived = h.decoder.tablePair src[i].channels :=
    derivePair_eq_tablePair h.decoder _
  dsimp only at adopts derived
  rw [pair] at adopts derived
  exact ⟨source, derived, adopts, item, requested, matrix⟩

theorem Hub.handover_layouts (src : Vector Source 8) (i : SourceId) (h : Hub) :
    (h.handover src i).renderer.inForce = h.renderer.inForce ∧
      (h.handover src i).renderer.derived = h.renderer.derived :=
  Hub.adoptDecode_layouts _

/-! ### The end of the main zone's fade -/

theorem Hub.clearLines_layouts (z : ZoneId) (h : Hub) :
    (h.clearLines z).renderer.inForce = h.renderer.inForce ∧ (h.clearLines z).renderer.derived = h.renderer.derived := by
  cases z <;> exact ⟨rfl, rfl⟩

theorem Hub.makeCurrent_layouts (src : Vector Source 8) (z : ZoneId) (i : SourceId) (h : Hub) :
    (h.makeCurrent src z i).renderer.inForce = h.renderer.inForce ∧
      (h.makeCurrent src z i).renderer.derived = h.renderer.derived := by
  obtain ⟨inForce, derived⟩ := Hub.clearLines_layouts z
    (post (zoneSourceNotice z (some i)) (h.setZone z { h.zone z with current := some i }))
  unfold Hub.makeCurrent
  cases z
  · obtain ⟨inForce', derived'⟩ := Hub.handover_layouts src i (Hub.clearLines .main
      (post (zoneSourceNotice .main (some i)) (h.setZone .main { h.zone .main with current := some i })))
    exact ⟨inForce'.trans inForce, derived'.trans derived⟩
  · exact ⟨inForce, derived⟩
  · exact ⟨inForce, derived⟩

theorem Hub.leaveFade_layouts (src : Vector Source 8) (z : ZoneId) (k : Purpose) (h : Hub) :
    (h.leaveFade src z k).renderer.inForce = h.renderer.inForce ∧
      (h.leaveFade src z k).renderer.derived = h.renderer.derived := by
  unfold Hub.leaveFade
  cases k
  · dsimp only
    split
    · exact Hub.clearLines_layouts z h
    · exact Hub.makeCurrent_layouts src z _ h
  · cases z <;> exact ⟨rfl, rfl⟩
  · exact Hub.clearLines_layouts z h

/-- R54, R70: what the end of the main zone's fade makes of the decoder, before the pending set is applied. -/
theorem Hub.leaveFade_decoder (src : Vector Source 8) (k : Purpose) (h : Hub) :
    let x := h.zones.main
    let d := h.decoder
    let e := (h.leaveFade src .main k).decoder
    (x.switches k →
      e.source = some x.selected ∧ e.derived = d.tablePair src[x.selected].channels ∧
        d.adopts e (d.tablePair src[x.selected].channels)) ∧
    (¬ x.switches k →
      e.source = (if k = .powerOff then none else d.source) ∧ e.derived = d.derived ∧ d.adopts e d.active ∧
        e.active = d.active) ∧
    e.itemPending = d.itemPending ∧ e.requested = d.requested ∧ e.autoMatrix = d.autoMatrix := by
  have stays : h.decoder.adopts h.decoder h.decoder.active := Decoder.adopts_active rfl rfl rfl rfl rfl rfl
  dsimp only
  unfold Hub.leaveFade
  cases k
  · dsimp only
    by_cases same : (h.zone .main).current = some (h.zone .main).selected
    · rw [if_pos same]
      exact ⟨fun sw => absurd same sw.2, fun _ => ⟨rfl, rfl, stays, rfl⟩, rfl, rfl, rfl⟩
    · rw [if_neg same]
      obtain ⟨source, derived, adopts, item, requested, matrix⟩ := Hub.handover_decoder src (h.zone .main).selected
        (Hub.clearLines .main (post (zoneSourceNotice .main (some (h.zone .main).selected))
          (h.setZone .main { h.zone .main with current := some (h.zone .main).selected })))
      exact ⟨fun _ => ⟨source, derived, adopts⟩, fun n => absurd ⟨rfl, same⟩ n, item, requested, matrix⟩
  · exact ⟨fun sw => (nomatch sw.1), fun _ => ⟨rfl, rfl, Decoder.adopts_active rfl rfl rfl rfl rfl rfl, rfl⟩, rfl, rfl, rfl⟩
  · exact ⟨fun sw => (nomatch sw.1), fun _ => ⟨rfl, rfl, stays, rfl⟩, rfl, rfl, rfl⟩

/-- R53, R70: what a pending set applied makes of the decoder. -/
theorem Hub.applyItems_decoder (z : ZoneId) (h : Hub) :
    let items := (h.zone z).pending
    let d := h.decoder
    let e := (h.applyItems z).decoder
    d.adopts e (if items.decode then d.derived else d.active) ∧ d.sameStanding e ∧
      e.itemPending = (d.itemPending && !items.decode) := by
  dsimp only
  unfold Hub.applyItems
  dsimp only
  generalize lip : (if (h.zone z).pending.lipsync = true then
    (h.setZone z { h.zone z with pending := .none }).applyLipsync z
    else h.setZone z { h.zone z with pending := .none }) = a
  have same : a.decoder = h.decoder := by
    rw [← lip]
    split <;> simp
  have layout (b : Hub) : (if (h.zone z).pending.layout = true then b.applyLayout else b).decoder = b.decoder := by
    split <;> simp
  rw [layout]
  by_cases decode : (h.zone z).pending.decode = true
  · rw [if_pos decode, if_pos decode, decode, ← same]
    obtain ⟨adopts, standing, item⟩ := Hub.adoptDecode_decoder
      { a with decoder := { a.decoder with itemPending := false } }
    exact ⟨adopts, standing, by rw [Bool.not_true, Bool.and_false]; exact item⟩
  · rw [if_neg decode, if_neg decode, Bool.eq_false_iff.2 decode, same]
    exact ⟨Decoder.adopts_active rfl rfl rfl rfl rfl rfl, ⟨rfl, rfl, rfl, rfl⟩, by simp⟩

/-- R87: the layout in force after an adoption of the derived layout. -/
theorem Hub.adoptLayout_inForce (h : Hub) : h.adoptLayout.renderer.inForce = h.renderer.derived := by
  obtain ⟨same, new, -⟩ := Hub.adoptLayout_effect h
  by_cases e : h.renderer.derived = h.renderer.inForce
  · rw [same e, e]
  · rw [(new e).1]
    rfl

/-- R53, R87: the layout in force after a pending set has been applied. -/
theorem Hub.applyItems_inForce (z : ZoneId) (h : Hub) :
    (h.applyItems z).renderer.inForce =
      if (h.zone z).pending.layout then h.renderer.derived else h.renderer.inForce := by
  have decode (b : Bool) (k : Hub) : (if b then k.applyDecode else k).renderer.inForce = k.renderer.inForce ∧
      (if b then k.applyDecode else k).renderer.derived = k.renderer.derived := by
    cases b
    · exact ⟨rfl, rfl⟩
    · exact Hub.adoptDecode_layouts { k with decoder := { k.decoder with itemPending := false } }
  have lipsync (b : Bool) (k : Hub) : (if b then k.applyLipsync z else k).renderer = k.renderer := by
    cases b <;> simp
  unfold Hub.applyItems
  dsimp only
  by_cases layout : (h.zone z).pending.layout = true
  · rw [if_pos layout, if_pos layout]
    refine (Hub.adoptLayout_inForce _).trans ?_
    exact (decode _ _).2.trans (congrArg Renderer.derived (lipsync _ _))
  · rw [if_neg layout, if_neg layout, (decode _ _).1, lipsync]
    rfl

/-- R71: a pair adopted by a record that has kept the one before. -/
theorem Decoder.adopts.after {d e f : Decoder} {pair : DecodePair} (first : d.adopts e d.active)
    (second : e.adopts f pair) : d.adopts f pair := by
  obtain ⟨active, -, kept⟩ := first
  obtain ⟨active', changed, kept'⟩ := second
  obtain ⟨lr, cs, sums, raw, steering⟩ := kept rfl
  rw [active] at changed kept'
  rw [lr, cs, sums, raw, steering] at kept'
  exact ⟨active', changed, kept'⟩

/-- R53, R54: a fade that ends leaves its zone, applies its pending set, tells its state and has the reference derived. -/
theorem Hub.endFadeOut_of_fading {src : Vector Source 8} {z : ZoneId} {k : Purpose} {h : Hub}
    (fading : (h.zone z).state = .fadingOut k) :
    h.endFadeOut src z = (((h.leaveFade src z k).applyItems z).postZoneState z).followMain src z := by
  simp [Hub.endFadeOut, fading]

/-- R53, R54, R70, R71, R87: the end of the main zone's fade as the decoder and the layout in force take it. -/
theorem Hub.endFadeOut_main {src : Vector Source 8} {k : Purpose} {h : Hub}
    (fading : (h.zone .main).state = .fadingOut k) :
    h.decodesAfterFade (h.endFadeOut src .main) src k ∧
      (h.endFadeOut src .main).renderer.inForce =
        (if (h.zone .main).pending.layout then h.renderer.derived else h.renderer.inForce) := by
  obtain ⟨switched, stayed, item, requested, matrix⟩ := Hub.leaveFade_decoder src k h
  obtain ⟨inForce, derived⟩ := Hub.leaveFade_layouts src .main k h
  obtain ⟨⟨-, -, -, pending, -⟩, -⟩ := Hub.leaveFade_zone src .main k h
  obtain ⟨adopts, ⟨source', derived', requested', matrix'⟩, item'⟩ :=
    Hub.applyItems_decoder .main (h.leaveFade src .main k)
  have inForce' := Hub.applyItems_inForce .main (h.leaveFade src .main k)
  rw [pending] at adopts item' inForce'
  have decoder : (h.endFadeOut src .main).decoder = ((h.leaveFade src .main k).applyItems .main).decoder := by
    rw [Hub.endFadeOut_of_fading fading]; simp
  have renderer : (h.endFadeOut src .main).renderer = ((h.leaveFade src .main k).applyItems .main).renderer := by
    rw [Hub.endFadeOut_of_fading fading]; simp
  rw [renderer, inForce', inForce, derived]
  refine ⟨?_, rfl⟩
  unfold Hub.decodesAfterFade
  rw [decoder]
  refine ⟨fun sw => ?_, fun n => ?_, item'.trans (by rw [item]; rfl), requested'.trans requested, matrix'.trans matrix⟩
  · obtain ⟨source, pair, adopted⟩ := switched sw
    refine ⟨source'.trans source, derived'.trans pair, adopted.again ?_⟩
    rw [pair, adopted.1, ite_self] at adopts
    exact adopts
  · obtain ⟨source, pair, adopted, active⟩ := stayed n
    rw [pair, active] at adopts
    exact ⟨source'.trans source, derived'.trans pair, adopted.after adopts⟩

/-! ### The items of the zones that react alongside -/

/-- A zone record with the DECODE and LAYOUT items of another. -/
def Zone.keepsItems (x y : Zone) : Prop := y.pending.decode = x.pending.decode ∧ y.pending.layout = x.pending.layout

/-- Every zone of `g` with the DECODE and LAYOUT items it has in `h`. -/
def Hub.keepsItems (h g : Hub) : Prop := ∀ w, (h.zone w).keepsItems (g.zone w)

theorem Hub.keepsItems_of_zones {h g : Hub} (e : g.zones = h.zones) : h.keepsItems g := fun w => by
  rw [Hub.zone_eq_of_zones e]; exact ⟨rfl, rfl⟩

theorem Hub.keepsItems.trans {h g k : Hub} (a : h.keepsItems g) (b : g.keepsItems k) : h.keepsItems k :=
  fun w => ⟨(b w).1.trans (a w).1, (b w).2.trans (a w).2⟩

theorem Hub.onCourse.keepsItems {h g : Hub} (a : h.onCourse g) : h.keepsItems g := fun w => by
  obtain ⟨-, -, -, -, -, -, -, layout, decode, -⟩ := a w
  exact ⟨decode, layout⟩

theorem Hub.setZone_keepsItems {z : ZoneId} {x : Zone} {h : Hub} (e : (h.zone z).keepsItems x) :
    h.keepsItems (h.setZone z x) := fun w => by
  by_cases same : w = z
  · subst same; simpa using e
  · simp [same, Zone.keepsItems]

theorem Hub.holdItem_lipsync_keepsItems (z : ZoneId) (h : Hub) :
    h.keepsItems (h.holdItem (fun s => { s with lipsync := true }) z) := by
  have entered (x : Zone) (e : (h.zone z).keepsItems x) : h.keepsItems ((h.enterZone z x).postZoneState z) :=
    (Hub.setZone_keepsItems e).trans (Hub.keepsItems_of_zones rfl)
  unfold Hub.holdItem
  dsimp only
  split
  · exact Hub.keepsItems_of_zones rfl
  · exact Hub.keepsItems_of_zones rfl
  · exact entered _ ⟨rfl, rfl⟩
  · exact entered _ ⟨rfl, rfl⟩
  · exact Hub.setZone_keepsItems ⟨rfl, rfl⟩

theorem Hub.tellGrant_keepsItems (z : ZoneId) (n : Nat) (h : Hub) : h.keepsItems (h.tellGrant z n) := by
  unfold Hub.tellGrant
  dsimp only
  split
  · exact Hub.keepsItems_of_zones rfl
  · have granted : h.keepsItems (h.setZone z { h.zone z with lipGranted := n }) := Hub.setZone_keepsItems ⟨rfl, rfl⟩
    exact Hub.keepsItems.trans (g := post _ (h.setZone z { h.zone z with lipGranted := n })) granted
      (Hub.holdItem_lipsync_keepsItems z _)

theorem Hub.recompute_keepsItems (h : Hub) : h.keepsItems h.recompute := by
  unfold Hub.recompute
  exact (((((Hub.tellGrant_keepsItems _ _ _).trans (Hub.tellGrant_keepsItems _ _ _)).trans
    (Hub.tellGrant_keepsItems _ _ _)).trans (Hub.applyGrant_onCourse _ _).keepsItems).trans
    (Hub.applyGrant_onCourse _ _).keepsItems).trans (Hub.applyGrant_onCourse _ _).keepsItems

theorem Hub.adoptLayout_keepsItems (h : Hub) : h.keepsItems h.adoptLayout := by
  unfold Hub.adoptLayout
  dsimp only
  split
  · exact Hub.keepsItems_of_zones rfl
  · have room := (h.makeRoom_onCourse none (h.renderer.derived.cells - h.renderer.inForce.cells)).keepsItems
    split
    · exact room.trans (Hub.keepsItems_of_zones (by simp))
    · exact (room.trans (Hub.keepsItems_of_zones (by simp))).trans (Hub.recompute_keepsItems _)

theorem Hub.applyLayout_keepsItems (h : Hub) : h.keepsItems h.applyLayout := by
  have cleared : h.keepsItems { h with renderer := { h.renderer with itemPending := false } } := Hub.keepsItems_of_zones rfl
  exact cleared.trans (Hub.adoptLayout_keepsItems _)

/-- R53: applying a zone's pending set leaves the DECODE and LAYOUT items of the other zones. -/
theorem Hub.applyItems_keepsItems {z w : ZoneId} (other : w ≠ z) (h : Hub) :
    (h.zone w).keepsItems ((h.applyItems z).zone w) := by
  have lipsync (b : Bool) (k : Hub) : k.keepsItems (if b then k.applyLipsync z else k) := by
    cases b
    · exact Hub.keepsItems_of_zones rfl
    · exact (k.applyLipsync_onCourse z).keepsItems
  have decode (b : Bool) (k : Hub) : k.keepsItems (if b then k.applyDecode else k) := by
    cases b
    · exact Hub.keepsItems_of_zones rfl
    · exact Hub.keepsItems_of_zones (by simp)
  have layout (b : Bool) (k : Hub) : k.keepsItems (if b then k.applyLayout else k) := by
    cases b
    · exact Hub.keepsItems_of_zones rfl
    · exact Hub.applyLayout_keepsItems k
  have emptied : (h.zone w).keepsItems ((h.setZone z { h.zone z with pending := .none }).zone w) := by
    rw [Hub.zone_setZone_other other]; exact ⟨rfl, rfl⟩
  have applied := ((lipsync (h.zone z).pending.lipsync (h.setZone z { h.zone z with pending := .none })).trans
    (decode (h.zone z).pending.decode _)).trans (layout (h.zone z).pending.layout _) w
  exact ⟨applied.1.trans emptied.1, applied.2.trans emptied.2⟩

/-- R55: the reaction of a zone to the departure of its source leaves the DECODE and LAYOUT items of the others. -/
theorem Hub.zoneSourceLeaves_keepsItems {z w : ZoneId} (other : w ≠ z) (src : Vector Source 8) (i : SourceId) (h : Hub) :
    (h.zone w).keepsItems ((h.zoneSourceLeaves src i z).zone w) := by
  have same : (h.zone w).keepsItems (h.zone w) := ⟨rfl, rfl⟩
  have waits : (h.zone w).keepsItems (((h.enterZone z (h.zone z).wait).postZoneState z).zone w) := by
    have e : ((h.enterZone z (h.zone z).wait).postZoneState z).zone w = h.zone w := Hub.enterZone_zone_other other _ h
    rw [e]; exact same
  unfold Hub.zoneSourceLeaves
  dsimp only
  split
  · split
    · exact waits
    · exact waits
    · next k fading =>
      generalize set : h.setZone z { h.zone z with gain := -1 } = a
      have fading' : (a.zone z).state = .fadingOut k := by rw [← set]; simp [fading]
      have zones : (a.endFadeOut src z).zones = ((a.leaveFade src z k).applyItems z).zones := by
        rw [Hub.endFadeOut_of_fading fading']; simp
      rw [Hub.zone_eq_of_zones zones]
      obtain ⟨-, -, -, -, untouched⟩ := Hub.leaveFade_zone src z k a
      have before : (a.leaveFade src z k).zone w = h.zone w := by
        rw [untouched w other, ← set, Hub.zone_setZone_other other]
      exact before ▸ Hub.applyItems_keepsItems other _
    · exact same
    · exact same
  · exact same

/-! ### A departure at the main zone's fade -/

/-- R53, R54, R55, R70, R71, R87: a departure that ends the main zone's fade. -/
theorem Hub.zoneSourceLeaves_mainFade {src : Vector Source 8} {i : SourceId} {k : Purpose} {h : Hub}
    (current : h.zones.main.current = some i) (fading : h.zones.main.state = .fadingOut k) :
    h.decodesAfterFade (h.zoneSourceLeaves src i .main) src k ∧
      (h.zoneSourceLeaves src i .main).renderer.inForce =
        (if h.zones.main.pending.layout then h.renderer.derived else h.renderer.inForce) := by
  have ends : h.zoneSourceLeaves src i .main =
      (h.setZone .main { h.zone .main with gain := -1 }).endFadeOut src .main := by
    have current' : (h.zone .main).current = some i := current
    have fading' : (h.zone .main).state = .fadingOut k := fading
    simp [Hub.zoneSourceLeaves, current', fading']
  rw [ends]
  exact Hub.endFadeOut_main (h := h.setZone .main { h.zone .main with gain := -1 }) (by exact fading)

/-- R53, R70, R87: what the departure of a source makes of a fade of the main zone's that it ends. -/
theorem Hub.sourceChanged_mainFade (src : Vector Source 8) (i : SourceId) (h : Hub) (gone : src[i].isRunning = false) :
    h.tookMainFade (h.sourceChanged src i true false) src i := by
  intro k current fading others
  have e : h.sourceChanged src i true false =
      (((h.zoneSourceLeaves src i .main).zoneSourceLeaves src i .z2).zoneSourceLeaves src i .z3).referenceLeaves i := by
    simp only [Hub.sourceChanged, gone]
    simp
  rw [e]
  obtain ⟨decodes, inForce⟩ := Hub.zoneSourceLeaves_mainFade (src := src) current fading
  have items2 := Hub.zoneSourceLeaves_keepsItems (z := .main) (w := .z2) (by decide) src i h
  have items3 := Hub.zoneSourceLeaves_keepsItems (z := .main) (w := .z3) (by decide) src i h
  generalize h.zoneSourceLeaves src i .main = a at decodes inForce items2 items3
  have items3' := Hub.zoneSourceLeaves_keepsItems (z := .z2) (w := .z3) (by decide) src i a
  obtain ⟨decode2, layout2⟩ := others .z2 (by decide)
  obtain ⟨decode3, layout3⟩ := others .z3 (by decide)
  have audio2 := a.zoneSourceLeaves_audio src i .z2
    (.inr ⟨by decide, items2.1.trans decode2, items2.2.trans layout2⟩)
  generalize a.zoneSourceLeaves src i .z2 = b at audio2 items3'
  have audio3 := b.zoneSourceLeaves_audio src i .z3
    (.inr ⟨by decide, (items3'.1.trans items3.1).trans decode3, (items3'.2.trans items3.2).trans layout3⟩)
  have decoder : ((b.zoneSourceLeaves src i .z3).referenceLeaves i).decoder = a.decoder := by simp [audio2, audio3]
  have renderer : ((b.zoneSourceLeaves src i .z3).referenceLeaves i).renderer = a.renderer := by simp [audio2, audio3]
  unfold Hub.decodesAfterFade at decodes ⊢
  rw [decoder, renderer]
  exact ⟨decodes, inForce⟩

/-- R54, R55: the departure of a source moves the main zone out of its fade where it plays that source, and else leaves it
in its fade. -/
theorem Hub.sourceChanged_mainState {src : Vector Source 8} {i : SourceId} {k : Purpose} {h : Hub}
    (gone : src[i].isRunning = false) (fading : h.zones.main.state = .fadingOut k) :
    (h.zones.main.current = some i → (h.sourceChanged src i true false).zones.main.state ≠ .fadingOut k) ∧
      (h.zones.main.current ≠ some i → (h.sourceChanged src i true false).zones.main.state = .fadingOut k) := by
  have e : h.sourceChanged src i true false =
      (((h.zoneSourceLeaves src i .main).zoneSourceLeaves src i .z2).zoneSourceLeaves src i .z3).referenceLeaves i := by
    simp only [Hub.sourceChanged, gone]
    simp
  rw [e, (Hub.referenceLeaves_frame i _).1]
  obtain ⟨stays, waits, ends, -⟩ := h.zoneSourceLeaves_course src i .main gone
  generalize h.zoneSourceLeaves src i .main = a at stays waits ends
  obtain ⟨-, -, -, nudge2, -⟩ := a.zoneSourceLeaves_course src i .z2 gone
  obtain ⟨-, -, -, nudge3, -⟩ := (a.zoneSourceLeaves src i .z2).zoneSourceLeaves_course src i .z3 gone
  have nudge := (nudge2 .main (by decide)).trans (nudge3 .main (by decide))
  generalize (a.zoneSourceLeaves src i .z2).zoneSourceLeaves src i .z3 = c at nudge
  obtain ⟨silent, audible, out⟩ := nudge.state
  refine ⟨fun current => ?_, fun other => ?_⟩
  · obtain ⟨switched, off, -⟩ := ends current k fading
    change (c.zone .main).state ≠ .fadingOut k
    cases k
    · have after : (a.zone .main).state = .waiting ∨ (a.zone .main).state = .fadingIn ∨
          (a.zone .main).state = .fadingOut .reconfigure := by
        obtain ⟨-, wait, fade⟩ := switched rfl
        cases running : src[(h.zone .main).selected].isRunning
        · exact .inl (wait running)
        · exact .inr (fade running)
      rcases after with after | after | after
      · rw [silent (.inr after), after]; nofun
      · rcases (audible (.inr after)).2 with new | new | new <;> rw [new] <;> nofun
      · rw [(out _ after).1]; nofun
    · rw [silent (.inl (off rfl).2), (off rfl).2]; nofun
    · have after := (waits current (.inr (.inr fading))).1
      rw [silent (.inr after), after]; nofun
  · have same := stays (.inl other)
    rw [same] at out
    exact (out k fading).1

/-! ### A source's record replaced -/

theorem Source.isRunning_iff {x : Source} : x.isRunning = true ↔ x.state = .running := by simp [Source.isRunning]

theorem Source.not_isRunning_iff {x : Source} : x.isRunning = false ↔ x.state ≠ .running := by simp [Source.isRunning]

/-- R3: what a record's replacement leads to in the other blocks, its channel set staying and its state changing. -/
theorem State.changeSource_hub {i : SourceId} {y : Source} {s : State} (state : y.state ≠ s.sources[i].state)
    (channels : y.channels = s.sources[i].channels) :
    (s.changeSource i y).hub =
      (post (sourceStateNotice i y) s.hub).sourceChanged (s.sources.set i y) i s.sources[i].isRunning false := by
  unfold State.changeSource
  dsimp only
  rw [decide_eq_true (Or.inl state), decide_eq_false (p := y.channels ≠ _) (by simp [channels])]
  rfl

/-- R3: a record whose state changes without entering or leaving RUNNING: SOURCE_STATE is posted and no other block reacts. -/
theorem State.changeSource_quiet {i : SourceId} {y : Source} {s : State} (state : y.state ≠ s.sources[i].state)
    (channels : y.channels = s.sources[i].channels) (before : s.sources[i].state ≠ .running)
    (after : y.state ≠ .running) : (s.changeSource i y).hub = post (sourceStateNotice i y) s.hub := by
  rw [State.changeSource_hub state channels, Source.not_isRunning_iff.2 before]
  simp [Hub.sourceChanged, Source.not_isRunning_iff.2 after]

/-- R30 to R32, R53 to R55, R70, R87: everything the departure of a source leads to in the other blocks. -/
def Hub.departs (h g : Hub) (src : Vector Source 8) (i : SourceId) (notices : List Notice) : Prop :=
  h.tookDeparture g src i notices ∧ h.keepsAudio g i ∧ h.tookMainFade g src i

/-- R55: a source that leaves RUNNING tells its state, and the other blocks react. -/
theorem State.changeSource_departed {i : SourceId} {y : Source} {s : State} (running : s.sources[i].state = .running)
    (gone : y.state ≠ .running) (channels : y.channels = s.sources[i].channels) :
    ∃ ns, (s.changeSource i y).hub.outbox = s.hub.outbox ++ ns ∧ sourceStateNotice i y ∈ ns ∧
      s.hub.departs (s.changeSource i y).hub (s.changeSource i y).sources i ns := by
  have now : (s.sources.set i y)[i].isRunning = false := by simpa [Source.isRunning] using gone
  rw [State.changeSource_hub (fun e => gone (e.trans running)) channels, Source.isRunning_iff.2 running]
  obtain ⟨ns, told, departure⟩ :=
    Hub.sourceChanged_departed (s.sources.set i y) i (post (sourceStateNotice i y) s.hub) now
  have audio := Hub.sourceChanged_keepsAudio (s.sources.set i y) i (post (sourceStateNotice i y) s.hub) now
  have fade := Hub.sourceChanged_mainFade (s.sources.set i y) i (post (sourceStateNotice i y) s.hub) now
  refine ⟨sourceStateNotice i y :: ns, ?_, List.mem_cons_self, ?_, audio, fade⟩
  · rw [told, post_outbox, List.append_assoc]; rfl
  · exact departure.alike rfl rfl fun n m => List.mem_cons_of_mem _ m

/-- R56: an entry told after a notice more. -/
theorem Hub.tookEntry.posted {h g : Hub} {i : SourceId} {n : Notice} {ns : List Notice}
    (entry : (post n h).tookEntry { g with outbox := (post n h).outbox } i ns) :
    h.tookEntry { g with outbox := h.outbox } i (n :: ns) := by
  obtain ⟨fades, stay, free, holdover, kept, told, rest⟩ := entry
  refine ⟨fun z current waiting => ?_, stay, free, holdover, kept,
    fun changed => List.mem_cons_of_mem _ (told changed), ?_⟩
  · obtain ⟨record, told⟩ := fades z current waiting
    exact ⟨record, List.mem_cons_of_mem _ told⟩
  · exact congrArg (fun k : Hub => { k with outbox := h.outbox }) rest

/-- R56: a source that enters RUNNING tells its state, and the other blocks react. -/
theorem State.changeSource_entered {i : SourceId} {y : Source} {s : State} (out : s.sources[i].state ≠ .running)
    (running : y.state = .running) (channels : y.channels = s.sources[i].channels) :
    ∃ ns, (s.changeSource i y).hub.outbox = s.hub.outbox ++ ns ∧ sourceStateNotice i y ∈ ns ∧
      s.hub.tookEntry { (s.changeSource i y).hub with outbox := s.hub.outbox } i ns := by
  have now : (s.sources.set i y)[i].isRunning = true := by simpa [Source.isRunning] using running
  rw [State.changeSource_hub (fun e => out (e.symm.trans running)) channels, Source.not_isRunning_iff.2 out]
  obtain ⟨ns, told, entry⟩ :=
    Hub.sourceChanged_entered (s.sources.set i y) i (post (sourceStateNotice i y) s.hub) now
  refine ⟨sourceStateNotice i y :: ns, ?_, List.mem_cons_self, entry.posted⟩
  rw [told, post_outbox, List.append_assoc]; rfl

/-! ### The decision of the block after a fade -/

/-- R74, R89: what the decision of a block decides. -/
theorem Hub.decideBlock_blockDecided (src : Vector Source 8) (h : Hub) : (h.decideBlock src).blockDecided src := by
  have decided (mode : ActiveMode) (set : Channels) (present : Bool) :
      backfill mode set present =
        (present && decide (mode = .matrix ∨ (mode = .direct ∧ set &&& 0xC0 = 0))) := by
    cases mode <;> simp [backfill]
  exact ⟨rfl, decided _ _ _, decided _ _ _⟩

theorem Zone.fading_iff {x : Zone} : x.fading = true ↔ ∃ k, x.state = .fadingOut k := by
  unfold Zone.fading
  cases x.state <;> simp

/-- R53, R55, R74: a departure at an output block start, with the decision of the block after the main zone's fade. -/
theorem State.redecide_departed {f : State → State} {i : SourceId} {y : Source} {s : State}
    (is : f s = s.changeSource i y) (running : s.sources[i].state = .running) (gone : y.state ≠ .running)
    (channels : y.channels = s.sources[i].channels) :
    ∃ ns, (s.redecide f).hub.outbox = s.hub.outbox ++ ns ∧ sourceStateNotice i y ∈ ns ∧
      s.hub.departs (s.redecide f).hub (s.redecide f).sources i ns ∧
      s.hub.decidedAfterFade (s.redecide f).hub (s.redecide f).sources i := by
  obtain ⟨ns, told, notice, departure, audio, fade⟩ := State.changeSource_departed running gone channels
  have now : (s.sources.set i y)[i].isRunning = false := by simpa [Source.isRunning] using gone
  have moves {k : Purpose} (fading : s.hub.zones.main.state = .fadingOut k) :
      (s.hub.zones.main.current = some i → (f s).hub.zones.main.state ≠ .fadingOut k) ∧
        (s.hub.zones.main.current ≠ some i → (f s).hub.zones.main.state = .fadingOut k) := by
    rw [is, State.changeSource_hub (fun e => gone (e.trans running)) channels, Source.isRunning_iff.2 running]
    exact Hub.sourceChanged_mainState (h := post (sourceStateNotice i y) s.hub) now fading
  rw [← is] at told departure audio fade
  rcases State.redecide_cases f s with ⟨out, moved, decided⟩ | ⟨stays, same⟩
  · obtain ⟨k, fading⟩ := Zone.fading_iff.1 out
    rw [decided]
    refine ⟨ns, told, notice, ⟨departure.alike rfl rfl fun _ m => m, fun alone => ?_, fade⟩, fun _ _ _ =>
      Hub.decideBlock_blockDecided _ _⟩
    have other : s.hub.zones.main.current ≠ some i := fun current => alone ⟨current, k, fading⟩
    exact absurd (((moves fading).2 other).trans fading.symm) moved
  · rw [same]
    refine ⟨ns, told, notice, ⟨departure, audio, fade⟩, fun k current fading => ?_⟩
    rcases stays with out | still
    · rw [Zone.fading_iff.2 ⟨k, fading⟩] at out; cases out
    · exact absurd (still.trans fading) ((moves fading).1 current)

end Sys2Proof.Machine
end

section
/-! SUPPORT. The events of a source at an output block start (O25). -/

namespace Sys2Proof.Machine

/-- An event that has been found, taken as a step of its own. -/
theorem eventStep_tells {d : Due} {s : State} (found : d ∈ s.hub.due) (awake : s.hub.standby.inReset = false)
    (ports : (State.takeDue d (s.onHub (Hub.dropDue d))).ports = s.ports)
    (index : (State.takeDue d (s.onHub (Hub.dropDue d))).freeIndex = s.freeIndex)
    (pending : (State.takeDue d (s.onHub (Hub.dropDue d))).pending = s.pending) :
    ∃ t, event (State.eventStep d) s = .next t ∧
      s.tells t (State.takeDue d (s.onHub (Hub.dropDue d))).hub.outbox ∧
      t.sources = (State.takeDue d (s.onHub (Hub.dropDue d))).sources ∧
      t.hub = { (State.takeDue d (s.onHub (Hub.dropDue d))).hub with outbox := [] } := by
  have step : State.eventStep d s = State.takeDue d (s.onHub (Hub.dropDue d)) := if_pos found
  have told := event_tells (f := State.eventStep d) awake (by rw [step, ports]) (by rw [step, index])
    (by rw [step, pending])
  rw [step] at told
  exact told

/-- R14: SOURCE_ABSENT where the source is to become ABSENT. -/
theorem State.takeAbsent_of_eight {i : SourceId} {s : State} (present : s.sources[i].state ≠ .absent)
    (eight : s.sources[i].absence = 8) : s.takeAbsent i = s.changeSource i (s.sources[i].enter .absent) :=
  if_pos ⟨present, eight⟩

/-- R13: the record of a source that the slip limit restarts. -/
def Source.restartForSlips (x : Source) : Source :=
  { x.enter .prefill with counters := { x.counters with slipRestarts := bump x.counters.slipRestarts } }

theorem State.takeSlipRestart_of_limit {i : SourceId} {s : State} (running : s.sources[i].state = .running)
    (limit : s.sources[i].corrections = 24) :
    s.takeSlipRestart i = s.changeSource i s.sources[i].restartForSlips := if_pos ⟨running, limit⟩

/-- R13: a restart for slips empties the buffer and counts itself. -/
theorem Source.restartForSlips_eq {x : Source} (running : x.state = .running) :
    x.restartForSlips =
      { x with
        state := .prefill, buffer := [], corrections := 0, lastRead := none, repeatHead := false
        counters := { x.counters with slipRestarts := bump x.counters.slipRestarts } } := by
  simp [Source.restartForSlips, Source.enter, Source.isRunning, running]

/-- Where a source's event leaves the zones, no block is decided again. -/
theorem State.redecide_of_zones {f : State → State} {s : State} (zones : (f s).hub.zones = s.hub.zones) :
    s.redecide f = f s := by
  rcases State.redecide_cases f s with ⟨-, moved, -⟩ | ⟨-, same⟩
  · exact absurd (by rw [zones]) moved
  · exact same

/-- What a source's event that replaces its record leaves of the rest, with the decision of the block after it. -/
theorem sourceEvent_replaces {d : Due} {f : State → State} {i : SourceId} {y : Source} {s : State}
    (takes : ∀ u, State.takeDue d u = u.redecide f) (found : d ∈ s.hub.due)
    (awake : s.hub.standby.inReset = false)
    (is : f (s.onHub (Hub.dropDue d)) = (s.onHub (Hub.dropDue d)).changeSource i y) :
    ∃ t, event (State.eventStep d) s = .next t ∧
      s.tells t ((s.onHub (Hub.dropDue d)).redecide f).hub.outbox ∧
      t.sources = ((s.onHub (Hub.dropDue d)).redecide f).sources ∧
      t.hub = { ((s.onHub (Hub.dropDue d)).redecide f).hub with outbox := [] } ∧
      (∀ j : SourceId, j ≠ i → t.sources[j] = s.sources[j]) ∧ t.sources[i] = y ∧
      t.hub.lanes = s.hub.lanes ∧ t.hub.protection = s.hub.protection ∧ t.hub.radio = s.hub.radio ∧
      t.hub.station = s.hub.station ∧ t.hub.standby = s.hub.standby ∧
      settingsOf t.hub.zones = settingsOf s.hub.zones ∧ t.hub.renderer.tables = s.hub.renderer.tables := by
  generalize dropped : s.onHub (Hub.dropDue d) = u at is ⊢
  obtain ⟨sources, ports, index, pending, -, zones, lanes, protection, radio, station, standby, -, -, tables⟩ :=
    State.redecide_frame f u
  obtain ⟨ports', index', pending', lanes', protection', radio', station', zones', tables'⟩ :=
    State.changeSource_frame i y u
  have standby' := State.changeSource_standby i y u
  rw [← is] at ports' index' pending' lanes' protection' radio' station' zones' tables' standby'
  obtain ⟨t, run, tells, sources'', hub⟩ := eventStep_tells (d := d) found awake
    (by rw [takes, dropped, ports, ports', ← dropped]; rfl) (by rw [takes, dropped, index, index', ← dropped]; rfl)
    (by rw [takes, dropped, pending, pending', ← dropped]; rfl)
  rw [takes, dropped] at tells sources'' hub
  refine ⟨t, run, tells, sources'', hub, fun j other => ?_, ?_, ?_⟩
  · rw [sources'', sources, is, State.changeSource_other y u other, ← dropped]
    rfl
  · rw [sources'', sources, is, State.changeSource_same]
  · rw [hub]
    refine ⟨lanes.trans ?_, protection.trans ?_, radio.trans ?_, station.trans ?_, standby.trans ?_,
      (congrArg settingsOf zones).trans ?_, tables.trans ?_⟩
    · rw [lanes', ← dropped]; rfl
    · rw [protection', ← dropped]; rfl
    · rw [radio', ← dropped]; rfl
    · rw [station', ← dropped]; rfl
    · rw [standby', ← dropped]; rfl
    · rw [zones', ← dropped]; rfl
    · rw [tables', ← dropped]; rfl

/-- R55: a source's event that takes it out of RUNNING at a block start. -/
theorem sourceEvent_departs {d : Due} {f : State → State} {i : SourceId} {y : Source} {s : State} (quiet : s.delivered)
    (is : f (s.onHub (Hub.dropDue d)) = (s.onHub (Hub.dropDue d)).changeSource i y)
    (running : s.sources[i].state = .running) (gone : y.state ≠ .running) (channels : y.channels = s.sources[i].channels) :
    let g := (s.onHub (Hub.dropDue d)).redecide f
    sourceStateNotice i y ∈ g.hub.outbox ∧ s.hub.departs g.hub g.sources i g.hub.outbox ∧
      s.hub.decidedAfterFade g.hub g.sources i := by
  obtain ⟨ns, told, notice, departs, decided⟩ := State.redecide_departed is running gone channels
  have none : (s.onHub (Hub.dropDue d)).hub.outbox = [] := quiet
  rw [none, List.nil_append] at told
  dsimp only
  rw [told]
  exact ⟨notice, departs, decided⟩

/-- R3: a source's event that replaces a record outside RUNNING tells its state and moves no other block. -/
theorem sourceEvent_quiet {d : Due} {f : State → State} {i : SourceId} {y : Source} {s : State}
    (is : f (s.onHub (Hub.dropDue d)) = (s.onHub (Hub.dropDue d)).changeSource i y)
    (out : s.sources[i].state ≠ .running) (after : y.state ≠ .running) (changes : y.state ≠ s.sources[i].state)
    (channels : y.channels = s.sources[i].channels) :
    ((s.onHub (Hub.dropDue d)).redecide f).hub = post (sourceStateNotice i y) (s.hub.dropDue d) := by
  have hub : (f (s.onHub (Hub.dropDue d))).hub = post (sourceStateNotice i y) (s.hub.dropDue d) := by
    rw [is, State.changeSource_quiet (s := s.onHub (Hub.dropDue d)) changes channels out after]
    rfl
  have zones : (f (s.onHub (Hub.dropDue d))).hub.zones = (s.onHub (Hub.dropDue d)).hub.zones := by
    rw [hub]
    rfl
  rw [State.redecide_of_zones zones, hub]

/-- Settles O25: an absence or a slip limit replaces the source's record, and the other blocks take its departure. -/
theorem sourcesLeaveByAbsenceOrSlips : Obligations.SourcesLeaveByAbsenceOrSlips := by
  refine fun s i ⟨quiet, awake⟩ => ⟨fun found present eight => ?_, fun found running limit => ?_⟩
  · have is := State.takeAbsent_of_eight (i := i) (s := s.onHub (Hub.dropDue (.sourceAbsent i))) present eight
    obtain ⟨t, run, tells, sources, hub, others, record, rest⟩ :=
      sourceEvent_replaces (fun _ => rfl) found awake is
    refine ⟨t, _, run, tells, others, record, ?_, fun running => ?_, fun out => ?_, rest⟩
    · by_cases running : s.sources[i].state = .running
      · exact record ▸ (sourceEvent_departs quiet is running nofun rfl).1
      · have same := sourceEvent_quiet is running nofun (fun e => present e.symm) rfl
        rw [same, record, post_outbox]
        exact List.mem_append_right _ (List.mem_singleton_self _)
    · obtain ⟨-, ⟨departure, audio, fade⟩, decided⟩ := sourceEvent_departs quiet is running nofun rfl
      rw [hub, sources]
      exact ⟨departure.alike rfl rfl fun _ m => m, audio, fade, decided⟩
    · have same := sourceEvent_quiet is out nofun (fun e => present e.symm) rfl
      have none : s.hub.outbox = [] := quiet
      rw [same] at hub ⊢
      rw [hub, record]
      refine ⟨congrArg (· ++ [_]) none, ?_⟩
      rw [← none]
      rfl
  · have is := State.takeSlipRestart_of_limit (i := i) (s := s.onHub (Hub.dropDue (.slipRestart i))) running limit
    obtain ⟨t, run, tells, sources, hub, others, record, rest⟩ :=
      sourceEvent_replaces (fun _ => rfl) found awake is
    obtain ⟨notice, ⟨departure, audio, fade⟩, decided⟩ := sourceEvent_departs quiet is running nofun rfl
    refine ⟨t, _, run, tells, others, record.trans (Source.restartForSlips_eq running), record ▸ notice, ?_⟩
    rw [hub, sources]
    exact ⟨departure.alike rfl rfl fun _ m => m, audio, fade, decided, hub ▸ rest⟩

end Sys2Proof.Machine
end

section
/-! SUPPORT. What a change of the decode source's channel set makes of a silent main zone's decoder (R69 to R72), and the
taking of a pending intake change (O24). -/

namespace Sys2Proof.Machine

/-! ### The decoder alongside a change of its source -/

/-- From `h` to `g` the decoder has kept its source and its settings, no notice is gone, and where no DECODE item was
pending none is, and an adoption has been told as the record then stands (R71). -/
def Hub.decodesOn (h g : Hub) : Prop :=
  g.decoder.source = h.decoder.source ∧ g.decoder.requested = h.decoder.requested ∧
    g.decoder.autoMatrix = h.decoder.autoMatrix ∧ h.keepsPosted g ∧
    (h.decoder.itemPending = false →
      g.decoder.itemPending = false ∧
        (g.decoder.active ≠ h.decoder.active → Hub.hasPosted (decodeActiveNotice g.decoder) h g))

theorem Hub.decodesOn_of_decoder {h g : Hub} (e : g.decoder = h.decoder) (posted : h.keepsPosted g) : h.decodesOn g := by
  unfold Hub.decodesOn
  rw [e]
  exact ⟨rfl, rfl, rfl, posted, fun item => ⟨item, fun n => absurd rfl n⟩⟩

theorem decodeActiveNotice_congr {d e : Decoder} (requested : e.requested = d.requested)
    (matrix : e.autoMatrix = d.autoMatrix) (active : e.active = d.active) (item : e.itemPending = d.itemPending) :
    decodeActiveNotice e = decodeActiveNotice d := by
  simp [decodeActiveNotice, requested, matrix, active, item]

theorem Hub.decodesOn.trans {h g k : Hub} (first : h.decodesOn g) (second : g.decodesOn k) : h.decodesOn k := by
  obtain ⟨source, requested, matrix, posted, told⟩ := first
  obtain ⟨source', requested', matrix', posted', told'⟩ := second
  refine ⟨source'.trans source, requested'.trans requested, matrix'.trans matrix, posted.trans posted', fun item => ?_⟩
  obtain ⟨item₁, told⟩ := told item
  obtain ⟨item₂, told'⟩ := told' item₁
  refine ⟨item₂, fun changed => ?_⟩
  by_cases same : k.decoder.active = g.decoder.active
  · rw [decodeActiveNotice_congr requested' matrix' same (item₂.trans item₁.symm)]
    exact (told (same ▸ changed)).after posted'
  · exact Hub.hasPosted.before posted (told' same)

/-- R71: an adoption that changes the pair is told. -/
theorem Hub.adoptDecode_told {h : Hub} (changes : h.decoder.derived ≠ h.decoder.active) :
    Hub.hasPosted (decodeActiveNotice h.adoptDecode.decoder) h h.adoptDecode := by
  unfold Hub.adoptDecode
  dsimp only
  rw [decide_eq_true changes]
  split <;> exact ⟨[_], rfl, List.mem_singleton_self _⟩

theorem Hub.adoptDecode_decodesOn (h : Hub) : h.decodesOn h.adoptDecode := by
  obtain ⟨⟨active, -⟩, ⟨source, -, requested, matrix⟩, item⟩ := Hub.adoptDecode_decoder h
  refine ⟨source, requested, matrix, Hub.adoptDecode_keepsPosted h, fun none => ⟨item.trans none, fun changed => ?_⟩⟩
  rw [active] at changed
  exact Hub.adoptDecode_told changed

theorem Hub.applyDecode_decodesOn (h : Hub) : h.decodesOn h.applyDecode := by
  obtain ⟨source, requested, matrix, posted, told⟩ :=
    Hub.adoptDecode_decodesOn { h with decoder := { h.decoder with itemPending := false } }
  exact ⟨source, requested, matrix, posted, fun _ => told rfl⟩

theorem Hub.applyItems_decodesOn (z : ZoneId) (h : Hub) : h.decodesOn (h.applyItems z) := by
  have lipsync (b : Bool) (k : Hub) : k.decodesOn (if b then k.applyLipsync z else k) := by
    cases b
    · exact Hub.decodesOn_of_decoder rfl (Hub.keepsPosted_of_eq rfl)
    · exact Hub.decodesOn_of_decoder (by simp) (Hub.keepsPosted_of_eq (k.applyLipsync_outbox z))
  have decode (b : Bool) (k : Hub) : k.decodesOn (if b then k.applyDecode else k) := by
    cases b
    · exact Hub.decodesOn_of_decoder rfl (Hub.keepsPosted_of_eq rfl)
    · exact Hub.applyDecode_decodesOn k
  have layout (b : Bool) (k : Hub) : k.decodesOn (if b then k.applyLayout else k) := by
    cases b
    · exact Hub.decodesOn_of_decoder rfl (Hub.keepsPosted_of_eq rfl)
    · exact Hub.decodesOn_of_decoder (by simp) (Hub.applyLayout_keepsPosted k)
  have emptied : h.decodesOn (h.setZone z { h.zone z with pending := .none }) :=
    Hub.decodesOn_of_decoder rfl (Hub.keepsPosted_of_eq rfl)
  exact ((emptied.trans (lipsync (h.zone z).pending.lipsync _)).trans (decode (h.zone z).pending.decode _)).trans
    (layout (h.zone z).pending.layout _)

/-- R70: the end of a fade of Zone 2 or 3 leaves the decoder. -/
theorem Hub.leaveFade_decoder_other {z : ZoneId} (other : z ≠ .main) (src : Vector Source 8) (k : Purpose) (h : Hub) :
    (h.leaveFade src z k).decoder = h.decoder := by
  unfold Hub.leaveFade Hub.makeCurrent Hub.zoneOff
  cases z
  · exact absurd rfl other
  all_goals
    cases k
    · dsimp only
      split <;> simp
    · simp
    · simp

/-- R55, R70: the decoder through a zone's reaction to a departure that ends no fade of the main zone. -/
theorem Hub.zoneSourceLeaves_decodesOn {src : Vector Source 8} {i : SourceId} {z : ZoneId} {h : Hub}
    (gone : src[i].isRunning = false)
    (apart : z ≠ .main ∨ ¬ ((h.zone z).current = some i ∧ ∃ k, (h.zone z).state = .fadingOut k)) :
    h.decodesOn (h.zoneSourceLeaves src i z) := by
  by_cases fades : (h.zone z).current = some i ∧ ∃ k, (h.zone z).state = .fadingOut k
  · have other : z ≠ .main := apart.resolve_right (fun n => n fades)
    obtain ⟨current, k, fading⟩ := fades
    have ends : h.zoneSourceLeaves src i z = (h.setZone z { h.zone z with gain := -1 }).endFadeOut src z := by
      simp [Hub.zoneSourceLeaves, current, fading]
    rw [ends, Hub.endFadeOut_of_fading (k := k) (by simp [fading])]
    have silenced : h.decodesOn (h.setZone z { h.zone z with gain := -1 }) :=
      Hub.decodesOn_of_decoder rfl (Hub.keepsPosted_of_eq rfl)
    generalize h.setZone z { h.zone z with gain := -1 } = a at silenced
    have left : a.decodesOn (a.leaveFade src z k) :=
      Hub.decodesOn_of_decoder (Hub.leaveFade_decoder_other other src k a) (Hub.leaveFade_keepsPosted src z k a)
    have applied := (silenced.trans left).trans (Hub.applyItems_decodesOn z _)
    generalize (a.leaveFade src z k).applyItems z = b at applied
    have told : b.decodesOn (b.postZoneState z) := Hub.decodesOn_of_decoder rfl (post_keepsPosted _ _)
    exact (applied.trans told).trans (Hub.decodesOn_of_decoder (by simp) (Hub.followMain_keepsPosted src z _))
  · obtain ⟨-, -, -, -, -, posted⟩ := h.zoneSourceLeaves_course src i z gone
    exact Hub.decodesOn_of_decoder (h.zoneSourceLeaves_audio src i z (.inl fades)).1 posted

/-- R69, R70: the derivation for a silent main zone with no DECODE item pending adopts the pair at once. -/
theorem Hub.rederive_silent {src : Vector Source 8} {i : SourceId} {h : Hub} (source : h.decoder.source = some i)
    (item : h.decoder.itemPending = false) (silent : h.zones.main.state = .off ∨ h.zones.main.state = .waiting) :
    h.decodesOn (h.rederive id src) ∧ (h.rederive id src).zones = h.zones ∧
      (h.rederive id src).decoder.derived = h.decoder.tablePair src[i].channels ∧
      (h.rederive id src).decoder.active = h.decoder.tablePair src[i].channels := by
  have pair : (h.decoder.derive src i).derived = h.decoder.tablePair src[i].channels :=
    derivePair_eq_tablePair h.decoder _
  by_cases same : (h.decoder.derive src i).derived = (h.decoder.derive src i).active
  · have e : h.rederive id src = { h with decoder := h.decoder.derive src i } := by
      simp [Hub.rederive, source, same]
    rw [e]
    exact ⟨⟨rfl, rfl, rfl, Hub.keepsPosted_of_eq rfl, fun none => ⟨none, fun n => absurd rfl n⟩⟩, rfl, pair,
      same.symm.trans pair⟩
  · have e : h.rederive id src =
        Hub.adoptDecode { h with decoder := { h.decoder.derive src i with itemPending := false } } := by
      have item' : (h.decoder.derive src i).itemPending = false := item
      have main : Hub.zone { h with decoder := { h.decoder.derive src i with itemPending := true } } .main =
        h.zones.main := rfl
      unfold Hub.rederive
      rw [source]
      dsimp only
      rw [if_pos ⟨same, item'⟩]
      unfold Hub.raiseItem
      rcases silent with state | state <;> simp only [id, main, state] <;> rfl
    rw [e]
    obtain ⟨⟨active, -⟩, ⟨source', derived, requested, matrix⟩, item'⟩ :=
      Hub.adoptDecode_decoder { h with decoder := { h.decoder.derive src i with itemPending := false } }
    have told := Hub.adoptDecode_decodesOn { h with decoder := { h.decoder.derive src i with itemPending := false } }
    obtain ⟨-, -, -, posted, told⟩ := told
    exact ⟨⟨source', requested, matrix, posted, fun _ => told rfl⟩, (Hub.adoptDecode_frame _).2.1, derived.trans pair,
      active.trans pair⟩

theorem Hub.rederive_keepsPosted (src : Vector Source 8) (h : Hub) : h.keepsPosted (h.rederive id src) := by
  unfold Hub.rederive Hub.raiseItem
  dsimp only [id]
  split
  · exact Hub.keepsPosted_of_eq rfl
  · split
    · split
      · exact Hub.keepsPosted.trans (Hub.keepsPosted_of_eq rfl) (Hub.applyDecode_keepsPosted _)
      · exact Hub.keepsPosted.trans (Hub.keepsPosted_of_eq rfl) (Hub.applyDecode_keepsPosted _)
      · exact Hub.keepsPosted.trans (Hub.keepsPosted_of_eq rfl) (Hub.holdItem_keepsPosted _ _ _)
    · exact Hub.keepsPosted_of_eq rfl

/-! ### A channel set that changes -/

/-- R55: the three zones' reactions to a departure. -/
def Hub.zonesSourceLeaves (src : Vector Source 8) (i : SourceId) (h : Hub) : Hub :=
  ((h.zoneSourceLeaves src i .main).zoneSourceLeaves src i .z2).zoneSourceLeaves src i .z3

theorem Hub.zonesSourceLeaves_keepsPosted {src : Vector Source 8} {i : SourceId} (gone : src[i].isRunning = false)
    (h : Hub) : h.keepsPosted (h.zonesSourceLeaves src i) := by
  have one (z : ZoneId) (k : Hub) : k.keepsPosted (k.zoneSourceLeaves src i z) := by
    obtain ⟨-, -, -, -, -, posted⟩ := k.zoneSourceLeaves_course src i z gone
    exact posted
  exact ((one .main h).trans (one .z2 _)).trans (one .z3 _)

/-- R55: the reactions bring a main zone that plays the source, or fades it in, to wait for it, and leave a silent one. -/
theorem Hub.zonesSourceLeaves_silent {src : Vector Source 8} {i : SourceId} {h : Hub} (gone : src[i].isRunning = false)
    (state : h.zones.main.state = .off ∨ h.zones.main.state = .waiting ∨
      (h.zones.main.current = some i ∧ (h.zones.main.state = .playing ∨ h.zones.main.state = .fadingIn))) :
    h.decodesOn (h.zonesSourceLeaves src i) ∧
      ((h.zonesSourceLeaves src i).zones.main.state = .off ∨
        (h.zonesSourceLeaves src i).zones.main.state = .waiting) := by
  have apart : ¬ ((h.zone .main).current = some i ∧ ∃ k, (h.zone .main).state = .fadingOut k) := by
    rintro ⟨-, k, fading⟩
    have fading : h.zones.main.state = .fadingOut k := fading
    rw [fading] at state
    rcases state with e | e | ⟨-, e | e⟩ <;> cases e
  have decoded := Hub.zoneSourceLeaves_decodesOn gone (.inr apart)
  obtain ⟨stays, waits, -⟩ := h.zoneSourceLeaves_course src i .main gone
  have silent : ((h.zoneSourceLeaves src i .main).zone .main).state = .off ∨
      ((h.zoneSourceLeaves src i .main).zone .main).state = .waiting := by
    rcases state with off | waiting | ⟨current, audible⟩
    · rw [stays (.inr (.inr off))]; exact .inl off
    · rw [stays (.inr (.inl waiting))]; exact .inr waiting
    · exact .inr (waits current (audible.imp_right .inl)).1
  unfold Hub.zonesSourceLeaves
  generalize h.zoneSourceLeaves src i .main = a at decoded silent
  have decoded2 := Hub.zoneSourceLeaves_decodesOn (h := a) (z := .z2) gone (.inl (by decide))
  obtain ⟨-, -, -, nudge2, -⟩ := a.zoneSourceLeaves_course src i .z2 gone
  have nudge2 := nudge2 .main (by decide)
  generalize a.zoneSourceLeaves src i .z2 = b at decoded2 nudge2
  have decoded3 := Hub.zoneSourceLeaves_decodesOn (h := b) (z := .z3) gone (.inl (by decide))
  obtain ⟨-, -, -, nudge3, -⟩ := b.zoneSourceLeaves_course src i .z3 gone
  have same := (nudge2.trans (nudge3 .main (by decide))).state.1 silent
  exact ⟨(decoded.trans decoded2).trans decoded3, silent.imp same.trans same.trans⟩

/-- R55, R72, R32: the reactions to a source that is not in RUNNING after a change. -/
theorem Hub.sourceChanged_of_gone {src : Vector Source 8} {i : SourceId} (gone : src[i].isRunning = false)
    (was channels : Bool) (h : Hub) :
    h.sourceChanged src i was channels =
      let a := if was then h.zonesSourceLeaves src i else h
      let b := if channels ∧ a.decoder.source = some i then a.rederive id src else a
      if was then b.referenceLeaves i else b := by
  simp only [Hub.sourceChanged, gone, Hub.zonesSourceLeaves]
  cases was <;> simp

theorem Hub.sourceChanged_keepsPosted {src : Vector Source 8} {i : SourceId} (gone : src[i].isRunning = false)
    (was channels : Bool) (h : Hub) : h.keepsPosted (h.sourceChanged src i was channels) := by
  have derives (b : Prop) [Decidable b] (k : Hub) : k.keepsPosted (if b then k.rederive id src else k) := by
    split
    · exact Hub.rederive_keepsPosted src k
    · exact Hub.keepsPosted_of_eq rfl
  rw [Hub.sourceChanged_of_gone gone]
  cases was
  · exact derives _ h
  · exact ((Hub.zonesSourceLeaves_keepsPosted gone h).trans (derives _ _)).trans (Hub.referenceLeaves_effect i _).2.1

/-- R69 to R72: the decode source's new channel set as a main zone takes it that is silent, or that the departure silences. -/
theorem Hub.sourceChanged_pair {src : Vector Source 8} {i : SourceId} {was : Bool} {h : Hub}
    (gone : src[i].isRunning = false) (source : h.decoder.source = some i) (item : h.decoder.itemPending = false)
    (state : h.zones.main.state = .off ∨ h.zones.main.state = .waiting ∨
      (was = true ∧ h.zones.main.current = some i ∧
        (h.zones.main.state = .playing ∨ h.zones.main.state = .fadingIn))) :
    let g := h.sourceChanged src i was true
    let pair := h.decoder.tablePair src[i].channels
    g.decoder.derived = pair ∧ g.decoder.active = pair ∧ g.decoder.itemPending = false ∧
      (pair ≠ h.decoder.active → Hub.hasPosted (decodeActiveNotice g.decoder) h g) := by
  have reaction (a : Hub) (on : h.decodesOn a) (silent : a.zones.main.state = .off ∨ a.zones.main.state = .waiting) :
      h.decodesOn (a.rederive id src) ∧
        (a.rederive id src).decoder.derived = h.decoder.tablePair src[i].channels ∧
        (a.rederive id src).decoder.active = h.decoder.tablePair src[i].channels := by
    have on' := on
    obtain ⟨source', requested, matrix, -, told⟩ := on'
    obtain ⟨derives, -, derived, active⟩ :=
      Hub.rederive_silent (src := src) (source'.trans source) (told item).1 silent
    have pair : a.decoder.tablePair src[i].channels = h.decoder.tablePair src[i].channels := by
      unfold Decoder.tablePair
      rw [requested, matrix]
    rw [pair] at derived active
    exact ⟨on.trans derives, derived, active⟩
  have conclude (g : Hub) (on : h.decodesOn g) (derived : g.decoder.derived = h.decoder.tablePair src[i].channels)
      (active : g.decoder.active = h.decoder.tablePair src[i].channels) :
      g.decoder.derived = h.decoder.tablePair src[i].channels ∧
        g.decoder.active = h.decoder.tablePair src[i].channels ∧ g.decoder.itemPending = false ∧
        (h.decoder.tablePair src[i].channels ≠ h.decoder.active →
          Hub.hasPosted (decodeActiveNotice g.decoder) h g) := by
    obtain ⟨-, -, -, -, told⟩ := on
    obtain ⟨none, told⟩ := told item
    exact ⟨derived, active, none, fun changes => told (active ▸ changes)⟩
  dsimp only
  rw [Hub.sourceChanged_of_gone gone]
  cases was
  · dsimp only
    have silent : h.zones.main.state = .off ∨ h.zones.main.state = .waiting := by
      rcases state with off | waiting | ⟨was, -⟩
      · exact .inl off
      · exact .inr waiting
      · cases was
    rw [if_neg Bool.false_ne_true, if_neg Bool.false_ne_true, if_pos ⟨rfl, source⟩]
    obtain ⟨on, derived, active⟩ :=
      reaction h (Hub.decodesOn_of_decoder rfl (Hub.keepsPosted_of_eq rfl)) silent
    exact conclude _ on derived active
  · obtain ⟨on, silent⟩ := Hub.zonesSourceLeaves_silent (h := h) gone
      (state.imp_right fun s => s.imp_right And.right)
    dsimp only
    rw [if_pos rfl, if_pos rfl, if_pos ⟨rfl, on.1.trans source⟩]
    obtain ⟨on, derived, active⟩ := reaction _ on silent
    refine conclude _ (on.trans (Hub.decodesOn_of_decoder (by simp) (Hub.referenceLeaves_effect i _).2.1)) ?_ ?_
    · simpa using derived
    · simpa using active

/-! ### The records of RESTART and NEW_GROUPS -/

theorem Source.takeChange_restart_running {x : Source} (restart : x.change = some .restart) (running : x.state = .running) :
    x.takeChange =
      { x with
        state := .prefill, change := none, buffer := [], corrections := 0, lastRead := none, repeatHead := false } := by
  simp [Source.takeChange, restart, running, Source.enter, Source.isRunning]

theorem Source.takeChange_restart_prefill {x : Source} (restart : x.change = some .restart) (prefill : x.state = .prefill) :
    x.takeChange =
      { x with change := none, state := if x.prefill ≤ x.buffer.length then .running else .prefill } := by
  by_cases filled : x.prefill ≤ x.buffer.length <;>
    simp [Source.takeChange, restart, prefill, Source.fill, filled, Source.enter]

theorem Source.takeChange_restart_other {x : Source} (restart : x.change = some .restart) (running : x.state ≠ .running)
    (prefill : x.state ≠ .prefill) : x.takeChange = { x with change := none } := by
  unfold Source.takeChange
  rw [restart]
  dsimp only
  split
  · next e => exact absurd e running
  · next e => exact absurd e prefill
  · rfl

theorem Source.takeChange_none {x : Source} (none : x.change = none) : x.takeChange = x := by
  unfold Source.takeChange
  rw [none]

/-! ### A source's record replaced, its channel set changing -/

/-- R3, R72: what a record's replacement leads to in the other blocks, its channel set changing. -/
theorem State.changeSource_hub_channels {i : SourceId} {y : Source} {s : State}
    (channels : y.channels ≠ s.sources[i].channels) :
    (s.changeSource i y).hub =
      (post (sourceStateNotice i y) s.hub).sourceChanged (s.sources.set i y) i s.sources[i].isRunning true := by
  unfold State.changeSource
  dsimp only
  rw [decide_eq_true (Or.inr channels), decide_eq_true channels]
  rfl

/-- R3: a record that is replaced by one outside RUNNING, of another state or another channel set, tells its state. -/
theorem State.changeSource_told {i : SourceId} {y : Source} {s : State} (after : y.state ≠ .running)
    (changes : y.state ≠ s.sources[i].state ∨ y.channels ≠ s.sources[i].channels) :
    Hub.hasPosted (sourceStateNotice i y) s.hub (s.changeSource i y).hub := by
  have gone : (s.sources.set i y)[i].isRunning = false := by simpa [Source.isRunning] using after
  have told := post_hasPosted (sourceStateNotice i y) s.hub
  by_cases channels : y.channels = s.sources[i].channels
  · rw [State.changeSource_hub (changes.resolve_right fun n => n channels) channels]
    exact told.after (Hub.sourceChanged_keepsPosted gone _ _ _)
  · rw [State.changeSource_hub_channels channels]
    exact told.after (Hub.sourceChanged_keepsPosted gone _ _ _)

/-- R55, R32: a source that leaves RUNNING with another channel set, unless a main zone with another source hears of it. -/
theorem State.changeSource_departed_channels {i : SourceId} {y : Source} {s : State}
    (running : s.sources[i].state = .running) (gone : y.state ≠ .running) (channels : y.channels ≠ s.sources[i].channels)
    (own : s.hub.decoder.source ≠ some i ∨ s.hub.zones.main.current = some i) :
    ∃ ns, (s.changeSource i y).hub.outbox = s.hub.outbox ++ ns ∧
      s.hub.tookDeparture (s.changeSource i y).hub (s.changeSource i y).sources i ns := by
  have now : (s.sources.set i y)[i].isRunning = false := by simpa [Source.isRunning] using gone
  rw [State.changeSource_hub_channels channels, Source.isRunning_iff.2 running]
  obtain ⟨ns, told, departure⟩ :=
    Hub.sourceChanged_departed_channels (s.sources.set i y) i (post (sourceStateNotice i y) s.hub) now own
  refine ⟨sourceStateNotice i y :: ns, ?_, departure.alike rfl rfl fun n m => List.mem_cons_of_mem _ m⟩
  rw [told, post_outbox, List.append_assoc]; rfl

/-- R70: a derivation for a silent main zone moves no zone. -/
theorem Hub.rederive_silent_zones (src : Vector Source 8) {h : Hub}
    (silent : h.zones.main.state = .off ∨ h.zones.main.state = .waiting) : (h.rederive id src).zones = h.zones := by
  have main (d : Decoder) : Hub.zone { h with decoder := d } .main = h.zones.main := rfl
  unfold Hub.rederive Hub.raiseItem
  dsimp only [id]
  split
  · rfl
  · split
    · rcases silent with state | state <;> simp [main, state]
    · rfl

/-- R3, R72: a channel set that changes outside RUNNING concerns the decoder of a zone that plays the source, and no one
else. -/
theorem State.changeSource_still {i : SourceId} {y : Source} {s : State} (before : s.sources[i].state ≠ .running)
    (after : y.state = s.sources[i].state) :
    (s.hub.decoder.source ≠ some i →
      ∃ ns, (s.changeSource i y).hub = { s.hub with outbox := s.hub.outbox ++ ns }) ∧
    (s.hub.zones.main.state = .off ∨ s.hub.zones.main.state = .waiting →
      (s.changeSource i y).hub.zones = s.hub.zones ∧ (s.changeSource i y).hub.clock = s.hub.clock) := by
  by_cases channels : y.channels = s.sources[i].channels
  · rw [State.changeSource_of_same after channels]
    exact ⟨fun _ => ⟨[], by simp⟩, fun _ => ⟨rfl, rfl⟩⟩
  · have gone : (s.sources.set i y)[i].isRunning = false := by simpa [Source.isRunning, after] using before
    rw [State.changeSource_hub_channels channels, Source.not_isRunning_iff.2 before, Hub.sourceChanged_of_gone gone]
    dsimp only
    rw [if_neg Bool.false_ne_true, if_neg Bool.false_ne_true]
    refine ⟨fun other => ?_, fun silent => ?_⟩
    · rw [if_neg (fun own => other own.2)]
      exact ⟨[_], rfl⟩
    · split
      · exact ⟨Hub.rederive_silent_zones _ (by exact silent), (Hub.rederiveSilently_frame _ _).1⟩
      · exact ⟨rfl, rfl⟩

/-! ### PENDING_INTAKE_CHANGE -/

theorem Source.takeChange_newGroups_gone {x : Source} {a b : Nat} (change : x.change = some (.newGroups a b)) :
    x.takeChange.state ≠ .running := by
  obtain ⟨-, -, -, -, -, -, -, -, -, -, -, state⟩ := Source.takeChange_newGroups change
  rw [state]
  split
  · nofun
  · assumption

/-- R69: the table's pair for an empty channel set. -/
theorem Decoder.tablePair_empty (d : Decoder) :
    d.tablePair 0 =
      match d.requested with
      | .auto => if d.autoMatrix then ⟨.matrix, .auto⟩ else ⟨.direct, .auto⟩
      | .direct => ⟨.direct, .asRequested⟩
      | .matrix => ⟨.matrix, .asRequested⟩
      | .fold2 => ⟨.direct, .fold2NeedsMultichannel⟩ := by
  unfold Decoder.tablePair
  cases d.requested <;> rfl

/-- R25, R54, R55, R72: what a change of groups leads to in the other blocks. -/
theorem State.takeChange_newGroups_reacts {i : SourceId} {a b : Nat} {s : State} (quiet : s.hub.outbox = [])
    (change : s.sources[i].change = some (.newGroups a b)) :
    let g := s.takeChange i
    (s.sources[i].state = .running ∨ s.sources[i].channels ≠ 0 → sourceStateNotice i g.sources[i] ∈ g.hub.outbox) ∧
    (s.sources[i].state = .running → s.hub.decoder.source ≠ some i ∨ s.hub.zones.main.current = some i →
      s.hub.tookDeparture g.hub g.sources i g.hub.outbox) ∧
    (s.sources[i].state ≠ .running → s.hub.decoder.source ≠ some i → { g.hub with outbox := [] } = s.hub) ∧
    (s.sources[i].state ≠ .running → s.hub.zones.main.state = .off ∨ s.hub.zones.main.state = .waiting →
      g.hub.zones = s.hub.zones ∧ g.hub.clock = s.hub.clock) ∧
    (s.hub.decoder.source = some i → s.sources[i].channels ≠ 0 → s.hub.decoder.itemPending = false →
      s.hub.zones.main.state = .off ∨ s.hub.zones.main.state = .waiting ∨
          (s.sources[i].state = .running ∧ s.hub.zones.main.current = some i ∧
            (s.hub.zones.main.state = .playing ∨ s.hub.zones.main.state = .fadingIn)) →
        g.hub.decoder.derived = s.hub.decoder.tablePair 0 ∧ g.hub.decoder.active = s.hub.decoder.tablePair 0 ∧
          g.hub.decoder.itemPending = false ∧
          (s.hub.decoder.tablePair 0 ≠ s.hub.decoder.active → decodeActiveNotice g.hub.decoder ∈ g.hub.outbox)) := by
  have gone := Source.takeChange_newGroups_gone change
  obtain ⟨-, -, -, -, channels, -, -, -, -, -, -, state⟩ := Source.takeChange_newGroups change
  have empty {ns : List Notice} {o : List Notice} (told : o = s.hub.outbox ++ ns) : o = ns := by
    rw [told, quiet, List.nil_append]
  dsimp only
  rw [State.takeChange_eq, State.changeSource_same]
  generalize s.sources[i].takeChange = y at gone channels state
  refine ⟨fun moves => ?_, fun running own => ?_, fun out other => ?_, fun out silent => ?_,
    fun source full item silent => ?_⟩
  · have changes : y.state ≠ s.sources[i].state ∨ y.channels ≠ s.sources[i].channels := by
      rcases moves with running | full
      · exact .inl (running ▸ gone)
      · exact .inr (channels ▸ full.symm)
    obtain ⟨ns, told, notice⟩ := State.changeSource_told gone changes
    rw [empty told]
    exact notice
  · by_cases same : y.channels = s.sources[i].channels
    · obtain ⟨ns, told, -, departure, -⟩ := State.changeSource_departed running gone same
      rw [empty told]
      exact departure
    · obtain ⟨ns, told, departure⟩ := State.changeSource_departed_channels running gone same own
      rw [empty told]
      exact departure
  · obtain ⟨ns, hub⟩ := (State.changeSource_still out (state.trans (if_neg out))).1 other
    rw [hub, ← quiet]
  · exact (State.changeSource_still out (state.trans (if_neg out))).2 silent
  · have now : (s.sources.set i y)[i].isRunning = false := by simpa [Source.isRunning] using gone
    have pair := Hub.sourceChanged_pair (was := s.sources[i].isRunning) (h := post (sourceStateNotice i y) s.hub) now
      source item (silent.imp_right fun s => s.imp_right fun s => ⟨Source.isRunning_iff.2 s.1, s.2⟩)
    have set : (s.sources.set i y)[i].channels = 0 := by simpa using channels
    rw [State.changeSource_hub_channels (channels ▸ full.symm)]
    dsimp only at pair
    rw [set] at pair
    obtain ⟨derived, active, none, told⟩ := pair
    refine ⟨derived, active, none, fun changes => ?_⟩
    obtain ⟨ns, outbox, notice⟩ := told changes
    rw [outbox]
    exact List.mem_append_right _ notice

/-- Settles O24: the pending change of a source is taken, and the other blocks react to what its record becomes. -/
theorem pendingIntakeChangeIsTaken : Obligations.PendingIntakeChangeIsTaken := by
  refine fun s i ⟨quiet, awake⟩ => ?_
  have none : s.hub.outbox = [] := quiet
  obtain ⟨t, run, tells, sources, hub⟩ := event_tells (f := State.takeChange i) awake (by simp) (by simp) (by simp)
  have record : t.sources[i] = s.sources[i].takeChange := by rw [sources, State.takeChange_same]
  have still (state : s.sources[i].takeChange.state = s.sources[i].state)
      (channels : s.sources[i].takeChange.channels = s.sources[i].channels) : (s.takeChange i).hub = s.hub := by
    rw [State.takeChange_eq, State.changeSource_of_same state channels]
    rfl
  refine ⟨t, _, run, tells, fun j other => ?_, fun unchanged => ?_, fun restart => ⟨fun running => ?_, fun prefill => ?_,
    fun running prefill => ?_⟩, fun a b change => ?_, ?_⟩
  · rw [sources, State.takeChange_other s other]
  · have same := Source.takeChange_none unchanged
    rw [sources, hub, still (by rw [same]) (by rw [same]), State.takeChange_eq, same,
      State.changeSource_of_same rfl rfl]
    exact ⟨by simp [State.setSource], State.hub_of_delivered quiet⟩
  · have is := Source.takeChange_restart_running restart running
    obtain ⟨ns, told, notice, departure, audio, fade⟩ := State.changeSource_departed (y := s.sources[i].takeChange)
      running (by rw [is]; nofun) (by rw [is])
    rw [← State.takeChange_eq] at told departure audio fade
    rw [none, List.nil_append] at told
    refine ⟨record.trans is, ?_⟩
    rw [record, hub, sources, told]
    exact ⟨notice, departure.alike rfl rfl fun _ m => m, audio, fade⟩
  · have is := Source.takeChange_restart_prefill restart prefill
    refine ⟨record.trans is, fun filled => ?_, fun unfilled => ?_⟩
    · rw [if_pos filled] at is
      obtain ⟨ns, told, notice, entry⟩ := State.changeSource_entered (y := s.sources[i].takeChange)
        (by rw [prefill]; nofun) (by rw [is]) (by rw [is])
      rw [← State.takeChange_eq, none] at told entry
      rw [record, hub, told]
      exact ⟨notice, entry⟩
    · rw [if_neg (Nat.not_le.2 unfilled)] at is
      rw [hub, still (by rw [is]; exact prefill.symm) (by rw [is])]
      exact ⟨State.hub_of_delivered quiet, none⟩
  · have is := Source.takeChange_restart_other restart running prefill
    refine ⟨record.trans is, ?_⟩
    rw [hub, still (by rw [is]) (by rw [is])]
    exact State.hub_of_delivered quiet
  · obtain ⟨idA, idB, maskA, maskB, channels, buffer, pending, seq, written, assembly, block, state⟩ :=
      Source.takeChange_newGroups change
    obtain ⟨taken, -, counters, adopted⟩ := Source.takeChange_frame s.sources[i]
    obtain ⟨notice, departs, alone, silent, pair⟩ := State.takeChange_newGroups_reacts none change
    rw [State.takeChange_same] at notice
    rw [record, hub, sources]
    refine ⟨idA, idB, maskA, maskB, channels, buffer, pending, seq, written, assembly, block, taken, adopted, counters,
      state, notice, fun running own => ?_, alone, silent, ?_⟩
    · exact (departs running own).alike rfl rfl fun _ m => m
    · rw [Decoder.tablePair_empty] at pair
      exact pair
  · rw [hub]
    simp

end Sys2Proof.Machine
end

section
/-! SUPPORT. Something done for each source or each lane in turn, and the entry to STANDBY (O21). -/

namespace Sys2Proof.Machine

/-! ### Turns -/

/-- What a list of turns makes of the part that each turn owns, where a turn reads and writes its own part alone while an
invariant holds that every turn keeps. -/
theorem foldl_turns {ι α β : Type} [DecidableEq ι] {f : ι → β → β} {get : ι → β → α} {F : ι → α → α} {P : β → Prop}
    (keeps : ∀ i b, P b → P (f i b)) (own : ∀ i b, P b → get i (f i b) = F i (get i b))
    (other : ∀ i j b, P b → j ≠ i → get j (f i b) = get j b) :
    ∀ (l : List ι), l.Nodup → ∀ b, P b →
      P (l.foldl (fun c i => f i c) b) ∧
        ∀ j, get j (l.foldl (fun c i => f i c) b) = if j ∈ l then F j (get j b) else get j b := by
  intro l
  induction l with
  | nil => exact fun _ b h => ⟨h, fun j => by simp⟩
  | cons i l ih =>
    intro distinct b h
    obtain ⟨fresh, distinct⟩ := List.nodup_cons.1 distinct
    obtain ⟨after, each⟩ := ih distinct (f i b) (keeps i b h)
    refine ⟨after, fun j => ?_⟩
    rw [List.foldl_cons, each j]
    by_cases same : j = i
    · subst same
      rw [if_neg fresh, if_pos List.mem_cons_self, own j b h]
    · rw [other i j b h same]
      simp [same]

/-- The turns of all sources, while an invariant holds that every turn keeps. -/
theorem State.eachSource_turns {α : Type} {f : SourceId → State → State} {get : SourceId → State → α}
    {F : SourceId → α → α} {P : State → Prop} (keeps : ∀ i t, P t → P (f i t))
    (own : ∀ i t, P t → get i (f i t) = F i (get i t)) (other : ∀ i j t, P t → j ≠ i → get j (f i t) = get j t)
    (s : State) (h : P s) : P (s.eachSource f) ∧ ∀ j, get j (s.eachSource f) = F j (get j s) := by
  obtain ⟨after, each⟩ := foldl_turns keeps own other (List.finRange 8) (List.nodup_finRange 8) s h
  exact ⟨after, fun j => (each j).trans (if_pos (List.mem_finRange j))⟩

/-- The turns of all lanes, while an invariant holds that every turn keeps. -/
theorem Hub.eachLane_turns {α : Type} {f : LaneId → Hub → Hub} {get : LaneId → Hub → α} {F : LaneId → α → α}
    {P : Hub → Prop} (keeps : ∀ l h, P h → P (f l h)) (own : ∀ l h, P h → get l (f l h) = F l (get l h))
    (other : ∀ l m h, P h → m ≠ l → get m (f l h) = get m h) (h : Hub) (holds : P h) :
    P (h.eachLane f) ∧ ∀ m, get m (h.eachLane f) = F m (get m h) := by
  obtain ⟨after, each⟩ := foldl_turns keeps own other (List.finRange 11) (List.nodup_finRange 11) h holds
  exact ⟨after, fun m => (each m).trans (if_pos (List.mem_finRange m))⟩

/-! ### The sources -/

/-- R21: the record of a source as the part enters STANDBY. -/
def Source.toStandby (x : Source) : Source :=
  if x.state = .absent then { x with change := none } else Source.enter .absent { x with change := none }

theorem State.sourceToStandby_same (i : SourceId) (s : State) :
    (s.sourceToStandby i).sources[i] = s.sources[i].toStandby := by
  unfold State.sourceToStandby Source.toStandby
  dsimp only
  split
  · exact State.setSource_same i _ s
  · exact State.changeSource_same i _ s

theorem State.sourceToStandby_apart {i j : SourceId} (s : State) (other : j ≠ i) :
    (s.sourceToStandby i).sources[j] = s.sources[j] := by
  unfold State.sourceToStandby
  dsimp only
  split
  · exact State.setSource_other _ s other
  · exact State.changeSource_other _ s other

/-- R21: what a source keeps and loses as the part enters STANDBY. -/
theorem Source.toStandby_keeps (x : Source) :
    x.toStandby.state = .absent ∧ x.toStandby.change = none ∧ x.toStandby.adopted = x.adopted ∧
      x.toStandby.counters = x.counters ∧ x.toStandby.prefill = x.prefill ∧ x.toStandby.channels = x.channels ∧
      x.toStandby.maskA = x.maskA ∧ x.toStandby.maskB = x.maskB ∧ x.toStandby.groupA = x.groupA ∧
      x.toStandby.groupB = x.groupB ∧ (x.state ≠ .absent → x.toStandby.buffer = []) := by
  unfold Source.toStandby
  split
  · next absent => exact ⟨absent, rfl, rfl, rfl, rfl, rfl, rfl, rfl, rfl, rfl, fun n => absurd absent n⟩
  · exact ⟨rfl, rfl, rfl, rfl, rfl, rfl, rfl, rfl, rfl, rfl, fun _ => rfl⟩

/-- From `h` to `g` nothing but the clock and the notices has changed, and of the clock not its mode. -/
def Hub.clockAside (h g : Hub) : Prop :=
  g = { h with clock := g.clock, outbox := g.outbox } ∧ g.clock.mode = h.clock.mode

theorem Hub.clockAside.trans {h g k : Hub} (first : h.clockAside g) (second : g.clockAside k) : h.clockAside k := by
  obtain ⟨e, mode⟩ := first
  obtain ⟨e', mode'⟩ := second
  refine ⟨?_, mode'.trans mode⟩
  rw [e] at e'
  exact e'

theorem Hub.clockAside.blocks {h g : Hub} (aside : h.clockAside g) :
    g.zones = h.zones ∧ g.decoder = h.decoder ∧ g.renderer = h.renderer ∧ g.lanes = h.lanes ∧
      g.protection = h.protection ∧ g.radio = h.radio ∧ g.station = h.station ∧ g.standby = h.standby := by
  obtain ⟨e, -⟩ := aside
  rw [e]
  exact ⟨rfl, rfl, rfl, rfl, rfl, rfl, rfl, rfl⟩

/-- R55: no zone that is OFF reacts to a departure. -/
theorem Hub.zonesSourceLeaves_of_off {src : Vector Source 8} {i : SourceId} {h : Hub} (off : ∀ z, (h.zone z).state = .off) :
    h.zonesSourceLeaves src i = h := by
  have one (z : ZoneId) : h.zoneSourceLeaves src i z = h := by simp [Hub.zoneSourceLeaves, off z]
  simp [Hub.zonesSourceLeaves, one]

theorem Hub.setClock_aside {c : Clock} {h : Hub} (mode : c.mode = h.clock.mode) : h.clockAside (h.setClock c) := by
  unfold Hub.setClock postIf
  split <;> exact ⟨rfl, mode⟩

theorem Hub.referenceLeaves_aside (i : SourceId) (h : Hub) : h.clockAside (h.referenceLeaves i) := by
  unfold Hub.referenceLeaves
  split
  · exact Hub.setClock_aside rfl
  · exact ⟨rfl, rfl⟩

/-- R21: a source that becomes ABSENT while every zone is OFF moves the clock at most. -/
theorem State.sourceToStandby_aside (i : SourceId) {s : State} (off : ∀ z, (s.hub.zone z).state = .off) :
    s.hub.clockAside (s.sourceToStandby i).hub := by
  unfold State.sourceToStandby
  dsimp only
  split
  · exact ⟨rfl, rfl⟩
  · next present =>
    generalize y : Source.enter .absent { s.sources[i] with change := none } = x
    have state : x.state = .absent := by rw [← y]; rfl
    have channels : x.channels = s.sources[i].channels := by rw [← y]; rfl
    have gone : (s.sources.set i x)[i].isRunning = false := by simp [Source.isRunning, state]
    have told : s.hub.clockAside (post (sourceStateNotice i x) s.hub) := ⟨rfl, rfl⟩
    rw [State.changeSource_hub (fun e => present (e.symm.trans state)) channels, Hub.sourceChanged_of_gone gone]
    have off' : ∀ z, ((post (sourceStateNotice i x) s.hub).zone z).state = .off := off
    rw [Hub.zonesSourceLeaves_of_off off']
    cases s.sources[i].isRunning
    · exact told
    · exact told.trans (Hub.referenceLeaves_aside i _)

/-! ### The decoder and the renderer -/

/-- R83, R86, R87: the renderer as the part enters STANDBY. -/
def Renderer.inStandby (r q : Renderer) : Prop :=
  q.inForce = (if r.faultAdoption then r.derived else r.inForce) ∧ q.derived = r.derived ∧ q.faultAdoption = false ∧
    q.itemPending = r.itemPending ∧ q.clips = r.clips ∧ q.tables = r.tables ∧
    (∀ p : Position, q.filters[p] = 0 ∧ q.lines[p] = List.replicate q.inForce.delays[p] 0) ∧
    q.subLine = List.replicate q.inForce.subDelay 0

theorem Renderer.clearLines_silent (r : Renderer) (p : Position) :
    r.clearLines.filters[p] = 0 ∧ r.clearLines.lines[p] = List.replicate r.inForce.delays[p] 0 := by
  simp [Renderer.clearLines, Renderer.clearFilters]

/-- R87: a layout adopted while every line and filter is at zero leaves them so. -/
theorem Renderer.adopt_silent (l : Layout) {r : Renderer}
    (silent : ∀ p : Position, r.filters[p] = 0 ∧ r.lines[p] = List.replicate r.inForce.delays[p] 0)
    (sub : r.subLine = List.replicate r.inForce.subDelay 0) :
    (∀ p : Position, (r.adopt l).filters[p] = 0 ∧ (r.adopt l).lines[p] = List.replicate l.delays[p] 0) ∧
      (r.adopt l).subLine = List.replicate l.subDelay 0 := by
  obtain ⟨-, each, line⟩ := Renderer.adopt_adopted l r
  refine ⟨fun p => ⟨?_, ?_⟩, ?_⟩
  · have filter : (r.adopt l).filters[p] =
        if l.bass.getLsbD p && r.inForce.bass.getLsbD p then r.filters[p] else 0 := by simp [Renderer.adopt]
    rw [filter, (silent p).1, ite_self]
  · rw [(each p).1, (silent p).2]
    split
    · next same => rw [same]
    · rfl
  · rw [line, sub]
    split
    · next same => rw [same]
    · rfl

/-- R87: the renderer after an adoption of the derived layout. -/
theorem Hub.adoptLayout_renderer (h : Hub) :
    h.adoptLayout.renderer = h.renderer ∧ h.renderer.derived = h.renderer.inForce ∨
      h.adoptLayout.renderer = h.renderer.adopt h.renderer.derived := by
  obtain ⟨same, new, -⟩ := Hub.adoptLayout_effect h
  by_cases e : h.renderer.derived = h.renderer.inForce
  · exact .inl ⟨by rw [same e], e⟩
  · exact .inr (new e).1

theorem Hub.audioToStandby_renderer (h : Hub) : h.renderer.inStandby h.audioToStandby.renderer := by
  have silent := Renderer.clearLines_silent h.renderer
  unfold Hub.audioToStandby
  dsimp only
  split
  · next waits =>
    have waits : h.renderer.faultAdoption = true := waits
    rcases Hub.adoptLayout_renderer
        { h with decoder := h.decoder.restart, renderer := { h.renderer.clearLines with faultAdoption := false } } with
      ⟨same, derived⟩ | new
    · have derived : h.renderer.derived = h.renderer.inForce := derived
      refine (congrArg h.renderer.inStandby (show _ = _ from same)).mpr ?_
      refine ⟨?_, rfl, rfl, rfl, rfl, rfl, silent, rfl⟩
      rw [if_pos waits, derived]
      rfl
    · obtain ⟨lines, sub⟩ := Renderer.adopt_silent h.renderer.derived
        (r := { h.renderer.clearLines with faultAdoption := false }) silent rfl
      refine (congrArg h.renderer.inStandby (show _ = _ from new)).mpr ?_
      refine ⟨?_, rfl, rfl, rfl, rfl, rfl, lines, sub⟩
      rw [if_pos waits]
      rfl
  · next none =>
    have none : h.renderer.faultAdoption = false := Bool.eq_false_iff.2 none
    refine ⟨?_, rfl, none, rfl, rfl, rfl, silent, rfl⟩
    rw [none]
    rfl

theorem Hub.audioToStandby_decoder (h : Hub) : h.audioToStandby.decoder = h.decoder.restart := by
  unfold Hub.audioToStandby
  dsimp only
  split
  · simp [Hub.adoptForFault]
  · rfl

/-! ### The lanes -/

/-- R106: the record of a lane that is OPEN as the part enters STANDBY. -/
def Lane.toStandby (x : Lane) : Lane :=
  if x.fault = .retry then { x with trips := [], dcWindow := [], dcSum := 0, fault := .ok, retryTimer := 0 }
  else { x with trips := [], dcWindow := [], dcSum := 0 }

/-- R106: what a lane that is OPEN does as the part enters STANDBY. -/
theorem Hub.laneToStandby_of_open {l : LaneId} {h : Hub} (isOpen : h.lanes[l].relay = .open) :
    h.laneToStandby l =
      postIf (decide (h.lanes[l].fault = .retry)) (laneFaultNotice l h.lanes[l].toStandby)
        (h.setLane l h.lanes[l].toStandby) := by
  unfold Hub.laneToStandby Hub.openAtOnce Lane.toStandby
  rw [if_pos isOpen]
  dsimp only
  by_cases retry : h.lanes[l].fault = .retry
  · simp only [if_pos retry, decide_eq_true retry]; rfl
  · simp only [if_neg retry, decide_eq_false retry]; rfl

/-- From `h` to `g` every relay stays OPEN, and nothing but the lanes and the notices has changed. -/
def Hub.lanesAside (h g : Hub) : Prop :=
  (∀ l : LaneId, g.lanes[l].relay = .open) ∧ g = { h with lanes := g.lanes, outbox := g.outbox }

theorem Hub.laneToStandby_lanes {l : LaneId} {h : Hub} (isOpen : h.lanes[l].relay = .open) :
    (h.laneToStandby l).lanes = h.lanes.set l h.lanes[l].toStandby := by
  rw [Hub.laneToStandby_of_open isOpen]
  unfold postIf
  split <;> rfl

theorem Lane.toStandby_relay (x : Lane) : x.toStandby.relay = x.relay := by
  unfold Lane.toStandby
  split <;> rfl

/-- R106: what a lane keeps and loses as the part enters STANDBY. -/
theorem Lane.toStandby_keeps (x : Lane) :
    x.toStandby.trips = [] ∧ x.toStandby.dcWindow = [] ∧
      x.toStandby.fault = (if x.fault = .retry then .ok else x.fault) ∧ x.toStandby.assignment = x.assignment ∧
      x.toStandby.clips = x.clips ∧ x.toStandby.tripCount = x.tripCount := by
  unfold Lane.toStandby
  split <;> exact ⟨rfl, rfl, rfl, rfl, rfl, rfl⟩

/-- R106, R190: every lane as the part enters STANDBY with every relay OPEN. -/
theorem Hub.lanesToStandby_of_open {h : Hub} (opened : ∀ l : LaneId, h.lanes[l].relay = .open) :
    h.lanesAside (h.eachLane Hub.laneToStandby) ∧
      ∀ l : LaneId, (h.eachLane Hub.laneToStandby).lanes[l] = h.lanes[l].toStandby := by
  refine Hub.eachLane_turns (get := fun l g => g.lanes[l]) (F := fun _ => Lane.toStandby) (P := h.lanesAside)
    ?_ ?_ ?_ h ⟨opened, rfl⟩
  · rintro l g ⟨stay, rest⟩
    refine ⟨fun m => ?_, ?_⟩
    · rw [Hub.laneToStandby_lanes (stay l)]
      by_cases same : m = l
      · subst same
        simpa [Lane.toStandby_relay] using stay m
      · have other : l.val ≠ m.val := fun e => same (Fin.ext e.symm)
        simpa [other] using stay m
    · rw [Hub.laneToStandby_of_open (stay l), rest]
      unfold postIf
      split <;> rfl
  · rintro l g ⟨stay, -⟩
    rw [Hub.laneToStandby_lanes (stay l)]
    simp
  · rintro l m g ⟨stay, -⟩ other
    have other : l.val ≠ m.val := fun e => other (Fin.ext e.symm)
    rw [Hub.laneToStandby_lanes (stay l)]
    simp [other]

/-! ### The radio -/

/-- R149, R150: the radio as the part enters STANDBY, and what its station data keep. -/
theorem Hub.stopRadio_keeps (h : Hub) :
    h.stopRadio.radio =
        { h.radio with
          state := .off, op := none, exchange := none, mute := false, blendPending := false, dataCount := 0
          qualityCount := 0, dataWaiting := false, qualityWaiting := false, probeCount := 0 } ∧
      h.stopRadio.station.corrected = h.station.corrected := by
  unfold Hub.stopRadio Hub.endOperation
  dsimp only
  repeat' split
  all_goals exact ⟨rfl, rfl⟩

/-! ### STANDBY_ENTRY -/

/-- R190: what the entry to STANDBY does last. -/
def Hub.standbyEntered (c : Hub) : Hub :=
  post (standbyEnteredNotice c.standby.enteringPort)
    { c with
      station := c.station.toStandby
      due := []
      standby := { c.standby with power := .standby, reported := 0, enteringPort := none } }

/-- R117, R149: what the entry to STANDBY does between the lanes and its end. -/
def Hub.quieten (b : Hub) : Hub := Hub.stopRadio { b with protection := b.protection.toStandby }

theorem Hub.enterStandby_eq (h : Hub) :
    h.enterStandby = ((h.stopClock.audioToStandby.eachLane Hub.laneToStandby).quieten).standbyEntered := rfl

theorem Hub.quieten_keeps (b : Hub) :
    b.quieten.clock = b.clock ∧ b.quieten.decoder = b.decoder ∧ b.quieten.renderer = b.renderer ∧
      b.quieten.lanes = b.lanes ∧ b.quieten.protection = b.protection.toStandby ∧ b.quieten.standby = b.standby ∧
      b.quieten.radio =
        { b.radio with
          state := .off, op := none, exchange := none, mute := false, blendPending := false, dataCount := 0
          qualityCount := 0, dataWaiting := false, qualityWaiting := false, probeCount := 0 } ∧
      b.quieten.station.corrected = b.station.corrected := by
  obtain ⟨clock, -, decoder, renderer, lanes, protection, standby, -⟩ :=
    Hub.stopRadio_frame { b with protection := b.protection.toStandby }
  obtain ⟨radio, corrected⟩ := Hub.stopRadio_keeps { b with protection := b.protection.toStandby }
  exact ⟨clock, decoder, renderer, lanes, protection, standby, radio, corrected⟩

/-- R190: everything the entry to STANDBY does to the blocks behind Source Intake, every relay being OPEN. -/
theorem Hub.enterStandby_effect {h : Hub} (opened : ∀ l : LaneId, h.lanes[l].relay = .open) :
    let g := h.enterStandby
    (∃ ns, g.outbox =
      ns ++ [⟨.standbyEntered, 0, BitVec.ofNat 32 (3 + 4 * portField h.standby.enteringPort)⟩]) ∧
    g.standby = { h.standby with power := .standby, reported := 0, enteringPort := none } ∧ g.due = [] ∧
    g.clock = { h.clock.enterFree with running := false, reference := none } ∧ g.decoder = h.decoder.restart ∧
    h.renderer.inStandby g.renderer ∧
    g.radio =
      { h.radio with
        state := .off, op := none, exchange := none, mute := false, blendPending := false, dataCount := 0
        qualityCount := 0, dataWaiting := false, qualityWaiting := false, probeCount := 0 } ∧
    g.station.freq = none ∧ g.station.code = none ∧ g.station.corrected = h.station.corrected ∧
    (∀ l : LaneId, g.lanes[l] = h.lanes[l].toStandby) ∧ g.protection = h.protection.toStandby := by
  have stopped : h.stopClock.clock = { h.clock.enterFree with running := false, reference := none } := by
    unfold Hub.stopClock Hub.setClock postIf
    split <;> rfl
  have decoder := Hub.audioToStandby_decoder h.stopClock
  have renderer := Hub.audioToStandby_renderer h.stopClock
  obtain ⟨clock, lanes, protection, radio, station, standby⟩ := Hub.audioToStandby_frame h.stopClock
  simp only [Hub.stopClock_frame] at decoder renderer lanes protection radio station standby
  dsimp only
  rw [Hub.enterStandby_eq]
  generalize h.stopClock.audioToStandby = a at decoder renderer clock lanes protection radio station standby
  rw [stopped] at clock
  obtain ⟨⟨-, same⟩, each⟩ := Hub.lanesToStandby_of_open (h := a) (by rw [lanes]; exact opened)
  generalize a.eachLane Hub.laneToStandby = b at same each
  obtain ⟨clock', decoder', renderer', lanes', protection', standby', radio', corrected⟩ := Hub.quieten_keeps b
  generalize b.quieten = c at clock' decoder' renderer' lanes' protection' standby' radio' corrected
  have port : c.standby.enteringPort = h.standby.enteringPort := by rw [standby', same, standby]
  refine ⟨⟨c.outbox, ?_⟩, ?_, rfl, ?_, ?_, ?_, ?_, rfl, rfl, ?_, fun l => ?_, ?_⟩
  · rw [Hub.standbyEntered, post_outbox, port]
    simp [standbyEnteredNotice, packFields, Nat.mul_comm]
  · change { c.standby with power := .standby, reported := 0, enteringPort := none } = _
    rw [standby', same, standby]
  · change c.clock = _
    rw [clock', same, clock]
  · change c.decoder = _
    rw [decoder', same, decoder]
  · change h.renderer.inStandby c.renderer
    rw [renderer', same]
    exact renderer
  · change c.radio = _
    rw [radio', same, radio]
  · change c.station.corrected = _
    rw [corrected, same, station]
  · change c.lanes[l] = _
    have same : a.lanes[l] = h.lanes[l] := by rw [lanes]
    rw [lanes', each, same]
  · change c.protection = _
    rw [protection', same, protection]

/-- Settles O21: the sources go ABSENT one after another, and then every other block takes its standby effects. -/
theorem standbyIsEntered : Obligations.StandbyIsEntered := by
  refine fun s ⟨quiet, awake⟩ entering off opened => ?_
  have reached : s.hub.standbyReached = true := by
    have main : s.hub.zones.main.state = .off := off .main
    have z2 : s.hub.zones.z2.state = .off := off .z2
    have z3 : s.hub.zones.z3.state = .off := off .z3
    have relays : s.hub.allRelaysOpen = true := by
      rw [Hub.allRelaysOpen, List.all_eq_true]
      intro x member
      obtain ⟨k, bound, is⟩ := List.getElem_of_mem member
      have lane := opened ⟨k, by simpa using bound⟩
      rw [← is]
      simpa using lane
    simp [Hub.standbyReached, entering, Hub.allZonesOff, main, z2, z3, relays]
  have step : s.takeStandbyEntry = (s.eachSource State.sourceToStandby).onHub Hub.enterStandby := if_pos reached
  obtain ⟨aside, records⟩ :=
    State.eachSource_turns (f := State.sourceToStandby) (get := fun i t => t.sources[i]) (F := fun _ => Source.toStandby)
      (P := fun t => s.hub.clockAside t.hub)
      (fun i t aside => aside.trans (State.sourceToStandby_aside i fun z => by
        rw [Hub.zone_eq_of_zones aside.blocks.1 z]; exact off z))
      (fun i t _ => State.sourceToStandby_same i t) (fun i j t _ other => State.sourceToStandby_apart t other) s
      ⟨rfl, rfl⟩
  obtain ⟨ports, index, pending, settings, tables⟩ := State.takeStandbyEntry_frame s
  obtain ⟨t, run, tells, sources, hub⟩ := event_tells awake ports index pending
  rw [step] at tells sources hub settings tables
  generalize s.eachSource State.sourceToStandby = u at *
  obtain ⟨-, decoderBefore, rendererBefore, lanesBefore, protectionBefore, radioBefore, stationBefore, standbyBefore⟩ :=
    aside.blocks
  obtain ⟨⟨ns, outbox⟩, standby, due, clock, decoder, renderer, radio, freq, code, corrected, lanes, protection⟩ :=
    Hub.enterStandby_effect (h := u.hub) (by rw [lanesBefore]; exact opened)
  rw [State.onHub_sources] at sources
  simp only [State.onHub_hub] at tells hub settings tables
  generalize u.hub.enterStandby = g at *
  rw [standbyBefore] at outbox standby
  rw [decoderBefore] at decoder
  rw [rendererBefore] at renderer
  rw [radioBefore] at radio
  rw [stationBefore] at corrected
  rw [lanesBefore] at lanes
  rw [protectionBefore] at protection
  rw [outbox] at tells
  have standby : t.hub.standby = { s.hub.standby with power := .standby, reported := 0, enteringPort := none } := by
    rw [hub]; exact standby
  have due : t.hub.due = [] := by rw [hub]; exact due
  have clock : t.hub.clock = { u.hub.clock.enterFree with running := false, reference := none } := by
    rw [hub]; exact clock
  have decoder : t.hub.decoder = s.hub.decoder.restart := by rw [hub]; exact decoder
  have renderer : s.hub.renderer.inStandby t.hub.renderer := by rw [hub]; exact renderer
  have radio : t.hub.radio = { s.hub.radio with
      state := .off, op := none, exchange := none, mute := false, blendPending := false, dataCount := 0
      qualityCount := 0, dataWaiting := false, qualityWaiting := false, probeCount := 0 } := by rw [hub]; exact radio
  have protection : t.hub.protection = s.hub.protection.toStandby := by rw [hub]; exact protection
  have record (i : SourceId) : t.sources[i] = s.sources[i].toStandby := by rw [sources]; exact records i
  have lane (l : LaneId) : t.hub.lanes[l] = s.hub.lanes[l].toStandby := by rw [hub]; exact lanes l
  have freq : t.hub.station.freq = none := by rw [hub]; exact freq
  have code : t.hub.station.code = none := by rw [hub]; exact code
  have corrected : t.hub.station.corrected = s.hub.station.corrected := by rw [hub]; exact corrected
  have each (i : SourceId) := record i ▸ Source.toStandby_keeps s.sources[i]
  have kept (l : LaneId) := lane l ▸ Lane.toStandby_keeps s.hub.lanes[l]
  have relay (l : LaneId) : t.hub.lanes[l].relay = .open := by rw [lane, Lane.toStandby_relay]; exact opened l
  obtain ⟨inForce, derived, adoption, item, clips, held, silent, sub⟩ := renderer
  refine ⟨t, ns, run, tells, ?_, by rw [decoder]; rfl, standby, due, by rw [clock], by rw [clock]; rfl, by rw [clock],
    by rw [clock]; rfl, by rw [clock]; exact aside.2, fun i => ?_, by rw [radio], by rw [radio], by rw [radio], by rw [radio],
    by rw [radio], by rw [radio], by rw [radio], freq, code, corrected, fun l => ?_, by rw [protection]; rfl,
    by rw [protection]; rfl, by rw [hub]; exact settings, held⟩
  · refine ⟨by rw [standby], due, by rw [clock], by rw [clock]; rfl, by rw [clock], by rw [clock]; rfl,
      by rw [clock]; rfl, by rw [clock]; rfl, by rw [clock]; exact aside.2, each, by rw [decoder]; rfl, inForce, derived,
      adoption, item, clips, held, silent, sub, by rw [radio], by rw [radio], by rw [radio], by rw [radio], by rw [radio],
      by rw [radio], by rw [radio], freq, code, corrected, fun l => ⟨relay l, kept l⟩, by rw [protection]; rfl⟩
  · obtain ⟨state, change, adopted, counters, prefill, -⟩ := each i
    exact ⟨state, change, adopted, counters, prefill⟩
  · obtain ⟨trips, window, fault, assignment, -⟩ := kept l
    exact ⟨relay l, trips, window, fault, assignment⟩

end Sys2Proof.Machine
end

section
/-! SUPPORT. Frames and status bits at a source (R4, R10, R17 to R19, R191): what each does to the record of its source, and
what the replacement of the record leads to in the other blocks. -/

namespace Sys2Proof.Machine

/-! ### Records replaced one after another -/

theorem sourceStateNotice_congr {i : SourceId} {x y : Source} (state : y.state = x.state)
    (channels : y.channels = x.channels) : sourceStateNotice i y = sourceStateNotice i x := by
  simp [sourceStateNotice, state, channels]

theorem State.setSource_setSource (i : SourceId) (x y : Source) (s : State) :
    (s.setSource i x).setSource i y = s.setSource i y := by
  simp [State.setSource]

/-- R3: a record replaced after one of the same state and channel set has been put in its place. -/
theorem State.changeSource_setSource {i : SourceId} {x y : Source} {s : State} (state : x.state = s.sources[i].state)
    (channels : x.channels = s.sources[i].channels) : (s.setSource i x).changeSource i y = s.changeSource i y := by
  have held : (s.setSource i x).sources[i] = x := State.setSource_same i x s
  have running : x.isRunning = s.sources[i].isRunning := by simp [Source.isRunning, state]
  have replaced : (s.setSource i x).sources.set i y = s.sources.set i y := by simp [State.setSource]
  unfold State.changeSource
  dsimp only
  rw [held, replaced, state, channels, running]
  rfl

/-- From `h` to `g` the notices `ns` have been posted, and nothing else has changed. -/
def Hub.toldOnly (h g : Hub) (ns : List Notice) : Prop := g = { h with outbox := h.outbox ++ ns }

theorem Hub.toldOnly.rfl {h : Hub} : h.toldOnly h [] := by simp [Hub.toldOnly]

theorem Hub.toldOnly.trans {h g k : Hub} {ns ms : List Notice} (first : h.toldOnly g ns) (second : g.toldOnly k ms) :
    h.toldOnly k (ns ++ ms) := by
  rw [Hub.toldOnly] at *
  rw [second, first, List.append_assoc]

theorem Hub.toldOnly_post (n : Notice) (h : Hub) : h.toldOnly (post n h) [n] := rfl

/-- From `h` to `g` the notices `ns` have been posted and source `i` has entered RUNNING. -/
def Hub.toldEntry (h g : Hub) (i : SourceId) (ns : List Notice) : Prop :=
  g.outbox = h.outbox ++ ns ∧ h.tookEntry { g with outbox := h.outbox } i ns

/-- R56: an entry is told by the zones and the clock, and among more notices as well. -/
theorem Hub.tookEntry.among {h g : Hub} {i : SourceId} {ns ms : List Notice} (entry : h.tookEntry g i ns)
    (more : ∀ n ∈ ns, n ∈ ms) : h.tookEntry g i ms := by
  obtain ⟨fades, stay, free, holdover, kept, told, rest⟩ := entry
  refine ⟨fun z current waiting => ?_, stay, free, holdover, kept, fun changed => more _ (told changed), rest⟩
  obtain ⟨record, told⟩ := fades z current waiting
  exact ⟨record, more _ told⟩

theorem Hub.toldEntry.before {h g k : Hub} {i : SourceId} {ns ms : List Notice} (told : h.toldOnly g ns)
    (entry : g.toldEntry k i ms) : h.toldEntry k i (ns ++ ms) := by
  obtain ⟨outbox, fades, stay, free, holdover, kept, clock, rest⟩ := entry
  rw [Hub.toldOnly] at told
  subst told
  refine ⟨by rw [outbox, List.append_assoc], ?_⟩
  refine Hub.tookEntry.among (ns := ms) ⟨fades, stay, free, holdover, kept, clock, ?_⟩
    fun n m => List.mem_append_right _ m
  exact congrArg (fun m : Hub => { m with outbox := h.outbox }) rest

theorem Hub.toldEntry.after {h g k : Hub} {i : SourceId} {ns ms : List Notice} (entry : h.toldEntry g i ns)
    (told : g.toldOnly k ms) : h.toldEntry k i (ns ++ ms) := by
  obtain ⟨outbox, entry⟩ := entry
  rw [Hub.toldOnly] at told
  subst told
  exact ⟨by rw [outbox, List.append_assoc], entry.among fun n m => List.mem_append_left _ m⟩

/-- From `h` to `g` the notices `ns` have been posted and source `i` has left RUNNING, the sources standing at `src`. -/
def Hub.toldDeparture (h g : Hub) (src : Vector Source 8) (i : SourceId) (ns : List Notice) : Prop :=
  g.outbox = h.outbox ++ ns ∧ h.departs g src i ns

theorem Hub.toldDeparture.before {h g k : Hub} {src : Vector Source 8} {i : SourceId} {ns ms : List Notice}
    (told : h.toldOnly g ns) (departure : g.toldDeparture k src i ms) : h.toldDeparture k src i (ns ++ ms) := by
  obtain ⟨outbox, departure, audio, fade⟩ := departure
  rw [Hub.toldOnly] at told
  subst told
  refine ⟨by rw [outbox, List.append_assoc], ?_, audio, fade⟩
  exact Hub.tookDeparture.alike (h := h) (ns := ms) departure rfl rfl fun n m => List.mem_append_right _ m

theorem Hub.toldDeparture.after {h g k : Hub} {src : Vector Source 8} {i : SourceId} {ns ms : List Notice}
    (departure : h.toldDeparture g src i ns) (told : g.toldOnly k ms) : h.toldDeparture k src i (ns ++ ms) := by
  obtain ⟨outbox, departure, audio, fade⟩ := departure
  rw [Hub.toldOnly] at told
  subst told
  exact ⟨by rw [outbox, List.append_assoc], departure.alike rfl rfl fun n m => List.mem_append_left _ m, audio, fade⟩

/-- R3: a record replaced by another of the same channel set, and alike RUNNING or not: it tells its state where that
changes, and no other block reacts. -/
theorem State.changeSource_toldOnly {i : SourceId} {y : Source} {s : State}
    (running : y.isRunning = s.sources[i].isRunning) (channels : y.channels = s.sources[i].channels) :
    s.hub.toldOnly (s.changeSource i y).hub (if y.state = s.sources[i].state then [] else [sourceStateNotice i y]) := by
  by_cases state : y.state = s.sources[i].state
  · rw [if_pos state, State.changeSource_of_same state channels]
    exact .rfl
  · rw [if_neg state]
    cases before : s.sources[i].isRunning
    · rw [before] at running
      rw [State.changeSource_quiet state channels (Source.not_isRunning_iff.1 before) (Source.not_isRunning_iff.1 running)]
      exact Hub.toldOnly_post _ _
    · rw [before] at running
      exact absurd ((Source.isRunning_iff.1 running).trans (Source.isRunning_iff.1 before).symm) state

/-! ### Frames (R4, R10) -/

/-- R10: a record in PREFILL that holds its target starts. -/
def Source.fills (x : Source) : Source :=
  if x.state = .prefill ∧ x.prefill ≤ x.fill then x.enter .running else x

/-- R4, R10: the record of a source in PREFILL or RUNNING after a frame. -/
def Source.takes (f : Frame) (x : Source) : Source := (x.write f).fills

theorem Source.write_keeps (f : Frame) (x : Source) :
    (x.write f).state = x.state ∧ (x.write f).channels = x.channels := by
  unfold Source.write
  split <;> exact ⟨rfl, rfl⟩

theorem State.writeFrame_eq (i : SourceId) (f : Frame) (s : State) :
    s.writeFrame i f = s.changeSource i (s.sources[i].takes f) := by
  obtain ⟨state, channels⟩ := Source.write_keeps f s.sources[i]
  unfold State.writeFrame Source.takes Source.fills
  dsimp only
  split
  · exact State.changeSource_setSource state channels
  · exact (State.changeSource_of_same state channels).symm

/-- R4, R14: a record with an arrival counted and flagged. -/
def Source.hears (x : Source) : Source := { x with arrivals := x.arrivals + 1, arrival := true }

/-- R4: the record that an arrival takes out of ABSENT, before the frame is written. -/
def Source.appears (x : Source) : Source := { x.hears.enter (recordState x.adopted) with entryInterval := true }

/-- R4: the record of a source after a frame arrival, the part being out of STANDBY. -/
def Source.arrives (f : Frame) (x : Source) : Source :=
  match x.state with
  | .absent => if x.appears.state = .prefill then x.appears.takes f else x.appears
  | .prefill | .running => x.hears.takes f
  | .unusable _ => x.hears

theorem recordState_cases (r : Option StatusRecord) :
    (playable r = true ∧ recordState r = .prefill) ∨ (playable r = false ∧ ∃ reason, recordState r = .unusable reason) := by
  rcases r with _ | r
  · exact .inl ⟨rfl, rfl⟩
  · unfold playable recordState
    by_cases speech : r.nonAudio = true
    · exact .inr ⟨by simp [speech], .nonAudio, if_pos speech⟩
    · dsimp only
      rw [if_neg speech]
      by_cases rate : r.rate = 2
      · exact .inl ⟨by simp [speech, rate], if_pos rate⟩
      · exact .inr ⟨by rw [decide_eq_false rate, Bool.and_false], .rate, if_neg rate⟩

theorem Source.appears_state (x : Source) : x.appears.state = recordState x.adopted := by
  unfold Source.appears
  rcases recordState_cases x.adopted with ⟨-, e⟩ | ⟨-, reason, e⟩ <;> rw [e] <;> rfl

theorem Source.appears_isRunning (x : Source) : x.appears.isRunning = false := by
  refine Source.not_isRunning_iff.2 ?_
  rw [Source.appears_state]
  rcases recordState_cases x.adopted with ⟨-, e⟩ | ⟨-, reason, e⟩ <;> rw [e] <;> nofun

theorem Source.appears_channels (x : Source) : x.appears.channels = x.channels := by
  unfold Source.appears
  rcases recordState_cases x.adopted with ⟨-, e⟩ | ⟨-, reason, e⟩ <;> rw [e] <;> rfl

theorem State.arrive_of_standby {i : SourceId} {f : Frame} {s : State} (standby : s.hub.standby.power = .standby) :
    s.arrive i f = s := if_pos standby

/-- R4: a frame arrival, the part being out of STANDBY. -/
theorem State.arrive_of_awake {i : SourceId} {f : Frame} {s : State} (awake : s.hub.standby.power ≠ .standby) :
    s.arrive i f =
      match s.sources[i].state with
      | .absent =>
        if s.sources[i].appears.state = .prefill then (s.changeSource i s.sources[i].appears).writeFrame i f
        else s.changeSource i s.sources[i].appears
      | .prefill | .running => (s.setSource i s.sources[i].hears).writeFrame i f
      | .unusable _ => s.setSource i s.sources[i].hears := by
  unfold State.arrive
  rw [if_neg awake]
  rfl

/-- R4: a frame arrival at a source that is ABSENT. -/
theorem State.arrive_of_absent {i : SourceId} {f : Frame} {s : State} (awake : s.hub.standby.power ≠ .standby)
    (absent : s.sources[i].state = .absent) :
    s.arrive i f =
      if s.sources[i].appears.state = .prefill then
        (s.changeSource i s.sources[i].appears).changeSource i (s.sources[i].appears.takes f)
      else s.changeSource i s.sources[i].appears := by
  rw [State.arrive_of_awake awake, absent]
  dsimp only
  rw [State.writeFrame_eq, State.changeSource_same]

/-- R4: a frame arrival at a source that is not ABSENT replaces its record. -/
theorem State.arrive_of_present {i : SourceId} {f : Frame} {s : State} (awake : s.hub.standby.power ≠ .standby)
    (present : s.sources[i].state ≠ .absent) : s.arrive i f = s.changeSource i (s.sources[i].arrives f) := by
  have writes : (s.setSource i s.sources[i].hears).writeFrame i f = s.changeSource i (s.sources[i].hears.takes f) := by
    rw [State.writeFrame_eq, State.setSource_same]
    exact State.changeSource_setSource rfl rfl
  rw [State.arrive_of_awake awake]
  unfold Source.arrives
  cases state : s.sources[i].state with
  | absent => exact absurd state present
  | prefill => exact writes
  | running => exact writes
  | unusable reason =>
    exact (State.changeSource_of_same (y := s.sources[i].hears) rfl rfl).symm

theorem State.arrive_same {i : SourceId} {f : Frame} {s : State} (awake : s.hub.standby.power ≠ .standby) :
    (s.arrive i f).sources[i] = s.sources[i].arrives f := by
  by_cases absent : s.sources[i].state = .absent
  · rw [State.arrive_of_absent awake absent]
    unfold Source.arrives
    rw [absent]
    dsimp only
    split <;> exact State.changeSource_same i _ _
  · rw [State.arrive_of_present awake absent, State.changeSource_same]

/-! ### What a frame does to a record -/

theorem Source.write_of_room {x : Source} {f : Frame} (room : x.buffer.length < 64) :
    x.write f = { x with buffer := x.buffer ++ [x.mask f], lastWritten := some (x.mask f) } := if_pos room

theorem Source.write_of_full {x : Source} {f : Frame} (full : 64 ≤ x.buffer.length) :
    x.write f = { x with counters := { x.counters with overruns := bump x.counters.overruns } } :=
  if_neg (Nat.not_lt.2 full)

theorem Source.write_fill (f : Frame) (x : Source) :
    (x.write f).fill = if x.buffer.length < 64 then x.buffer.length + 1 else x.buffer.length := by
  by_cases room : x.buffer.length < 64
  · rw [Source.write_of_room room, if_pos room]
    simp [Source.fill]
  · rw [Source.write_of_full (Nat.le_of_not_lt room), if_neg room]
    rfl

theorem Source.takes_of_running {x : Source} (f : Frame) (running : x.state = .running) : x.takes f = x.write f := by
  unfold Source.takes Source.fills
  rw [(Source.write_keeps f x).1, running]
  exact if_neg fun c => nomatch c.1

theorem Source.write_prefill (f : Frame) (x : Source) : (x.write f).prefill = x.prefill := by
  unfold Source.write
  split <;> rfl

/-- R10: the record of a source in PREFILL after a frame. -/
theorem Source.takes_of_prefill {x : Source} (f : Frame) (prefill : x.state = .prefill) :
    x.takes f = { x.write f with state := if x.prefill ≤ (x.write f).fill then .running else .prefill } := by
  have state : (x.write f).state = .prefill := (Source.write_keeps f x).1.trans prefill
  unfold Source.takes Source.fills
  rw [state, Source.write_prefill]
  by_cases filled : x.prefill ≤ (x.write f).fill
  · rw [if_pos ⟨rfl, filled⟩, if_pos filled]
    rfl
  · rw [if_neg fun c => filled c.2, if_neg filled, ← state]

/-- What a frame written leaves of a record. -/
theorem Source.takes_keeps (f : Frame) (x : Source) :
    (x.takes f).channels = x.channels ∧ (x.takes f).adopted = x.adopted ∧ (x.takes f).prefill = x.prefill ∧
      (x.takes f).change = x.change ∧ (x.takes f).assembly = x.assembly ∧ (x.takes f).prevBlock = x.prevBlock ∧
      (x.takes f).goodRun = x.goodRun ∧ (x.takes f).arrivals = x.arrivals ∧ (x.takes f).arrival = x.arrival ∧
      (x.takes f).entryInterval = x.entryInterval ∧ (x.takes f).lastSeq = x.lastSeq ∧
      (x.takes f).pendingFrame = x.pendingFrame ∧
      (x.takes f).counters = { x.counters with overruns := (x.takes f).counters.overruns } := by
  unfold Source.takes Source.fills Source.write
  split <;> split <;> exact ⟨rfl, rfl, rfl, rfl, rfl, rfl, rfl, rfl, rfl, rfl, rfl, rfl, rfl⟩

/-- What an entry out of ABSENT leaves of a record. -/
theorem Source.appears_keeps (x : Source) :
    x.appears.channels = x.channels ∧ x.appears.adopted = x.adopted ∧ x.appears.prefill = x.prefill ∧
      x.appears.change = x.change ∧ x.appears.assembly = x.assembly ∧ x.appears.prevBlock = x.prevBlock ∧
      x.appears.goodRun = x.goodRun ∧ x.appears.arrivals = x.arrivals + 1 ∧ x.appears.arrival = true ∧
      x.appears.entryInterval = true ∧ x.appears.lastSeq = x.lastSeq ∧ x.appears.pendingFrame = x.pendingFrame ∧
      x.appears.counters = x.counters ∧ x.appears.buffer = [] := by
  unfold Source.appears
  rcases recordState_cases x.adopted with ⟨-, e⟩ | ⟨-, reason, e⟩ <;> rw [e] <;>
    exact ⟨rfl, rfl, rfl, rfl, rfl, rfl, rfl, rfl, rfl, rfl, rfl, rfl, rfl, rfl⟩

/-- What a frame arrival leaves of a record. -/
theorem Source.arrives_keeps (f : Frame) (x : Source) :
    (x.arrives f).channels = x.channels ∧ (x.arrives f).adopted = x.adopted ∧ (x.arrives f).prefill = x.prefill ∧
      (x.arrives f).change = x.change ∧ (x.arrives f).assembly = x.assembly ∧
      (x.arrives f).prevBlock = x.prevBlock ∧ (x.arrives f).goodRun = x.goodRun ∧
      (x.arrives f).arrivals = x.arrivals + 1 ∧ (x.arrives f).arrival = true ∧ (x.arrives f).lastSeq = x.lastSeq ∧
      (x.arrives f).pendingFrame = x.pendingFrame ∧
      (x.arrives f).counters = { x.counters with overruns := (x.arrives f).counters.overruns } := by
  obtain ⟨a1, a2, a3, a4, a5, a6, a7, a8, a9, -, a10, a11, a12, -⟩ := Source.appears_keeps x
  obtain ⟨b1, b2, b3, b4, b5, b6, b7, b8, b9, -, b10, b11, b12⟩ := Source.takes_keeps f x.appears
  obtain ⟨c1, c2, c3, c4, c5, c6, c7, c8, c9, -, c10, c11, c12⟩ := Source.takes_keeps f x.hears
  unfold Source.arrives
  split
  · split
    · rw [a12] at b12
      exact ⟨b1.trans a1, b2.trans a2, b3.trans a3, b4.trans a4, b5.trans a5, b6.trans a6, b7.trans a7, b8.trans a8,
        b9.trans a9, b10.trans a10, b11.trans a11, b12⟩
    · exact ⟨a1, a2, a3, a4, a5, a6, a7, a8, a9, a10, a11, by rw [a12]⟩
  · exact ⟨c1, c2, c3, c4, c5, c6, c7, c8, c9, c10, c11, c12⟩
  · exact ⟨c1, c2, c3, c4, c5, c6, c7, c8, c9, c10, c11, c12⟩
  · exact ⟨rfl, rfl, rfl, rfl, rfl, rfl, rfl, rfl, rfl, rfl, rfl, rfl⟩

theorem Source.arrives_of_running {x : Source} (f : Frame) (running : x.state = .running) :
    x.arrives f = x.hears.write f := by
  unfold Source.arrives
  rw [running]
  exact Source.takes_of_running f running

theorem Source.arrives_of_prefill {x : Source} (f : Frame) (prefill : x.state = .prefill) :
    x.arrives f =
      { x.hears.write f with state := if x.prefill ≤ (x.hears.write f).fill then .running else .prefill } := by
  unfold Source.arrives
  rw [prefill]
  exact Source.takes_of_prefill f prefill

theorem Source.arrives_of_unusable {x : Source} (f : Frame) {reason : UnusableReason}
    (unusable : x.state = .unusable reason) : x.arrives f = x.hears := by
  unfold Source.arrives
  rw [unusable]

/-- R4: a source out of ABSENT whose record may play takes the frame as its first. -/
theorem Source.arrives_of_absent_playable {x : Source} (f : Frame) (absent : x.state = .absent)
    (plays : playable x.adopted = true) :
    (x.arrives f).buffer = [x.mask f] ∧ (x.arrives f).lastWritten = some (x.mask f) ∧
      (x.arrives f).state = (if x.prefill ≤ 1 then .running else .prefill) ∧ (x.arrives f).entryInterval = true ∧
      (x.arrives f).counters = x.counters := by
  have prefill : x.appears.state = .prefill := by
    rw [Source.appears_state]
    rcases recordState_cases x.adopted with ⟨-, e⟩ | ⟨n, -⟩
    · exact e
    · rw [plays] at n; cases n
  obtain ⟨-, adopted, target, -, -, -, -, -, -, entry, -, -, counters, buffer⟩ := Source.appears_keeps x
  have mask : x.appears.mask f = x.mask f := by simp [Source.mask, adopted]
  have room : x.appears.buffer.length < 64 := by simp [buffer]
  unfold Source.arrives
  rw [absent]
  dsimp only
  rw [if_pos prefill, Source.takes_of_prefill f prefill, Source.write_fill, if_pos room, Source.write_of_room room, mask,
    buffer, target]
  exact ⟨rfl, rfl, rfl, entry, counters⟩

/-- R4: a source out of ABSENT whose record may not play is UNUSABLE, and the frame is not written. -/
theorem Source.arrives_of_absent_unplayable {x : Source} (f : Frame) (absent : x.state = .absent)
    (unplayable : playable x.adopted = false) :
    (x.arrives f).buffer = [] ∧ (x.arrives f).state = recordState x.adopted ∧ (x.arrives f).entryInterval = true ∧
      (x.arrives f).counters = x.counters := by
  have state : x.appears.state ≠ .prefill := by
    rw [Source.appears_state]
    rcases recordState_cases x.adopted with ⟨y, -⟩ | ⟨-, reason, e⟩
    · rw [unplayable] at y; cases y
    · rw [e]; nofun
  obtain ⟨-, -, -, -, -, -, -, -, -, entry, -, -, counters, buffer⟩ := Source.appears_keeps x
  unfold Source.arrives
  rw [absent]
  dsimp only
  rw [if_neg state]
  exact ⟨buffer, Source.appears_state x, entry, counters⟩

/-! ### What a frame leads to in the other blocks -/

/-- R56: a record that enters RUNNING, its channel set staying. -/
theorem State.changeSource_toldEntry {i : SourceId} {y : Source} {s : State} (out : s.sources[i].state ≠ .running)
    (running : y.state = .running) (channels : y.channels = s.sources[i].channels) :
    ∃ ns, s.hub.toldEntry (s.changeSource i y).hub i ns ∧ sourceStateNotice i y ∈ ns := by
  obtain ⟨ns, told, notice, entry⟩ := State.changeSource_entered out running channels
  exact ⟨ns, ⟨told, entry⟩, notice⟩

/-- R55: a record that leaves RUNNING, its channel set staying. -/
theorem State.changeSource_toldDeparture {i : SourceId} {y : Source} {s : State} (running : s.sources[i].state = .running)
    (gone : y.state ≠ .running) (channels : y.channels = s.sources[i].channels) :
    ∃ ns, s.hub.toldDeparture (s.changeSource i y).hub (s.changeSource i y).sources i ns ∧
      sourceStateNotice i y ∈ ns := by
  obtain ⟨ns, told, notice, departs⟩ := State.changeSource_departed running gone channels
  exact ⟨ns, ⟨told, departs⟩, notice⟩

/-- R4, R10, R56: what a frame arrival leads to in the other blocks. -/
theorem State.arrive_hub {i : SourceId} {f : Frame} {s : State} (awake : s.hub.standby.power ≠ .standby) :
    let x := s.sources[i]
    let z := x.arrives f
    let g := (s.arrive i f).hub
    (x.state = .running ∨ (∃ reason, x.state = .unusable reason) → g = s.hub) ∧
    (x.state = .prefill →
      (z.state = .running → ∃ ns, s.hub.toldEntry g i ns ∧ sourceStateNotice i z ∈ ns) ∧
        (z.state ≠ .running → g = s.hub)) ∧
    (x.state = .absent →
      (z.state = .running → ∃ ns, s.hub.toldEntry g i ns ∧ sourceStateNotice i z ∈ ns) ∧
        (z.state ≠ .running → s.hub.toldOnly g [sourceStateNotice i z])) := by
  have channels := (Source.arrives_keeps f s.sources[i]).1
  have same (present : s.sources[i].state ≠ .absent) (state : (s.sources[i].arrives f).state = s.sources[i].state) :
      (s.arrive i f).hub = s.hub := by
    rw [State.arrive_of_present awake present, State.changeSource_of_same state channels]
    rfl
  dsimp only
  refine ⟨?_, fun prefill => ⟨fun running => ?_, fun out => ?_⟩, fun absent => ?_⟩
  · rintro (running | ⟨reason, unusable⟩)
    · refine same (by rw [running]; nofun) ?_
      rw [Source.arrives_of_running f running]
      exact (Source.write_keeps f _).1
    · refine same (by rw [unusable]; nofun) ?_
      rw [Source.arrives_of_unusable f unusable]
      rfl
  · rw [State.arrive_of_present awake (by rw [prefill]; nofun)]
    exact State.changeSource_toldEntry (by rw [prefill]; nofun) running channels
  · refine same (by rw [prefill]; nofun) ?_
    rw [Source.arrives_of_prefill f prefill] at out ⊢
    dsimp only at out ⊢
    split at out
    · exact absurd rfl out
    · next unfilled => rw [if_neg unfilled, prefill]
  · have first := State.changeSource_toldOnly (i := i) (y := s.sources[i].appears) (s := s)
      (by rw [Source.appears_isRunning]; exact (Source.not_isRunning_iff.2 (by rw [absent]; nofun)).symm)
      (Source.appears_channels _)
    have moved : s.sources[i].appears.state ≠ s.sources[i].state := by
      rw [Source.appears_state, absent]
      rcases recordState_cases s.sources[i].adopted with ⟨-, e⟩ | ⟨-, reason, e⟩ <;> rw [e] <;> nofun
    rw [if_neg moved] at first
    rw [State.arrive_of_absent awake absent]
    unfold Source.arrives at channels ⊢
    rw [absent] at channels ⊢
    dsimp only at channels ⊢
    split
    · next prefill =>
      have held : (s.changeSource i s.sources[i].appears).sources[i] = s.sources[i].appears :=
        State.changeSource_same i _ s
      have channels' : (s.sources[i].appears.takes f).channels =
          (s.changeSource i s.sources[i].appears).sources[i].channels := by
        rw [held]; exact (Source.takes_keeps f _).1
      refine ⟨fun running => ?_, fun out => ?_⟩
      · obtain ⟨ns, entry, notice⟩ := State.changeSource_toldEntry
          (s := s.changeSource i s.sources[i].appears) (i := i) (by rw [held, prefill]; nofun) running channels'
        exact ⟨_, entry.before first, List.mem_append_right _ notice⟩
      · have state : (s.sources[i].appears.takes f).state = s.sources[i].appears.state := by
          rw [Source.takes_of_prefill f prefill] at out ⊢
          dsimp only at out ⊢
          split at out
          · exact absurd rfl out
          · next unfilled => rw [if_neg unfilled, prefill]
        rw [State.changeSource_of_same (by rw [held]; exact state) channels']
        rw [sourceStateNotice_congr state (Source.takes_keeps f _).1]
        exact first
    · refine ⟨fun running => ?_, fun _ => first⟩
      exact absurd running (Source.not_isRunning_iff.1 (Source.appears_isRunning _))

/-! ### Status bits (R17 to R19, R191) -/

/-- R17: the block that a status bit completes. -/
def Source.completed (bit start : Bool) (x : Source) : Option StatusBlock :=
  match x.assembly, start with
  | .collecting held bits, false => if 160 ≤ held + 1 then some (bits ||| statusBit held bit) else none
  | _, _ => none

/-- R18: the record of a block that a status bit completes and that equals the block before it. -/
def Source.confirmed (bit start : Bool) (x : Source) : Option StatusRecord :=
  (x.completed bit start).bind fun b => if x.prevBlock = some b then recordOf b else none

/-- R18: the record with a block that failed counted. -/
def Source.fails (x : Source) : Source :=
  { x with counters := { x.counters with blocksFailed := bump x.counters.blocksFailed } }

/-- R17, R18: the record of a source after a status bit, before a record is adopted. -/
def Source.assembles (bit start : Bool) (x : Source) : Source :=
  match x.assembly, start with
  | .waiting, false => x
  | .waiting, true => { x with assembly := .collecting 1 (statusBit 0 bit) }
  | .collecting _ _, true => { x.fails with assembly := .collecting 1 (statusBit 0 bit) }
  | .collecting held bits, false =>
    if 160 ≤ held + 1 then
      match recordOf (bits ||| statusBit held bit) with
      | none => { x.fails with assembly := .waiting }
      | some _ => { x with assembly := .waiting, prevBlock := some (bits ||| statusBit held bit) }
    else { x with assembly := .collecting (held + 1) (bits ||| statusBit held bit) }

/-- R18, R19: the record of a source that adopts a status record. -/
def Source.adoptsRecord (r : StatusRecord) (x : Source) : Source :=
  if adoptedState r x = x.state then { x with adopted := some r }
  else Source.enter (adoptedState r x) { x with adopted := some r }

theorem Source.assembles_keeps (bit start : Bool) (x : Source) :
    (x.assembles bit start).state = x.state ∧ (x.assembles bit start).channels = x.channels ∧
      (x.assembles bit start).adopted = x.adopted ∧ (x.assembles bit start).goodRun = x.goodRun ∧
      x.assembles bit start =
        { x with
          assembly := (x.assembles bit start).assembly
          prevBlock := (x.assembles bit start).prevBlock
          counters := { x.counters with blocksFailed := (x.assembles bit start).counters.blocksFailed } } := by
  unfold Source.assembles
  split
  · exact ⟨rfl, rfl, rfl, rfl, rfl⟩
  · exact ⟨rfl, rfl, rfl, rfl, rfl⟩
  · exact ⟨rfl, rfl, rfl, rfl, rfl⟩
  · split
    · split <;> exact ⟨rfl, rfl, rfl, rfl, rfl⟩
    · exact ⟨rfl, rfl, rfl, rfl, rfl⟩

/-- R17 to R19, R191: a status bit collected: the record is replaced, and a confirmed block adopted where its record
differs, and reported. -/
theorem State.collect_eq (i : SourceId) (bit start : Bool) (s : State) :
    s.collect i bit start =
      match s.sources[i].confirmed bit start with
      | none => s.setSource i (s.sources[i].assembles bit start)
      | some r =>
        State.onHub (Hub.wakeReport i r)
          (if s.sources[i].adopted = some r then s.setSource i (s.sources[i].assembles bit start)
          else
            State.changeSource i ((s.sources[i].assembles bit start).adoptsRecord r)
              (s.onHub (post (sourceStatusNotice i r)))) := by
  have adopts (x : Source) (r : StatusRecord) (state : x.state = s.sources[i].state)
      (channels : x.channels = s.sources[i].channels) :
      (s.setSource i x).adoptRecord i r = (s.onHub (post (sourceStatusNotice i r))).changeSource i (x.adoptsRecord r) := by
    unfold State.adoptRecord
    dsimp only
    rw [State.setSource_same]
    exact State.changeSource_setSource (s := s.onHub (post (sourceStatusNotice i r))) state channels
  unfold State.collect Source.confirmed Source.completed Source.assembles
  dsimp only
  rcases assembly : s.sources[i].assembly with _ | ⟨held, bits⟩ <;> cases start
  · exact (State.setSource_self i s).symm
  · rfl
  · dsimp only
    split
    · unfold State.checkBlock
      dsimp only
      rw [State.setSource_same]
      dsimp only
      rcases record : recordOf (bits ||| statusBit held bit) with _ | r
      · simp only [record, State.setSource_setSource, ite_self, Option.bind_some]
        rfl
      · simp only [record, State.setSource_setSource, Option.bind_some]
        by_cases again : s.sources[i].prevBlock = some (bits ||| statusBit held bit)
        · rw [if_pos again, if_pos again]
          dsimp only
          by_cases same : s.sources[i].adopted = some r
          · rw [if_pos same, if_pos same]
          · rw [if_neg same, if_neg same]
            exact congrArg (State.onHub (Hub.wakeReport i r)) (adopts _ r rfl rfl)
        · rw [if_neg again, if_neg again]
    · rfl
  · rfl

/-- R17 to R19: the record of a source after a status bit. -/
def Source.collects (bit start : Bool) (x : Source) : Source :=
  match x.confirmed bit start with
  | none => x.assembles bit start
  | some r => if x.adopted = some r then x.assembles bit start else (x.assembles bit start).adoptsRecord r

theorem State.collect_same (i : SourceId) (bit start : Bool) (s : State) :
    (s.collect i bit start).sources[i] = s.sources[i].collects bit start := by
  rw [State.collect_eq]
  unfold Source.collects
  split
  · exact State.setSource_same i _ s
  · split
    · exact State.setSource_same i _ s
    · exact State.changeSource_same i _ _

/-- R19: by a record a source leaves no other state for ABSENT or RUNNING, and stays in RUNNING where the record may
play. -/
theorem adoptedState_cases (r : StatusRecord) (x : Source) :
    adoptedState r x = x.state ∨ (adoptedState r x ≠ .absent ∧ adoptedState r x ≠ .running) := by
  have parts : ∀ r : Option StatusRecord, recordState r ≠ .absent ∧ recordState r ≠ .running := fun r => by
    rcases recordState_cases r with ⟨-, e⟩ | ⟨-, reason, e⟩ <;> rw [e] <;> exact ⟨nofun, nofun⟩
  unfold adoptedState
  rcases state : x.state with _ | _ | _ | _ | _ <;> dsimp only
  · exact .inl rfl
  · split
    · exact .inl rfl
    · exact .inr (parts _)
  · split
    · exact .inl rfl
    · exact .inr (parts _)
  · exact .inr (parts _)
  · split
    · exact .inr ⟨nofun, nofun⟩
    · split
      · exact .inr ⟨nofun, nofun⟩
      · exact .inl rfl

/-- R19: what the adoption of a record leaves of a source. -/
theorem Source.adoptsRecord_keeps (r : StatusRecord) (x : Source) :
    (x.adoptsRecord r).state = adoptedState r x ∧ (x.adoptsRecord r).adopted = some r ∧
      (x.adoptsRecord r).channels = x.channels ∧ (x.adoptsRecord r).assembly = x.assembly ∧
      (x.adoptsRecord r).prevBlock = x.prevBlock ∧ (x.adoptsRecord r).prefill = x.prefill ∧
      (x.adoptsRecord r).change = x.change ∧ (x.adoptsRecord r).counters = x.counters ∧
      (x.adoptsRecord r).arrivals = x.arrivals ∧ (x.adoptsRecord r).arrival = x.arrival := by
  unfold Source.adoptsRecord
  split
  · next same => exact ⟨same.symm, rfl, rfl, rfl, rfl, rfl, rfl, rfl, rfl, rfl⟩
  · next moves =>
    obtain ⟨absent, running⟩ := (adoptedState_cases r x).resolve_left moves
    generalize adoptedState r x = st at absent running
    cases st with
    | absent => exact absurd rfl absent
    | running => exact absurd rfl running
    | prefill => exact ⟨rfl, rfl, rfl, rfl, rfl, rfl, rfl, rfl, rfl, rfl⟩
    | unusable reason => exact ⟨rfl, rfl, rfl, rfl, rfl, rfl, rfl, rfl, rfl, rfl⟩

/-- R191: what the report of a confirmed block leaves of the blocks that are no part of Standby Control. -/
theorem Hub.wakeReport_told (i : SourceId) (r : StatusRecord) (h : Hub) :
    ∃ ns, h.wakeReport i r = { h with standby := (h.wakeReport i r).standby, outbox := h.outbox ++ ns } := by
  unfold Hub.wakeReport
  split
  · exact ⟨[wakeCandidateNotice i r], rfl⟩
  · exact ⟨[], by simp⟩

/-- R18, R19, R55: what a status bit leads to in the other blocks, before a confirmed block is reported. -/
theorem State.collect_hub (i : SourceId) (bit start : Bool) (s : State) :
    let x := s.sources[i]
    ∃ h : Hub,
      (s.collect i bit start).hub =
        (match x.confirmed bit start with | none => h | some r => h.wakeReport i r) ∧
      ((∀ r, x.confirmed bit start = some r → x.adopted = some r) → h = s.hub) ∧
      ∀ r, x.confirmed bit start = some r → x.adopted ≠ some r →
        (x.state ≠ .running ∨ playable (some r) = true →
          s.hub.toldOnly h (sourceStatusNotice i r ::
            if adoptedState r x = x.state then [] else [sourceStateNotice i (x.collects bit start)])) ∧
        (x.state = .running → playable (some r) = false →
          ∃ ns, s.hub.toldDeparture h (s.collect i bit start).sources i ns ∧ sourceStatusNotice i r ∈ ns) := by
  obtain ⟨state, channels, adopted, goodRun, -⟩ := Source.assembles_keeps bit start s.sources[i]
  dsimp only
  rw [State.collect_eq]
  unfold Source.collects
  rcases confirmed : s.sources[i].confirmed bit start with _ | r
  · exact ⟨s.hub, rfl, fun _ => rfl, fun r e => nomatch e⟩
  · dsimp only
    by_cases same : s.sources[i].adopted = some r
    · rw [if_pos same]
      exact ⟨s.hub, rfl, fun _ => rfl, fun r' e n => absurd (Option.some.inj e ▸ same) n⟩
    · rw [if_neg same, if_neg same]
      refine ⟨_, rfl, fun all => absurd (all r rfl) same, fun r' e _ => ?_⟩
      obtain rfl : r = r' := Option.some.inj e
      obtain ⟨state', -, channels', -⟩ := Source.adoptsRecord_keeps r (s.sources[i].assembles bit start)
      have judged : adoptedState r (s.sources[i].assembles bit start) = adoptedState r s.sources[i] := by
        unfold adoptedState
        rw [state, goodRun]
      rw [judged] at state'
      generalize (s.sources[i].assembles bit start).adoptsRecord r = y at state' channels'
      let u := s.onHub (post (sourceStatusNotice i r))
      have told : s.hub.toldOnly u.hub [sourceStatusNotice i r] := Hub.toldOnly_post _ _
      refine ⟨fun alike => ?_, fun running unplayable => ?_⟩
      · have still : y.isRunning = u.sources[i].isRunning := by
          change y.isRunning = s.sources[i].isRunning
          rcases adoptedState_cases r s.sources[i] with stays | ⟨-, out⟩
          · simp only [Source.isRunning, state', stays]
          · have before : s.sources[i].state ≠ .running := by
              rcases alike with out | plays
              · exact out
              · intro running
                refine out ?_
                unfold adoptedState
                rw [running]
                exact if_pos plays
            rw [Source.not_isRunning_iff.2 before, Source.not_isRunning_iff.2 (state' ▸ out)]
        have quiet := State.changeSource_toldOnly (s := u) still (channels'.trans channels)
        have both := told.trans quiet
        rw [state'] at both
        exact both
      · have gone : y.state ≠ .running := by
          rw [state']
          unfold adoptedState
          rw [running]
          dsimp only
          rw [if_neg (by rw [unplayable]; exact Bool.false_ne_true)]
          rcases recordState_cases (some r) with ⟨-, e⟩ | ⟨-, reason, e⟩ <;> rw [e] <;> nofun
        obtain ⟨ns, departure, -⟩ := State.changeSource_toldDeparture (s := u) running gone (channels'.trans channels)
        exact ⟨_, departure.before told, List.mem_append_left _ (List.mem_singleton_self _)⟩

end Sys2Proof.Machine
end

section
/-! SUPPORT. A frame on a serial input (O26): the record that a status block spells, what a status bit leaves of the record of
its source, and what a frame and its status bit together lead to in the other blocks. -/

namespace Sys2Proof.Machine

/-! ### The record of a block (R18, 12.4) -/

theorem wordLengthOf_eq (y : Byte) :
    wordLengthOf y.toNat =
      if 1 ≤ y.toNat ∧ y.toNat ≤ 3 then some (if y = 1 then .w16 else if y = 2 then .w20 else .w24) else none := by
  have number (n : Nat) (small : n < 256) : y = BitVec.ofNat 8 n ↔ y.toNat = n := by
    constructor
    · intro e; rw [e, BitVec.toNat_ofNat]; omega
    · intro e; exact BitVec.eq_of_toNat_eq (by rw [e, BitVec.toNat_ofNat]; omega)
  have one : y = 1 ↔ y.toNat = 1 := number 1 (by decide)
  have two : y = 2 ↔ y.toNat = 2 := number 2 (by decide)
  simp only [one, two]
  unfold wordLengthOf
  split
  · next e => simp [e]
  · next e => simp [e]
  · next e => simp [e]
  · next one two three =>
    refine (if_neg fun range => ?_).symm
    rcases (by omega : y.toNat = 1 ∨ y.toNat = 2 ∨ y.toNat = 3) with e | e | e
    · exact one e
    · exact two e
    · exact three e

/-- R18, 12.4: the record that a block spells, written out. -/
theorem recordOf_eq (b : StatusBlock) :
    let byte (k : Nat) : Byte := (b >>> (8 * k)).setWidth 8
    recordOf b =
      (if ((List.range 20).map fun k => (byte k).toNat).sum % 256 = 0 ∧ 1 ≤ (byte 2).toNat ∧ (byte 2).toNat ≤ 3 then
        some ⟨(byte 0).getLsbD 0, byte 1, if byte 2 = 1 then .w16 else if byte 2 = 2 then .w20 else .w24,
          (b >>> 24).setWidth 120⟩
      else none) := by
  dsimp only
  have first : ((b >>> (8 * 0)).setWidth 8).getLsbD 0 = b.getLsbD 0 := by simp
  have length := wordLengthOf_eq (statusByte b 2)
  unfold recordOf
  rw [length, first]
  by_cases sum : ((List.range 20).map fun k => ((b >>> (8 * k)).setWidth 8).toNat).sum % 256 = 0
  · have zero : sumsToZero b = true := decide_eq_true sum
    by_cases range : 1 ≤ (statusByte b 2).toNat ∧ (statusByte b 2).toNat ≤ 3
    · rw [zero, if_pos range]
      exact (if_pos ⟨sum, range⟩).symm
    · rw [zero, if_neg range]
      exact (if_neg fun c => range c.2).symm
  · have zero : sumsToZero b = false := decide_eq_false sum
    rw [zero]
    exact (if_neg fun c => sum c.1).symm

/-! ### The record of a source after a status bit -/

theorem Source.completed_iff {bit start : Bool} {x : Source} {b : StatusBlock} :
    x.completed bit start = some b ↔
      start = false ∧ ∃ held bits, x.assembly = .collecting held bits ∧ 160 ≤ held + 1 ∧
        b = bits ||| statusBit held bit := by
  unfold Source.completed
  rcases x.assembly with _ | ⟨held, bits⟩ <;> cases start
  · simp
  · simp
  · by_cases full : 160 ≤ held + 1
    · dsimp only
      rw [if_pos full, Option.some.injEq]
      refine ⟨fun e => ⟨rfl, held, bits, rfl, full, e.symm⟩, ?_⟩
      rintro ⟨-, held', bits', same, -, is⟩
      cases same
      exact is.symm
    · dsimp only
      rw [if_neg full]
      refine ⟨nofun, ?_⟩
      rintro ⟨-, held', bits', same, full', -⟩
      cases same
      exact absurd full' full
  · simp

theorem Source.confirmed_iff {bit start : Bool} {x : Source} {r : StatusRecord} :
    x.confirmed bit start = some r ↔
      ∃ b, x.completed bit start = some b ∧ recordOf b = some r ∧ x.prevBlock = some b := by
  unfold Source.confirmed
  rcases x.completed bit start with _ | b
  · simp
  · by_cases again : x.prevBlock = some b
    · simp [again]
    · simp [again]

/-- R17 to R19: from `x` to `z` a status bit has been collected. -/
def Source.collected (bit start : Bool) (x z : Source) : Prop :=
  let completes (b : StatusBlock) : Prop :=
    start = false ∧ ∃ held bits, x.assembly = .collecting held bits ∧ 160 ≤ held + 1 ∧ b = bits ||| statusBit held bit
  let confirms (b : StatusBlock) (r : StatusRecord) : Prop :=
    completes b ∧ recordOf b = some r ∧ x.prevBlock = some b
  (start = true → z.assembly = .collecting 1 (statusBit 0 bit)) ∧
  (start = false → x.assembly = .waiting → z.assembly = .waiting) ∧
  (∀ held bits, x.assembly = .collecting held bits → start = false → held + 1 < 160 →
    z.assembly = .collecting (held + 1) (bits ||| statusBit held bit)) ∧
  (∀ b, completes b → z.assembly = .waiting) ∧
  ((start = true ∧ x.assembly ≠ .waiting) ∨ (∃ b, completes b ∧ recordOf b = none) →
    z.counters.blocksFailed = bump x.counters.blocksFailed) ∧
  ((start = true ∧ x.assembly = .waiting) ∨ (start = false ∧ ∀ b, completes b → recordOf b ≠ none) →
    z.counters.blocksFailed = x.counters.blocksFailed) ∧
  (∀ b r, completes b → recordOf b = some r → z.prevBlock = some b) ∧
  ((∀ b, completes b → recordOf b = none) → z.prevBlock = x.prevBlock) ∧
  (∀ b r, confirms b r → z.adopted = some r) ∧
  ((∀ b r, ¬ confirms b r) → z.adopted = x.adopted)

/-- What a status bit leaves in the record is what it leaves before a record is adopted, but for the adopted record. -/
theorem Source.collects_keeps (bit start : Bool) (x : Source) :
    (x.collects bit start).assembly = (x.assembles bit start).assembly ∧
      (x.collects bit start).prevBlock = (x.assembles bit start).prevBlock ∧
      (x.collects bit start).counters = (x.assembles bit start).counters ∧
      (x.collects bit start).channels = x.channels ∧ (x.collects bit start).prefill = x.prefill ∧
      (x.collects bit start).change = x.change ∧ (x.collects bit start).arrivals = x.arrivals ∧
      (x.collects bit start).arrival = x.arrival := by
  obtain ⟨-, -, -, -, rest⟩ := Source.assembles_keeps bit start x
  have base : (x.assembles bit start).channels = x.channels ∧ (x.assembles bit start).prefill = x.prefill ∧
      (x.assembles bit start).change = x.change ∧ (x.assembles bit start).arrivals = x.arrivals ∧
      (x.assembles bit start).arrival = x.arrival := by
    rw [rest]; exact ⟨rfl, rfl, rfl, rfl, rfl⟩
  unfold Source.collects
  split
  · exact ⟨rfl, rfl, rfl, base⟩
  · next r _ =>
    split
    · exact ⟨rfl, rfl, rfl, base⟩
    · obtain ⟨channels, prefill, change, arrivals, arrival⟩ := base
      obtain ⟨-, -, channels', assembly', block', prefill', change', counters', arrivals', arrival'⟩ :=
        Source.adoptsRecord_keeps r (x.assembles bit start)
      exact ⟨assembly', block', counters', channels'.trans channels, prefill'.trans prefill, change'.trans change,
        arrivals'.trans arrivals, arrival'.trans arrival⟩

theorem Source.collects_collected (bit start : Bool) (x : Source) : x.collected bit start (x.collects bit start) := by
  obtain ⟨assembly, block, counters, -⟩ := Source.collects_keeps bit start x
  have adopted : (x.collects bit start).adopted = ((x.confirmed bit start).orElse fun _ => x.adopted) := by
    obtain ⟨-, -, adopted, -⟩ := Source.assembles_keeps bit start x
    unfold Source.collects
    rcases x.confirmed bit start with _ | r
    · exact adopted
    · dsimp only
      split
      · next same => exact adopted.trans same
      · exact (Source.adoptsRecord_keeps r _).2.1
  unfold Source.collected
  simp only [← Source.completed_iff, assembly, block, counters, adopted]
  rcases held : x.assembly with _ | ⟨n, bits⟩
  · cases start
    · simp [Source.completed, Source.assembles, Source.confirmed, held]
    · simp [Source.completed, Source.assembles, Source.confirmed, held]
  · cases start
    · by_cases full : 160 ≤ n + 1
      · have done : x.completed bit false = some (bits ||| statusBit n bit) :=
          Source.completed_iff.2 ⟨rfl, n, bits, held, full, rfl⟩
        have long : 159 ≤ n := by omega
        rcases record : recordOf (bits ||| statusBit n bit) with _ | r
        · simp [done, Source.assembles, Source.confirmed, Source.fails, held, full, record]
          refine ⟨long, ?_, ?_⟩
          · rintro b r rfl record'
            rw [record] at record'; cases record'
          · rintro b r rfl record'
            rw [record] at record'; cases record'
        · by_cases again : x.prevBlock = some (bits ||| statusBit n bit)
          · simp [done, Source.assembles, Source.confirmed, held, full, record, again]
            refine ⟨long, fun _ _ e _ => e, ?_⟩
            rintro b r' rfl record' -
            rw [record] at record'
            exact Option.some.inj record'
          · simp [done, Source.assembles, Source.confirmed, held, full, record, again]
            refine ⟨long, fun _ _ e _ => e, ?_⟩
            rintro b r' rfl - again'
            exact absurd again' again
      · have none : x.completed bit false = none := by simp [Source.completed, held]; omega
        simp [none, Source.assembles, Source.confirmed, held, full]
    · simp [Source.completed, Source.assembles, Source.confirmed, Source.fails, held]

theorem Source.collected_of {bit start : Bool} {x a z : Source} (assembly : a.assembly = x.assembly)
    (block : a.prevBlock = x.prevBlock) (failed : a.counters.blocksFailed = x.counters.blocksFailed)
    (adopted : a.adopted = x.adopted) (done : a.collected bit start z) : x.collected bit start z := by
  unfold Source.collected at *
  rw [assembly, block, failed, adopted] at done
  exact done

theorem Source.confirmed_of {bit start : Bool} {x a : Source} (assembly : a.assembly = x.assembly)
    (block : a.prevBlock = x.prevBlock) : a.confirmed bit start = x.confirmed bit start := by
  unfold Source.confirmed Source.completed
  rw [assembly, block]

/-- R19: the state of a source after a status bit. -/
theorem Source.collects_state (bit start : Bool) (x : Source) :
    ((∀ r, x.confirmed bit start = some r → x.adopted = some r) → (x.collects bit start).state = x.state) ∧
      ∀ r, x.confirmed bit start = some r → x.adopted ≠ some r → (x.collects bit start).state = adoptedState r x := by
  obtain ⟨state, -, -, goodRun, -⟩ := Source.assembles_keeps bit start x
  unfold Source.collects
  rcases x.confirmed bit start with _ | r
  · exact ⟨fun _ => state, nofun⟩
  · refine ⟨fun all => ?_, fun r' e n => ?_⟩
    · dsimp only
      rw [if_pos (all r rfl)]
      exact state
    · cases e
      dsimp only
      rw [if_neg n, (Source.adoptsRecord_keeps r _).1]
      unfold adoptedState
      rw [state, goodRun]

/-- R19: the state of a source that is not ABSENT after the adoption of a record, by the record first. -/
theorem adoptedState_of_present {r : StatusRecord} {x : Source} (present : x.state ≠ .absent) :
    adoptedState r x =
      if r.nonAudio then .unusable .nonAudio
      else if r.rate = 2 then
        match x.state with
        | .unusable .nonAudio => .prefill
        | .unusable .rate => if x.goodRun = 4 then .prefill else .unusable .rate
        | other => other
      else .unusable .rate := by
  unfold adoptedState
  by_cases speech : r.nonAudio = true
  · rw [if_pos speech]
    rcases state : x.state with _ | _ | _ | _ | _
    · exact absurd state present
    all_goals simp [playable, recordState, speech]
  · rw [if_neg speech]
    by_cases rate : r.rate = 2
    · rw [if_pos rate]
      rcases state : x.state with _ | _ | _ | _ | _
      · exact absurd state present
      all_goals simp [playable, recordState, speech, rate]
    · rw [if_neg rate]
      have rate : ¬ r.rate = 2#8 := rate
      rcases state : x.state with _ | _ | _ | _ | _
      · exact absurd state present
      all_goals simp [playable, recordState, speech, rate]

theorem playable_some {r : StatusRecord} : playable (some r) = true ↔ r.nonAudio = false ∧ r.rate = 2 := by
  simp [playable]

/-- R4, R10: the state of a source after a frame arrival. -/
def Source.arrivedState (x : Source) : SourceState :=
  match x.state with
  | .running => .running
  | .prefill =>
    if x.prefill ≤ (if x.buffer.length < 64 then x.buffer.length + 1 else x.buffer.length) then .running else .prefill
  | .unusable reason => .unusable reason
  | .absent => if playable x.adopted then (if x.prefill ≤ 1 then .running else .prefill) else recordState x.adopted

theorem Source.arrives_state (f : Frame) (x : Source) : (x.arrives f).state = x.arrivedState := by
  unfold Source.arrivedState
  cases state : x.state with
  | running =>
    rw [Source.arrives_of_running f state]
    exact (Source.write_keeps f _).1.trans state
  | prefill =>
    rw [Source.arrives_of_prefill f state]
    dsimp only
    rw [Source.write_fill]
    rfl
  | unusable reason =>
    rw [Source.arrives_of_unusable f state]
    exact state
  | absent =>
    dsimp only
    cases plays : playable x.adopted with
    | true => exact (Source.arrives_of_absent_playable f state plays).2.2.1
    | false => exact (Source.arrives_of_absent_unplayable f state plays).2.1

theorem Source.arrivedState_present (x : Source) : x.arrivedState ≠ .absent := by
  have starts (c : Prop) [Decidable c] : (if c then SourceState.running else .prefill) ≠ .absent := by
    by_cases yes : c <;> simp [yes]
  unfold Source.arrivedState
  split
  · nofun
  · exact starts _
  · nofun
  · split
    · exact starts _
    · rcases recordState_cases x.adopted with ⟨-, e⟩ | ⟨-, reason, e⟩ <;> rw [e] <;> nofun

theorem Source.arrivedState_of_prefill {x : Source} (prefill : x.state = .prefill) :
    x.arrivedState = .running ↔
      x.prefill ≤ (if x.buffer.length < 64 then x.buffer.length + 1 else x.buffer.length) := by
  unfold Source.arrivedState
  rw [prefill]
  dsimp only
  split <;> simp_all

theorem Source.arrivedState_of_absent {x : Source} (absent : x.state = .absent) :
    x.arrivedState = .running ↔ playable x.adopted = true ∧ x.prefill ≤ 1 := by
  unfold Source.arrivedState
  rw [absent]
  dsimp only
  rcases recordState_cases x.adopted with ⟨plays, -⟩ | ⟨quiet, reason, state⟩
  · by_cases short : x.prefill ≤ 1
    · simp [plays, short]
    · simp [plays, short]
  · simp [quiet, state]

/-! ### A frame with its status bit -/

/-- R18, R19, R55: what a status bit leads to in the other blocks, the part being out of STANDBY. -/
theorem State.collect_hub_of_awake {i : SourceId} (bit start : Bool) {s : State} (awake : s.hub.standby.power ≠ .standby) :
    let x := s.sources[i]
    let g := (s.collect i bit start).hub
    ((∀ r, x.confirmed bit start = some r → x.adopted = some r) → g = s.hub) ∧
      ∀ r, x.confirmed bit start = some r → x.adopted ≠ some r →
        (x.state ≠ .running ∨ playable (some r) = true →
          ∃ ns, s.hub.toldOnly g ns ∧ sourceStatusNotice i r ∈ ns) ∧
        (x.state = .running → playable (some r) = false →
          ∃ ns, s.hub.toldDeparture g (s.collect i bit start).sources i ns ∧ sourceStatusNotice i r ∈ ns) := by
  obtain ⟨h, hub, same, adopts⟩ := State.collect_hub i bit start s
  have power := (State.collect_standby i bit start s).1
  have unreported : (s.collect i bit start).hub = h := by
    rw [hub]
    split
    · rfl
    · next r e =>
      rw [hub, e] at power
      have asleep : h.standby.power ≠ .standby := by
        rw [← (Hub.wakeReport_standby i r h).1, power]
        exact awake
      exact (Hub.wakeReport_standby i r h).2.2 asleep
  dsimp only
  rw [unreported]
  refine ⟨same, fun r e n => ?_⟩
  obtain ⟨told, departs⟩ := adopts r e n
  exact ⟨fun stays => ⟨_, told stays, List.mem_cons_self⟩, departs⟩

/-- R4, R10, R17 to R19, R55, R56: what a frame and its status bit lead to in the other blocks, the part being out of
STANDBY. -/
theorem State.arriveCollect_hub {i : SourceId} (f : Frame) (bit start : Bool) {s : State}
    (awake : s.hub.standby.power ≠ .standby) :
    let x := s.sources[i]
    let a := x.arrives f
    let z := a.collects bit start
    let t := (s.arrive i f).collect i bit start
    ((∀ r, x.confirmed bit start = some r → x.adopted = some r) →
      (x.state = .running ∨ (∃ reason, x.state = .unusable reason) → t.hub = s.hub) ∧
      (x.state = .prefill →
        (a.state = .running → ∃ ns, s.hub.toldEntry t.hub i ns ∧ sourceStateNotice i z ∈ ns) ∧
          (a.state ≠ .running → t.hub = s.hub)) ∧
      (x.state = .absent →
        (a.state = .running → ∃ ns, s.hub.toldEntry t.hub i ns ∧ sourceStateNotice i z ∈ ns) ∧
          (a.state ≠ .running → s.hub.toldOnly t.hub [sourceStateNotice i z]))) ∧
    ∀ r, x.confirmed bit start = some r → x.adopted ≠ some r →
      (∃ ns, t.hub.outbox = s.hub.outbox ++ ns ∧ sourceStatusNotice i r ∈ ns) ∧
      (x.state = .running →
        (playable (some r) = true → ∃ ns, s.hub.toldOnly t.hub ns) ∧
        (playable (some r) = false → ∃ ns, s.hub.toldDeparture t.hub t.sources i ns)) ∧
      (x.state = .prefill →
        (a.state = .running → playable (some r) = true → ∃ ns, s.hub.toldEntry t.hub i ns) ∧
        (a.state ≠ .running → ∃ ns, s.hub.toldOnly t.hub ns)) ∧
      ((∃ reason, x.state = .unusable reason) → ∃ ns, s.hub.toldOnly t.hub ns) := by
  obtain ⟨channels, adopted, -, -, assembly, block, -⟩ := Source.arrives_keeps f s.sources[i]
  obtain ⟨still, prefills, appears⟩ := State.arrive_hub (i := i) (f := f) awake
  have held : (s.arrive i f).sources[i] = s.sources[i].arrives f := State.arrive_same awake
  have awake' : (s.arrive i f).hub.standby.power ≠ .standby := by rw [State.arrive_standby]; exact awake
  obtain ⟨same, adopts⟩ := State.collect_hub_of_awake (i := i) bit start awake'
  have confirms : (s.sources[i].arrives f).confirmed bit start = s.sources[i].confirmed bit start :=
    Source.confirmed_of assembly block
  rw [held, confirms, adopted] at same adopts
  dsimp only at still prefills appears same adopts ⊢
  refine ⟨fun known => ?_, fun r e n => ?_⟩
  · have state := (Source.collects_state bit start (s.sources[i].arrives f)).1 (by rw [confirms, adopted]; exact known)
    have notice : sourceStateNotice i ((s.sources[i].arrives f).collects bit start) =
        sourceStateNotice i (s.sources[i].arrives f) :=
      sourceStateNotice_congr state (Source.collects_keeps bit start _).2.2.2.1
    rw [same known, notice]
    exact ⟨still, prefills, appears⟩
  · obtain ⟨stays, departs⟩ := adopts r e n
    refine ⟨?_, fun running => ?_, fun prefill => ⟨fun entered plays => ?_, fun out => ?_⟩, fun unusable => ?_⟩
    · have first : ∃ ns, (s.arrive i f).hub.outbox = s.hub.outbox ++ ns := by
        cases state : s.sources[i].state with
        | running => exact ⟨[], by rw [still (.inl state), List.append_nil]⟩
        | unusable reason => exact ⟨[], by rw [still (.inr ⟨reason, state⟩), List.append_nil]⟩
        | prefill =>
          by_cases running : (s.sources[i].arrives f).state = .running
          · obtain ⟨ns, entry, -⟩ := (prefills state).1 running
            exact ⟨ns, entry.1⟩
          · exact ⟨[], by rw [(prefills state).2 running, List.append_nil]⟩
        | absent =>
          by_cases running : (s.sources[i].arrives f).state = .running
          · obtain ⟨ns, entry, -⟩ := (appears state).1 running
            exact ⟨ns, entry.1⟩
          · exact ⟨_, congrArg Hub.outbox ((appears state).2 running)⟩
      have second : ∃ ns, ((s.arrive i f).collect i bit start).hub.outbox = (s.arrive i f).hub.outbox ++ ns ∧
          sourceStatusNotice i r ∈ ns := by
        by_cases leaves : (s.sources[i].arrives f).state = .running ∧ playable (some r) = false
        · obtain ⟨ns, departure, notice⟩ := departs leaves.1 leaves.2
          exact ⟨ns, departure.1, notice⟩
        · have stay : (s.sources[i].arrives f).state ≠ .running ∨ playable (some r) = true := by
            rcases Decidable.not_and_iff_not_or_not.1 leaves with out | plays
            · exact .inl out
            · exact .inr (by simpa using plays)
          obtain ⟨ns, told, notice⟩ := stays stay
          exact ⟨ns, congrArg Hub.outbox told, notice⟩
      obtain ⟨ns, one⟩ := first
      obtain ⟨ms, two, notice⟩ := second
      exact ⟨ns ++ ms, by rw [two, one, List.append_assoc], List.mem_append_right _ notice⟩
    · have same := still (.inl running)
      have state : (s.sources[i].arrives f).state = .running := by
        rw [Source.arrives_of_running f running]
        exact (Source.write_keeps f _).1.trans running
      rw [same] at stays departs
      refine ⟨fun plays => ?_, fun unplayable => ?_⟩
      · obtain ⟨ns, told, -⟩ := stays (.inr plays)
        exact ⟨ns, told⟩
      · obtain ⟨ns, departure, -⟩ := departs state unplayable
        exact ⟨ns, departure⟩
    · obtain ⟨ns, entry, -⟩ := (prefills prefill).1 entered
      obtain ⟨ms, told, -⟩ := stays (.inr plays)
      exact ⟨_, entry.after told⟩
    · rw [(prefills prefill).2 out] at stays
      obtain ⟨ns, told, -⟩ := stays (.inl out)
      exact ⟨ns, told⟩
    · obtain ⟨reason, state⟩ := unusable
      rw [still (.inr ⟨reason, state⟩)] at stays
      have out : (s.sources[i].arrives f).state ≠ .running := by
        rw [Source.arrives_of_unusable f state]
        change s.sources[i].state ≠ .running
        rw [state]
        nofun
      obtain ⟨ns, told, -⟩ := stays (.inl out)
      exact ⟨ns, told⟩

/-! ### SERIAL_FRAME_ARRIVAL -/

/-- R9: a record with an invalid frame counted. -/
def Source.validates (valid : Bool) (x : Source) : Source :=
  if valid then x else { x with counters := { x.counters with invalidFrames := bump x.counters.invalidFrames } }

/-- R9: the frame that a serial frame brings. -/
def serialSamples (left right : BitVec 24) (valid : Bool) : Frame :=
  if valid then { Frame.zero with fl := left.toInt, fr := right.toInt } else Frame.zero

theorem Source.validates_eq (valid : Bool) (x : Source) :
    x.validates valid =
      { x with
        counters :=
          { x.counters with
            invalidFrames := if valid then x.counters.invalidFrames else bump x.counters.invalidFrames } } := by
  cases valid <;> rfl

theorem State.serialFrame_of_heard {i : SourceId} {left right : BitVec 24} {valid status start : Bool} {s : State}
    (heard : s.hub.inputIgnored i = false) :
    s.serialFrame i left right valid status start =
      ((s.setSource i (s.sources[i].validates valid)).arrive i (serialSamples left right valid)).collect i status start := by
  unfold State.serialFrame
  rw [heard]
  rfl

/-- R191: the report of a confirmed block in STANDBY for a source of the wake-sense set. -/
theorem Hub.wakeReport_of_sensed {i : SourceId} {r : StatusRecord} {h : Hub} (standby : h.standby.power = .standby)
    (sensed : h.standby.wakeSense.getLsbD i.val = true) :
    h.wakeReport i r =
      if r.nonAudio = false ∧ h.standby.reported.getLsbD i.val = false then
        post (wakeCandidateNotice i r)
          { h with standby := { h.standby with reported := h.standby.reported ||| BitVec.ofNat 8 (2 ^ i.val) } }
      else h := by
  unfold Hub.wakeReport
  by_cases reports : r.nonAudio = false ∧ h.standby.reported.getLsbD i.val = false
  · rw [if_pos ⟨standby, reports.1, sensed, reports.2⟩, if_pos reports]
  · rw [if_neg fun c => reports ⟨c.2.1, c.2.2.2⟩, if_neg reports]

/-- R17 to R19, R191: a status bit of an ABSENT source of the wake-sense set in STANDBY. -/
theorem State.collect_of_sensed {i : SourceId} (bit start : Bool) {s : State} (standby : s.hub.standby.power = .standby)
    (sensed : s.hub.standby.wakeSense.getLsbD i.val = true) (absent : s.sources[i].state = .absent) :
    let x := s.sources[i]
    let g := (s.collect i bit start).hub
    (s.collect i bit start).sources[i].state = .absent ∧
    (x.confirmed bit start = none → g = s.hub) ∧
    ∀ r, x.confirmed bit start = some r →
      let reports := r.nonAudio = false ∧ s.hub.standby.reported.getLsbD i.val = false
      g =
        { s.hub with
          standby :=
            if reports then { s.hub.standby with reported := s.hub.standby.reported ||| BitVec.ofNat 8 (2 ^ i.val) }
            else s.hub.standby
          outbox :=
            s.hub.outbox ++ ((if x.adopted = some r then [] else [sourceStatusNotice i r]) ++
              if reports then [wakeCandidateNotice i r] else []) } := by
  obtain ⟨h, hub, same, adopts⟩ := State.collect_hub i bit start s
  have stays (r : StatusRecord) : adoptedState r s.sources[i] = s.sources[i].state := by
    unfold adoptedState; rw [absent]
  dsimp only at hub same adopts ⊢
  refine ⟨?_, fun none => ?_, fun r confirmed => ?_⟩
  · rw [State.collect_same]
    obtain ⟨known, adopted⟩ := Source.collects_state bit start s.sources[i]
    by_cases new : ∃ r, s.sources[i].confirmed bit start = some r ∧ s.sources[i].adopted ≠ some r
    · obtain ⟨r, e, n⟩ := new
      rw [adopted r e n, stays, absent]
    · rw [known fun r e => Classical.byContradiction fun n => new ⟨r, e, n⟩, absent]
  · rw [none] at hub same
    rw [hub]
    exact same nofun
  · rw [confirmed] at hub same
    have told : h = { s.hub with
        outbox := s.hub.outbox ++ (if s.sources[i].adopted = some r then [] else [sourceStatusNotice i r]) } := by
      by_cases known : s.sources[i].adopted = some r
      · rw [if_pos known, List.append_nil]
        exact same fun r' e => by cases e; exact known
      · have told := (adopts r confirmed known).1 (.inl (by rw [absent]; nofun))
        rw [if_pos (stays r)] at told
        rw [if_neg known]
        exact told
    rw [hub]
    dsimp only
    rw [Hub.wakeReport_of_sensed (by rw [told]; exact standby) (by rw [told]; exact sensed), told]
    dsimp only
    by_cases reports : r.nonAudio = false ∧ s.hub.standby.reported.getLsbD i.val = false
    · rw [if_pos reports, if_pos reports, if_pos reports, ← List.append_assoc]
      rfl
    · rw [if_neg reports, if_neg reports, if_neg reports, List.append_nil]

/-- R4, R10: what a frame arrival leaves of the state and the buffer of a record. -/
theorem Source.arrives_buffer (f : Frame) (x : Source) :
    let a := x.arrives f
    (x.state = .running → a.state = .running ∧
      (x.buffer.length < 64 → a.buffer = x.buffer ++ [x.mask f] ∧ a.lastWritten = some (x.mask f)) ∧
      (64 ≤ x.buffer.length → a.buffer = x.buffer ∧ a.counters.overruns = bump x.counters.overruns)) ∧
    (x.state = .prefill → x.buffer.length < 64 → a.buffer = x.buffer ++ [x.mask f] ∧
      a.state = (if x.prefill ≤ x.buffer.length + 1 then .running else .prefill)) ∧
    (x.state = .absent → a.entryInterval = true ∧
      (playable x.adopted = true → a.buffer = [x.mask f] ∧
        a.state = (if x.prefill ≤ 1 then .running else .prefill)) ∧
      (playable x.adopted = false → a.buffer = [] ∧ a.state = recordState x.adopted)) ∧
    ∀ reason, x.state = .unusable reason → a.state = .unusable reason ∧ a.buffer = x.buffer := by
  dsimp only
  refine ⟨fun running => ?_, fun prefill room => ?_, fun absent => ?_, fun reason unusable => ?_⟩
  · rw [Source.arrives_of_running f running]
    refine ⟨(Source.write_keeps f _).1.trans running, fun room => ?_, fun full => ?_⟩
    · rw [Source.write_of_room (x := x.hears) room]
      exact ⟨rfl, rfl⟩
    · rw [Source.write_of_full (x := x.hears) full]
      exact ⟨rfl, rfl⟩
  · rw [Source.arrives_of_prefill f prefill, Source.write_fill, Source.write_of_room (x := x.hears) room]
    exact ⟨rfl, by rw [if_pos (show x.hears.buffer.length < 64 from room)]; rfl⟩
  · cases plays : playable x.adopted with
    | true =>
      obtain ⟨buffer, -, state, entry, -⟩ := Source.arrives_of_absent_playable f absent plays
      exact ⟨entry, fun _ => ⟨buffer, state⟩, nofun⟩
    | false =>
      obtain ⟨buffer, state, entry, -⟩ := Source.arrives_of_absent_unplayable f absent plays
      exact ⟨entry, nofun, fun _ => ⟨buffer, state⟩⟩
  · rw [Source.arrives_of_unusable f unusable]
    exact ⟨unusable, rfl⟩

/-- A status bit that completes no block leaves all but the block under assembly and its failure count. -/
theorem Source.collects_of_incomplete {bit start : Bool} {x : Source}
    (incomplete : start = true ∨ ∀ held bits, x.assembly = .collecting held bits → held + 1 < 160) :
    x.confirmed bit start = none ∧
      x.collects bit start =
        { x with
          assembly := (x.collects bit start).assembly
          prevBlock := (x.collects bit start).prevBlock
          counters := { x.counters with blocksFailed := (x.collects bit start).counters.blocksFailed } } := by
  have none : x.completed bit start = none := by
    refine Option.eq_none_iff_forall_ne_some.2 fun b e => ?_
    obtain ⟨going, held, bits, assembly, full, -⟩ := Source.completed_iff.1 e
    rcases incomplete with yes | short
    · rw [yes] at going; cases going
    · exact absurd full (Nat.not_le.2 (short held bits assembly))
  have unconfirmed : x.confirmed bit start = Option.none := by
    unfold Source.confirmed
    rw [none]
    rfl
  have same : x.collects bit start = x.assembles bit start := by
    unfold Source.collects
    rw [unconfirmed]
  obtain ⟨-, -, -, -, rest⟩ := Source.assembles_keeps bit start x
  rw [same]
  exact ⟨unconfirmed, rest⟩

/-- R17: what a status bit leaves of the counters. -/
theorem Source.collects_counters (bit start : Bool) (x : Source) :
    (x.collects bit start).counters =
      { x.counters with blocksFailed := (x.collects bit start).counters.blocksFailed } := by
  obtain ⟨-, -, -, -, rest⟩ := Source.assembles_keeps bit start x
  rw [(Source.collects_keeps bit start x).2.2.1]
  exact congrArg Source.counters rest

/-! ### Notices told at once -/

theorem Hub.toldOnly.delivered {h g : Hub} {ns : List Notice} (told : h.toldOnly g ns) (none : h.outbox = []) :
    g.outbox = ns ∧ ({ g with outbox := [] } : Hub) = h := by
  rw [Hub.toldOnly] at told
  subst told
  exact ⟨by rw [none, List.nil_append], by rw [← none]⟩

theorem Hub.toldEntry.delivered {h g : Hub} {i : SourceId} {ns : List Notice} (told : h.toldEntry g i ns)
    (none : h.outbox = []) : g.outbox = ns ∧ h.tookEntry { g with outbox := [] } i ns := by
  obtain ⟨outbox, entry⟩ := told
  rw [none] at outbox entry
  exact ⟨outbox, entry⟩

theorem Hub.toldDeparture.delivered {h g : Hub} {src : Vector Source 8} {i : SourceId} {ns : List Notice}
    (told : h.toldDeparture g src i ns) (none : h.outbox = []) :
    g.outbox = ns ∧ h.departs { g with outbox := [] } src i ns := by
  obtain ⟨outbox, departure, audio, fade⟩ := told
  rw [none] at outbox
  exact ⟨outbox, departure.alike rfl rfl fun _ m => m, audio, fade⟩

/-- R9: a record with an invalid frame counted where there is one. -/
theorem State.serialFrame_eq {i : SourceId} {left right : BitVec 24} {valid status start : Bool} {s : State}
    (heard : s.hub.inputIgnored i = false) :
    s.serialFrame i left right valid status start =
      ((s.setSource i
        { s.sources[i] with
          counters :=
            { s.sources[i].counters with
              invalidFrames :=
                if valid then s.sources[i].counters.invalidFrames
                else bump s.sources[i].counters.invalidFrames } }).arrive i
          (serialSamples left right valid)).collect i status start := by
  rw [State.serialFrame_of_heard heard, Source.validates_eq]

/-- Settles O26: a frame and its status bit replace the record of their source, and the other blocks react to what it
becomes. -/
theorem serialFramesArrive : Obligations.SerialFramesArrive := by
  intro s k left right valid status start ⟨quiet, awake⟩ settled i x f place completes confirmed collected
  have none : s.hub.outbox = [] := quiet
  have step : s.settle.serialFrame i left right valid status start =
      s.serialFrame i left right valid status start := by rw [State.settle_of_settled settled]
  obtain ⟨t, run, tells, sources, hub⟩ := event_tells
    (f := fun t : State => t.settle.serialFrame i left right valid status start) awake
    (by rw [step]; simp) (by rw [step]; simp) (by rw [step]; simp)
  dsimp only at tells sources hub
  rw [step] at tells sources hub
  let y : Source := { x with counters := { x.counters with
      invalidFrames := if valid then x.counters.invalidFrames else bump x.counters.invalidFrames } }
  let u := s.setSource i y
  have held : u.sources[i] = y := State.setSource_same i y s
  have frame := State.serialFrame_frame i left right valid status start s
  have confirms (r : StatusRecord) : x.confirmed status start = some r ↔ ∃ b, confirmed b r :=
    Source.confirmed_iff.trans (exists_congr fun b => and_congr_left' Source.completed_iff)
  refine ⟨recordOf_eq, fun standby unsensed => ?_, fun standby sensed absent => ?_, fun active => ?_⟩
  · have same : s.serialFrame i left right valid status start = s :=
      if_pos (by unfold Hub.inputIgnored; rw [unsensed, standby]; rfl)
    rw [same] at tells sources hub
    rw [none] at tells
    exact ⟨t, run, tells, sources, hub.trans (State.hub_of_delivered quiet)⟩
  · have heard : s.hub.inputIgnored i = false := by simp [Hub.inputIgnored, sensed]
    have whole : s.serialFrame i left right valid status start = u.collect i status start :=
      (State.serialFrame_eq heard).trans (congrArg (fun v : State => v.collect i status start)
        (State.arrive_of_standby (s := u) standby))
    rw [whole] at tells sources hub
    obtain ⟨state, unconfirmed, reports⟩ := State.collect_of_sensed (s := u) status start standby sensed
      (by rw [held]; exact absent)
    have kept := State.collect_standby i status start u
    have record := State.collect_same i status start u
    rw [held] at unconfirmed reports record
    obtain ⟨-, -, counters, -, -, -, arrivals, arrival⟩ := Source.collects_keeps status start y
    refine ⟨t, _, run, tells, fun j other => ?_, ?_⟩
    · rw [sources, State.collect_other _ _ _ other]
      exact State.setSource_other y s other
    rw [← sources] at state record
    have same : y.confirmed status start = x.confirmed status start := Source.confirmed_of rfl rfl
    rw [same] at unconfirmed reports
    obtain ⟨power, sense, -⟩ := kept
    refine ⟨state, by rw [record, arrivals], by rw [record, arrival], ?_, ?_, ?_, ?_, ?_⟩
    · rw [record, Source.collects_counters]
    · rw [hub]; exact sense
    · rw [hub]; exact power.trans standby
    · have done : x.collected status start t.sources[i] := by
        rw [record]
        exact Source.collected_of rfl rfl rfl rfl (Source.collects_collected status start y)
      exact done
    · cases e : x.confirmed status start with
      | none =>
        have g := unconfirmed e
        have still : t.hub = s.hub := by rw [hub, g]; exact State.hub_of_delivered quiet
        refine ⟨by rw [still], fun _ => ⟨by rw [g]; exact none, by rw [still]⟩, fun b r c => ?_⟩
        rw [(confirms r).2 ⟨b, c⟩] at e
        cases e
      | some r₀ =>
        have g := reports r₀ e
        rw [g] at hub
        refine ⟨by rw [hub]; exact congrArg (fun o => ({ s.hub with standby := _, outbox := o } : Hub)) none.symm, fun never => ?_, fun b r c => ?_⟩
        · obtain ⟨b, c⟩ := (confirms r₀).1 e
          exact absurd c (never b r₀)
        · rw [(confirms r).2 ⟨b, c⟩] at e
          cases e
          refine ⟨?_, by rw [hub]; rfl⟩
          rw [g]
          exact (congrArg (· ++ _) none).trans (List.nil_append _)
  · have heard : s.hub.inputIgnored i = false := by simp [Hub.inputIgnored, active]
    have whole := State.serialFrame_eq (left := left) (right := right) (valid := valid) (status := status)
      (start := start) heard
    change _ = (u.arrive i (serialSamples left right valid)).collect i status start at whole
    let f₀ := serialSamples left right valid
    let a := y.arrives f₀
    let z := a.collects status start
    obtain ⟨-, -, -, lanes, protection, radio, station, settings, tables⟩ := frame
    rw [whole] at tells sources hub lanes protection radio station settings tables
    have active' : u.hub.standby.power ≠ .standby := active
    have standby : ((u.arrive i f₀).collect i status start).hub.standby = s.hub.standby := by
      have awake' : (u.arrive i f₀).hub.standby.power ≠ .standby := by rw [State.arrive_standby]; exact active
      rw [(State.collect_standby i status start _).2.2 awake', State.arrive_standby]
      rfl
    have record : t.sources[i] = z := by
      rw [sources, State.collect_same, State.arrive_same active', held]
    have reacts := State.arriveCollect_hub (i := i) f₀ status start active'
    rw [held] at reacts
    obtain ⟨assembly, block, counters, channels, prefill, change, arrivals, arrival⟩ :=
      Source.collects_keeps status start a
    obtain ⟨channels', adopted', prefill', change', assembly', block', goodRun', arrivals', arrival', -, -, counters'⟩ :=
      Source.arrives_keeps f₀ y
    have same : a.confirmed status start = x.confirmed status start := Source.confirmed_of assembly' block'
    have started (fill : x.state = .prefill) : a.state = .running ↔
        x.prefill ≤ (if x.buffer.length < 64 then x.buffer.length + 1 else x.buffer.length) := by
      rw [Source.arrives_state]
      exact Source.arrivedState_of_prefill (x := y) fill
    have appeared (absent : x.state = .absent) : a.state = .running ↔ playable x.adopted = true ∧ x.prefill ≤ 1 := by
      rw [Source.arrives_state]
      exact Source.arrivedState_of_absent (x := y) absent
    refine ⟨t, _, run, tells, fun j other => ?_, ?_, ?_, ?_, ?_, ?_, ?_, ?_, ?_, ?_, ?_, ?_, ?_, ?_, ?_, ?_, ?_, ?_⟩
    · rw [sources, State.collect_other _ _ _ other, State.arrive_other _ _ other]
      exact State.setSource_other y s other
    · rw [record]; exact arrivals.trans arrivals'
    · rw [record]; exact arrival.trans arrival'
    · rw [record]; exact prefill.trans prefill'
    · rw [record]; exact channels.trans channels'
    · rw [record]; exact change.trans change'
    · rw [record, Source.collects_counters, counters']
    · intro incomplete
      obtain ⟨-, rest⟩ := Source.collects_of_incomplete (bit := status) (start := start) (x := a)
        (by rw [assembly']; exact incomplete)
      change z = _ at rest
      have state : z.state = a.state := by rw [rest]
      have buffer : z.buffer = a.buffer := by rw [rest]
      have written : z.lastWritten = a.lastWritten := by rw [rest]
      have entry : z.entryInterval = a.entryInterval := by rw [rest]
      have overruns : z.counters.overruns = a.counters.overruns := by rw [rest]
      have adopted : z.adopted = a.adopted := by rw [rest]
      rw [record, state, buffer, written, entry, overruns, adopted]
      exact ⟨adopted', Source.arrives_buffer f₀ y⟩
    · have done : x.collected status start t.sources[i] := by
        rw [record]
        exact Source.collected_of (a := a) assembly' block' (by rw [counters']) adopted'
          (Source.collects_collected status start a)
      exact done
    · obtain ⟨known, changed⟩ := Source.collects_state status start a
      rw [same, adopted'] at known changed
      refine ⟨fun b r c is => ?_, fun b r c differs => ?_⟩
      · have state : z.state = a.state := known fun r' e => by
          rw [(confirms r).2 ⟨b, c⟩] at e
          cases e
          exact is
        rw [record, state]
        exact Source.arrives_state f₀ y
      · have is := (confirms r).2 ⟨b, c⟩
        have plays : playable (some r) = true ↔ r.nonAudio = false ∧ r.rate = 2 := playable_some
        have present : a.state ≠ .absent := by
          rw [Source.arrives_state]
          exact Source.arrivedState_present y
        have state : z.state = adoptedState r a := changed r is differs
        rw [adoptedState_of_present present, Source.arrives_state, goodRun'] at state
        obtain ⟨⟨ns, outbox, notice⟩, running, prefilling, unusable⟩ := reacts.2 r is differs
        rw [show u.hub.outbox = [] from none, List.nil_append] at outbox
        refine ⟨by rw [outbox]; exact notice, by rw [record]; exact state, fun on => ⟨fun audio => ?_, fun quiet => ?_⟩,
          fun fill => ⟨fun filled audio => ?_, fun unfilled => ?_⟩, fun reason out => ?_⟩
        · obtain ⟨ms, told⟩ := (running on).1 (plays.2 audio)
          rw [hub]
          exact (told.delivered none).2
        · obtain ⟨ms, told⟩ := (running on).2 (by rw [← Bool.not_eq_true, plays]; exact quiet)
          obtain ⟨all, departs⟩ := told.delivered none
          rw [all, hub, sources]
          exact departs
        · obtain ⟨ms, told⟩ := (prefilling fill).1 ((started fill).2 filled) (plays.2 audio)
          obtain ⟨all, entry⟩ := told.delivered none
          rw [all, hub]
          exact entry
        · obtain ⟨ms, told⟩ := (prefilling fill).2 fun c => unfilled ((started fill).1 c)
          rw [hub]
          exact (told.delivered none).2
        · obtain ⟨ms, told⟩ := unusable ⟨reason, out⟩
          rw [hub]
          exact (told.delivered none).2
    · intro known
      obtain ⟨still, prefilling, appears⟩ := reacts.1 fun r is => by
        obtain ⟨b, c⟩ := (confirms r).1 is
        exact known b r c
      rw [record]
      refine ⟨fun stays => ?_, fun fill => ⟨fun filled => ?_, fun unfilled => ?_⟩, fun absent => ?_⟩
      · rw [hub, still stays]
        exact ⟨State.hub_of_delivered quiet, none⟩
      · obtain ⟨ns, told, notice⟩ := (prefilling fill).1 ((started fill).2 filled)
        obtain ⟨all, entry⟩ := told.delivered none
        rw [all, hub]
        exact ⟨notice, entry⟩
      · rw [hub, (prefilling fill).2 fun c => unfilled ((started fill).1 c)]
        exact ⟨State.hub_of_delivered quiet, none⟩
      · obtain ⟨enters, waits⟩ := appears absent
        by_cases on : a.state = .running
        · obtain ⟨ns, told, notice⟩ := enters on
          obtain ⟨all, entry⟩ := told.delivered none
          rw [all, hub]
          refine ⟨notice, fun _ _ => entry, fun out => ?_⟩
          obtain ⟨plays, short⟩ := (appeared absent).1 on
          rcases out with out | out
          · rw [plays] at out; cases out
          · exact absurd short (Nat.not_le.2 out)
        · obtain ⟨all, same⟩ := (waits on).delivered none
          rw [all, hub]
          exact ⟨List.mem_singleton_self _, fun plays short => absurd ((appeared absent).2 ⟨plays, short⟩) on,
            fun _ => ⟨same, rfl⟩⟩
    · rw [hub]; exact lanes
    · rw [hub]; exact protection
    · rw [hub]; exact radio
    · rw [hub]; exact station
    · rw [hub]; exact standby
    · rw [hub]; exact settings
    · rw [hub]; exact tables

end Sys2Proof.Machine
end

section
/-! SUPPORT. Packets (O27): frames that arrive one after another, the gap before a frame, the status bit of a packet and
the frame under assembly, first in the record of the source and then in the other blocks. -/

namespace Sys2Proof.Machine

/-! ### Counters -/

theorem bumpBy_bumpBy (n j k : Nat) : bumpBy (bumpBy n j) k = bumpBy n (j + k) := by
  unfold bumpBy
  omega

theorem iterate_bump (n k : Nat) : bump^[k + 1] n = bumpBy n (k + 1) := by
  induction k with
  | zero => rfl
  | succ k ih => rw [Function.iterate_succ_apply', ih]; exact bumpBy_bumpBy n (k + 1) 1

/-! ### Frames that arrive one after another (R8) -/

/-- Frame arrivals one after another. -/
def State.arriveAll (i : SourceId) (fs : List Frame) (s : State) : State := fs.foldl (fun t f => t.arrive i f) s

/-- The record of a source after frame arrivals one after another, the part being out of STANDBY. -/
def Source.arrivesAll (fs : List Frame) (x : Source) : Source := fs.foldl (fun y f => y.arrives f) x

theorem State.arriveAll_snoc (i : SourceId) (fs : List Frame) (f : Frame) (s : State) :
    s.arriveAll i (fs ++ [f]) = (s.arriveAll i fs).arrive i f := by simp [State.arriveAll]

theorem Source.arrivesAll_snoc (fs : List Frame) (f : Frame) (x : Source) :
    x.arrivesAll (fs ++ [f]) = (x.arrivesAll fs).arrives f := by simp [Source.arrivesAll]

theorem State.arriveTimes_eq (i : SourceId) (f : Frame) (n : Nat) (s : State) :
    s.arriveTimes i f n = s.arriveAll i (List.replicate n f) := by
  induction n generalizing s with
  | zero => rfl
  | succ n ih => exact ih (s.arrive i f)

theorem State.arriveAll_of_standby {i : SourceId} {s : State} (standby : s.hub.standby.power = .standby)
    (fs : List Frame) : s.arriveAll i fs = s := by
  induction fs with
  | nil => rfl
  | cons f fs ih =>
    refine Eq.trans ?_ ih
    exact congrArg (State.arriveAll i fs) (State.arrive_of_standby standby)

@[simp] theorem State.arriveAll_standby (i : SourceId) (fs : List Frame) (s : State) :
    (s.arriveAll i fs).hub.standby = s.hub.standby := by
  induction fs using List.reverseRecOn with
  | nil => rfl
  | append_singleton fs f ih => rw [State.arriveAll_snoc, State.arrive_standby, ih]

theorem State.arriveAll_other {i j : SourceId} (fs : List Frame) (s : State) (other : j ≠ i) :
    (s.arriveAll i fs).sources[j] = s.sources[j] := by
  induction fs using List.reverseRecOn with
  | nil => rfl
  | append_singleton fs f ih => rw [State.arriveAll_snoc, State.arrive_other _ _ other, ih]

theorem State.arriveAll_same {i : SourceId} {s : State} (awake : s.hub.standby.power ≠ .standby) (fs : List Frame) :
    (s.arriveAll i fs).sources[i] = s.sources[i].arrivesAll fs := by
  induction fs using List.reverseRecOn with
  | nil => rfl
  | append_singleton fs f ih =>
    rw [State.arriveAll_snoc, Source.arrivesAll_snoc, State.arrive_same (by simpa using awake), ih]

/-- R4, R10: a frame at a source in PREFILL or RUNNING whose buffer has room. -/
theorem Source.arrives_of_room {x : Source} (f : Frame) (receives : x.state = .running ∨ x.state = .prefill)
    (room : x.buffer.length < 64) :
    x.arrives f =
      { x with
        state := if x.state = .running ∨ x.prefill ≤ x.buffer.length + 1 then .running else .prefill
        buffer := x.buffer ++ [x.mask f], lastWritten := some (x.mask f), arrivals := x.arrivals + 1
        arrival := true } := by
  rcases receives with running | prefill
  · rw [Source.arrives_of_running f running, Source.write_of_room (x := x.hears) room, if_pos (.inl running), ← running]
    rfl
  · rw [Source.arrives_of_prefill f prefill, Source.write_fill, if_pos (show x.hears.buffer.length < 64 from room),
      Source.write_of_room (x := x.hears) room, prefill]
    simp only [reduceCtorEq, false_or]
    rfl

/-- R8: frames at a source in PREFILL or RUNNING whose buffer has room for them all. -/
theorem Source.arrivesAll_of_room {x : Source} (receives : x.state = .running ∨ x.state = .prefill) (fs : List Frame)
    (room : x.buffer.length + fs.length ≤ 64) :
    ∃ w b,
      x.arrivesAll fs =
        { x with
          state :=
            if x.state = .running ∨ (fs ≠ [] ∧ x.prefill ≤ x.buffer.length + fs.length) then .running else .prefill
          buffer := x.buffer ++ fs.map x.mask, lastWritten := w, arrivals := x.arrivals + fs.length, arrival := b } := by
  induction fs using List.reverseRecOn with
  | nil =>
    refine ⟨x.lastWritten, x.arrival, ?_⟩
    rcases receives with state | state <;> simp [Source.arrivesAll, state] <;> exact congrArg (fun st : SourceState => { x with state := st }) state
  | append_singleton fs f ih =>
    rw [List.length_append, List.length_singleton] at room
    obtain ⟨w, b, is⟩ := ih (by omega)
    rw [Source.arrivesAll_snoc, is, Source.arrives_of_room]
    · refine ⟨some (x.mask f), true, ?_⟩
      have state : (if (if x.state = .running ∨ (fs ≠ [] ∧ x.prefill ≤ x.buffer.length + fs.length) then
              SourceState.running else .prefill) = .running ∨ x.prefill ≤ (x.buffer ++ fs.map x.mask).length + 1 then
            SourceState.running else .prefill) =
          if x.state = .running ∨ (fs ++ [f] ≠ [] ∧ x.prefill ≤ x.buffer.length + (fs.length + 1)) then .running
          else .prefill := by
        have held : (x.buffer ++ fs.map x.mask).length = x.buffer.length + fs.length := by simp
        rw [held]
        refine if_congr (Iff.intro (fun c => ?_) fun c => ?_) rfl rfl
        · rcases c with c | c
          · by_cases filled : x.state = .running ∨ (fs ≠ [] ∧ x.prefill ≤ x.buffer.length + fs.length)
            · exact filled.imp_right fun c => ⟨by simp, by omega⟩
            · rw [if_neg filled] at c; cases c
          · exact .inr ⟨by simp, by omega⟩
        · rcases c with running | ⟨-, filled⟩
          · exact .inl (if_pos (.inl running))
          · exact .inr (by omega)
      dsimp only
      rw [state, List.map_append, List.length_append, List.append_assoc]
      rfl
    · dsimp only
      split
      · exact .inl rfl
      · exact .inr rfl
    · simp only [List.length_append, List.length_map]
      omega

/-- R8: frames at a source in RUNNING whose buffer is full. -/
theorem Source.arrivesAll_of_full {x : Source} (running : x.state = .running) (full : 64 ≤ x.buffer.length)
    (fs : List Frame) :
    ∃ b,
      x.arrivesAll fs =
        { x with
          arrivals := x.arrivals + fs.length, arrival := b
          counters := { x.counters with overruns := bump^[fs.length] x.counters.overruns } } := by
  induction fs using List.reverseRecOn with
  | nil => exact ⟨x.arrival, rfl⟩
  | append_singleton fs f ih =>
    obtain ⟨b, is⟩ := ih
    have state : (x.arrivesAll fs).state = .running := by rw [is]; exact running
    have held : 64 ≤ (x.arrivesAll fs).hears.buffer.length := by rw [is]; exact full
    rw [Source.arrivesAll_snoc, Source.arrives_of_running f state, Source.write_of_full held, is, List.length_append,
      List.length_singleton, Function.iterate_succ_apply']
    exact ⟨true, rfl⟩

/-- R8: frames at a source in UNUSABLE. -/
theorem Source.arrivesAll_of_unusable {x : Source} {reason : UnusableReason} (unusable : x.state = .unusable reason)
    (fs : List Frame) :
    ∃ b, x.arrivesAll fs = { x with arrivals := x.arrivals + fs.length, arrival := b } := by
  induction fs using List.reverseRecOn with
  | nil => exact ⟨x.arrival, rfl⟩
  | append_singleton fs f ih =>
    obtain ⟨b, is⟩ := ih
    have state : (x.arrivesAll fs).state = .unusable reason := by rw [is]; exact unusable
    rw [Source.arrivesAll_snoc, Source.arrives_of_unusable f state, is, List.length_append, List.length_singleton]
    exact ⟨true, rfl⟩

/-- What frame arrivals leave of a record. -/
theorem Source.arrivesAll_keeps (fs : List Frame) (x : Source) :
    (x.arrivesAll fs).channels = x.channels ∧ (x.arrivesAll fs).adopted = x.adopted ∧
      (x.arrivesAll fs).assembly = x.assembly ∧ (x.arrivesAll fs).prevBlock = x.prevBlock ∧
      (x.arrivesAll fs).pendingFrame = x.pendingFrame := by
  induction fs using List.reverseRecOn with
  | nil => exact ⟨rfl, rfl, rfl, rfl, rfl⟩
  | append_singleton fs f ih =>
    obtain ⟨channels, adopted, assembly, block, pending⟩ := ih
    obtain ⟨channels', adopted', -, -, assembly', block', -, -, -, -, pending', -⟩ :=
      Source.arrives_keeps f (x.arrivesAll fs)
    rw [Source.arrivesAll_snoc]
    exact ⟨channels'.trans channels, adopted'.trans adopted, assembly'.trans assembly, block'.trans block,
      pending'.trans pending⟩

theorem Source.arrivesAll_running {x : Source} (running : x.state = .running) (fs : List Frame) :
    (x.arrivesAll fs).state = .running := by
  induction fs using List.reverseRecOn with
  | nil => exact running
  | append_singleton fs f ih =>
    rw [Source.arrivesAll_snoc, Source.arrives_of_running f ih]
    exact (Source.write_keeps f _).1.trans ih

/-- R4, R8: frames at a source in RUNNING or UNUSABLE concern no other block. -/
theorem State.arriveAll_still {i : SourceId} {s : State} (awake : s.hub.standby.power ≠ .standby)
    (stays : s.sources[i].state = .running ∨ ∃ reason, s.sources[i].state = .unusable reason) (fs : List Frame) :
    (s.arriveAll i fs).hub = s.hub := by
  induction fs using List.reverseRecOn with
  | nil => rfl
  | append_singleton fs f ih =>
    have awake' : (s.arriveAll i fs).hub.standby.power ≠ .standby := by simpa using awake
    rw [State.arriveAll_snoc, (State.arrive_hub (f := f) awake').1, ih]
    rw [State.arriveAll_same awake]
    rcases stays with running | ⟨reason, unusable⟩
    · exact .inl (Source.arrivesAll_running running fs)
    · obtain ⟨b, is⟩ := Source.arrivesAll_of_unusable unusable fs
      exact .inr ⟨reason, by rw [is]; exact unusable⟩

/-- R4, R8, R10, R56: what frames at a source in PREFILL lead to in the other blocks. -/
theorem State.arriveAll_prefill {i : SourceId} {s : State} (awake : s.hub.standby.power ≠ .standby)
    (prefill : s.sources[i].state = .prefill) (fs : List Frame) :
    let z := s.sources[i].arrivesAll fs
    let g := (s.arriveAll i fs).hub
    (z.state = .running ∧ ∃ ns, s.hub.toldEntry g i ns ∧ sourceStateNotice i z ∈ ns) ∨
      (z.state = .prefill ∧ g = s.hub) := by
  induction fs using List.reverseRecOn with
  | nil => exact .inr ⟨prefill, rfl⟩
  | append_singleton fs f ih =>
    have awake' : (s.arriveAll i fs).hub.standby.power ≠ .standby := by simpa using awake
    obtain ⟨still, starts, -⟩ := State.arrive_hub (i := i) (f := f) awake'
    rw [State.arriveAll_same awake] at still starts
    dsimp only at ih ⊢
    rw [State.arriveAll_snoc, Source.arrivesAll_snoc]
    have channels := (Source.arrives_keeps f (s.sources[i].arrivesAll fs)).1
    rcases ih with ⟨running, ns, entry, notice⟩ | ⟨waits, same⟩
    · have state : ((s.sources[i].arrivesAll fs).arrives f).state = .running := by
        rw [Source.arrives_of_running f running]
        exact (Source.write_keeps f _).1.trans running
      refine .inl ⟨state, ns, ?_, ?_⟩
      · rw [still (.inl running)]
        exact entry
      · rw [sourceStateNotice_congr (state.trans running.symm) channels]
        exact notice
    · obtain ⟨enters, stays⟩ := starts waits
      rw [same] at enters stays
      by_cases running : ((s.sources[i].arrivesAll fs).arrives f).state = .running
      · exact .inl ⟨running, enters running⟩
      · refine .inr ⟨?_, stays running⟩
        rw [Source.arrives_of_prefill f waits] at running ⊢
        dsimp only at running ⊢
        split at running
        · exact absurd rfl running
        · next unfilled => rw [if_neg unfilled]

/-! ### A completed frame (R7, R8) -/

/-- R8: the frames that fill the gap before a frame of sequence `q`. -/
def Source.fillsGap (q : Nat) (x : Source) : List Frame :=
  match x.lastWritten with
  | some w => if 1 ≤ x.gapBefore q ∧ x.gapBefore q ≤ 4 then List.replicate (x.gapBefore q) w else []
  | none => []

theorem State.writeCompleted_eq (i : SourceId) (q : Nat) (f : Frame) (s : State) :
    let x := s.sources[i]
    let u := (s.setSource i (x.countGap (x.gapBefore q) (!(x.fillsGap q).isEmpty))).arriveAll i (x.fillsGap q ++ [f])
    s.writeCompleted i q f = u.setSource i { u.sources[i] with lastSeq := some q } := by
  have filled :
      (match s.sources[i].lastWritten with
      | some w =>
        if 1 ≤ s.sources[i].gapBefore q ∧ s.sources[i].gapBefore q ≤ 4 then
          State.arriveTimes i w (s.sources[i].gapBefore q)
            (s.setSource i (s.sources[i].countGap (s.sources[i].gapBefore q) true))
        else s.setSource i (s.sources[i].countGap (s.sources[i].gapBefore q) false)
      | none => s.setSource i (s.sources[i].countGap (s.sources[i].gapBefore q) false)) =
        (s.setSource i (s.sources[i].countGap (s.sources[i].gapBefore q)
          (!(s.sources[i].fillsGap q).isEmpty))).arriveAll i (s.sources[i].fillsGap q) := by
    unfold Source.fillsGap
    rcases s.sources[i].lastWritten with _ | w
    · rfl
    · dsimp only
      by_cases short : 1 ≤ s.sources[i].gapBefore q ∧ s.sources[i].gapBefore q ≤ 4
      · have some : (List.replicate (s.sources[i].gapBefore q) w).isEmpty = false := by
          rw [List.isEmpty_eq_false_iff, Ne, List.replicate_eq_nil_iff]; omega
        rw [if_pos short, if_pos short, some, State.arriveTimes_eq]
        rfl
      · rw [if_neg short, if_neg short]
        rfl
  dsimp only
  rw [State.arriveAll_snoc]
  exact congrArg (fun t : State =>
    (t.arrive i f).setSource i { (t.arrive i f).sources[i] with lastSeq := some q }) filled

theorem State.arriveAll_keeps (i : SourceId) (fs : List Frame) (s : State) :
    let x := s.sources[i]
    let z := (s.arriveAll i fs).sources[i]
    z.channels = x.channels ∧ z.adopted = x.adopted ∧ z.assembly = x.assembly ∧ z.prevBlock = x.prevBlock ∧
      z.pendingFrame = x.pendingFrame := by
  by_cases standby : s.hub.standby.power = .standby
  · rw [State.arriveAll_of_standby standby]
    exact ⟨rfl, rfl, rfl, rfl, rfl⟩
  · rw [State.arriveAll_same standby]
    exact Source.arrivesAll_keeps fs _

theorem State.writeCompleted_keeps (i : SourceId) (q : Nat) (f : Frame) (s : State) :
    let x := s.sources[i]
    let z := (s.writeCompleted i q f).sources[i]
    z.adopted = x.adopted ∧ z.assembly = x.assembly ∧ z.prevBlock = x.prevBlock ∧ z.pendingFrame = x.pendingFrame := by
  have kept := State.arriveAll_keeps i (s.sources[i].fillsGap q ++ [f])
    (s.setSource i (s.sources[i].countGap (s.sources[i].gapBefore q) (!(s.sources[i].fillsGap q).isEmpty)))
  rw [State.setSource_same] at kept
  obtain ⟨-, kept⟩ := kept
  dsimp only at kept ⊢
  rw [State.writeCompleted_eq, State.setSource_same]
  exact kept

/-- R7, R8: a packet joined to a pending frame, which it completes or which it displaces. -/
theorem State.assemble_eq (i : SourceId) (q : Nat) (groupA : Bool) (p : Part) (s : State) :
    s.assemble i q groupA p =
      match s.sources[i].pendingFrame with
      | none => s.setSource i { s.sources[i] with pendingFrame := some (startPending q groupA p) }
      | some f =>
        let t := State.writeCompleted i f.seq (if f.seq = q then (f.add groupA p).frame else f.frame)
          (s.setSource i { s.sources[i] with pendingFrame := none })
        t.setSource i
          { t.sources[i] with pendingFrame := if f.seq = q then none else some (startPending q groupA p) } := by
  unfold State.assemble
  dsimp only
  rcases s.sources[i].pendingFrame with _ | f
  · rfl
  · dsimp only
    by_cases same : f.seq = q
    · rw [if_pos same, if_pos same, if_pos same, same]
      obtain ⟨-, -, -, pending⟩ := State.writeCompleted_keeps i q (f.add groupA p).frame
        (s.setSource i { s.sources[i] with pendingFrame := none })
      rw [State.setSource_same] at pending
      generalize State.writeCompleted i q (f.add groupA p).frame _ = t at pending
      have unchanged : ({ t.sources[i] with pendingFrame := none } : Source) = t.sources[i] := by
        dsimp only at pending
        rw [← pending]
      rw [unchanged, State.setSource_self]
    · rw [if_neg same, if_neg same, if_neg same]

/-- R8: the gap before a frame, from where the frame lies on the cycle 1 to 255. -/
theorem Source.gapBefore_of {x : Source} {q gap : Nat}
    (lies : (x.lastSeq = none ∧ gap = 0) ∨
      ∃ l, x.lastSeq = some l ∧ 1 ≤ l ∧ l ≤ 255 ∧ gap ≤ 254 ∧ q = (l + gap) % 255 + 1) : x.gapBefore q = gap := by
  unfold Source.gapBefore sequenceGap
  rcases lies with ⟨none, zero⟩ | ⟨l, last, low, high, short, lies⟩
  · rw [none, zero]
  · rw [last]
    dsimp only
    omega

/-- R8, R21: a completed frame: the record that the gap and the frame leave, and the frames' own reactions. -/
theorem State.writeCompleted_effect {i : SourceId} (q : Nat) (f : Frame) (s : State) :
    let x := s.sources[i]
    let y := x.countGap (x.gapBefore q) (!(x.fillsGap q).isEmpty)
    let u := (s.setSource i y).arriveAll i (x.fillsGap q ++ [f])
    (s.hub.standby.power = .standby →
      (s.writeCompleted i q f).sources[i] = { y with lastSeq := some q } ∧ (s.writeCompleted i q f).hub = s.hub) ∧
    (s.hub.standby.power ≠ .standby →
      (s.writeCompleted i q f).sources[i] = { y.arrivesAll (x.fillsGap q ++ [f]) with lastSeq := some q } ∧
        (s.writeCompleted i q f).hub = u.hub) := by
  dsimp only
  rw [State.writeCompleted_eq, State.setSource_same]
  generalize s.sources[i].fillsGap q ++ [f] = fs
  generalize s.sources[i].countGap _ _ = y
  refine ⟨fun standby => ?_, fun awake => ?_⟩
  · rw [State.arriveAll_of_standby (s := s.setSource i y) standby, State.setSource_same]
    exact ⟨rfl, rfl⟩
  · rw [State.arriveAll_same (s := s.setSource i y) awake, State.setSource_same]
    exact ⟨rfl, rfl⟩

theorem State.arrive_keepsPosted (i : SourceId) (f : Frame) (s : State) : s.hub.keepsPosted (s.arrive i f).hub := by
  by_cases awake : s.hub.standby.power = .standby
  · rw [State.arrive_of_standby awake]
    exact Hub.keepsPosted_of_eq rfl
  · obtain ⟨still, prefills, appears⟩ := State.arrive_hub (i := i) (f := f) awake
    cases state : s.sources[i].state with
    | running => exact Hub.keepsPosted_of_eq (by rw [still (.inl state)])
    | unusable reason => exact Hub.keepsPosted_of_eq (by rw [still (.inr ⟨reason, state⟩)])
    | prefill =>
      by_cases running : (s.sources[i].arrives f).state = .running
      · obtain ⟨ns, entry, -⟩ := (prefills state).1 running
        exact ⟨ns, entry.1⟩
      · exact Hub.keepsPosted_of_eq (by rw [(prefills state).2 running])
    | absent =>
      by_cases running : (s.sources[i].arrives f).state = .running
      · obtain ⟨ns, entry, -⟩ := (appears state).1 running
        exact ⟨ns, entry.1⟩
      · exact ⟨_, congrArg Hub.outbox ((appears state).2 running)⟩

theorem State.arriveAll_keepsPosted (i : SourceId) (fs : List Frame) (s : State) :
    s.hub.keepsPosted (s.arriveAll i fs).hub := by
  induction fs using List.reverseRecOn with
  | nil => exact Hub.keepsPosted_of_eq rfl
  | append_singleton fs f ih =>
    rw [State.arriveAll_snoc]
    exact ih.trans (State.arrive_keepsPosted i f _)

/-- What the assembly of a packet leaves of the record, whichever the case. -/
theorem State.assemble_keeps (i : SourceId) (q : Nat) (groupA : Bool) (p : Part) (s : State) :
    let x := s.sources[i]
    let t := s.assemble i q groupA p
    (t.sources[i].adopted = x.adopted ∧ t.sources[i].assembly = x.assembly ∧ t.sources[i].prevBlock = x.prevBlock) ∧
      s.hub.keepsPosted t.hub ∧ t.hub.standby = s.hub.standby ∧
      ∀ j : SourceId, j ≠ i → t.sources[j] = s.sources[j] := by
  dsimp only
  rw [State.assemble_eq]
  rcases s.sources[i].pendingFrame with _ | f
  · dsimp only
    rw [State.setSource_same]
    exact ⟨⟨rfl, rfl, rfl⟩, Hub.keepsPosted_of_eq rfl, rfl, fun j other => State.setSource_other _ _ other⟩
  · dsimp only
    generalize (if f.seq = q then (f.add groupA p).frame else f.frame) = made
    let a := s.setSource i { s.sources[i] with pendingFrame := none }
    have held : a.sources[i] = { s.sources[i] with pendingFrame := none } := State.setSource_same i _ s
    obtain ⟨adopted, assembly, block, -⟩ := State.writeCompleted_keeps i f.seq made a
    rw [held] at adopted assembly block
    rw [State.setSource_same]
    refine ⟨⟨adopted, assembly, block⟩, ?_, ?_, fun j other => ?_⟩
    · change s.hub.keepsPosted (a.writeCompleted i f.seq made).hub
      rw [State.writeCompleted_eq]
      exact State.arriveAll_keepsPosted i _ _
    · change (a.writeCompleted i f.seq made).hub.standby = s.hub.standby
      rw [State.writeCompleted_eq]
      exact State.arriveAll_standby i _ _
    · rw [State.setSource_other _ _ other, State.writeCompleted_eq]
      dsimp only
      rw [State.setSource_other _ _ other, State.arriveAll_other _ _ other, State.setSource_other _ _ other,
        State.setSource_other _ _ other]

end Sys2Proof.Machine
end

section
/-! SUPPORT. Packets (O27): the status bit of a packet, the mask of its group and its acceptance. -/

namespace Sys2Proof.Machine

/-! ### The status bit of a packet (R17, R18) -/

/-- R17: the block under assembly after a packet, `first` saying whether it is of group A. -/
def StatusAssembly.after (first flag bit : Bool) (a : StatusAssembly) : StatusAssembly :=
  match first, flag, a with
  | false, _, before => before
  | true, true, _ => .collecting 1 (statusBit 0 bit)
  | true, false, .waiting => .waiting
  | true, false, .collecting held bits =>
    if 160 ≤ held + 1 then .waiting else .collecting (held + 1) (bits ||| statusBit held bit)

/-- R17: the block that a packet completes. -/
def StatusAssembly.block (first flag bit : Bool) (a : StatusAssembly) : Option StatusBlock :=
  match first, flag, a with
  | true, false, .collecting held bits => if 160 ≤ held + 1 then some (bits ||| statusBit held bit) else none
  | _, _, _ => none

/-- R18, R19: the record that a packet brings to adoption, where it differs from the one adopted. -/
def Source.adoption (first flag bit : Bool) (x : Source) : Option StatusRecord :=
  let block := x.assembly.block first flag bit
  (block.bind recordOf).filter fun r => decide (block = x.prevBlock ∧ x.adopted ≠ some r)

/-- R17, R18: the record of a source after a packet's status bit, where no record is adopted. -/
def Source.signalled (first flag bit : Bool) (x : Source) : Source :=
  let block := x.assembly.block first flag bit
  let record := block.bind recordOf
  { x with
    assembly := x.assembly.after first flag bit
    prevBlock := if record.isSome then block else x.prevBlock
    counters :=
      { x.counters with
        blocksFailed :=
          if (first && flag && decide (x.assembly ≠ .waiting)) || (block.isSome && record.isNone) then
            bump x.counters.blocksFailed
          else x.counters.blocksFailed } }

theorem Source.signalled_second (flag bit : Bool) (x : Source) : x.signalled false flag bit = x := rfl

theorem Source.signalled_first (flag bit : Bool) (x : Source) : x.signalled true flag bit = x.assembles bit flag := by
  unfold Source.signalled Source.assembles StatusAssembly.after StatusAssembly.block
  rcases assembly : x.assembly with _ | ⟨held, bits⟩ <;> cases flag
  · dsimp only
    rw [← assembly]
    rfl
  · rfl
  · dsimp only
    by_cases full : 160 ≤ held + 1
    · rw [if_pos full, if_pos full, if_pos full, Option.bind_some]
      rcases recordOf (bits ||| statusBit held bit) with _ | r
      · rfl
      · rfl
    · rw [if_neg full, if_neg full, if_neg full]
      rfl
  · rfl

theorem Source.block_first (flag bit : Bool) (x : Source) : x.assembly.block true flag bit = x.completed bit flag := by
  unfold StatusAssembly.block Source.completed
  rcases x.assembly with _ | ⟨held, bits⟩ <;> cases flag <;> rfl

theorem Source.adoption_first {flag bit : Bool} {x : Source} {r : StatusRecord} :
    x.adoption true flag bit = some r ↔ x.confirmed bit flag = some r ∧ x.adopted ≠ some r := by
  unfold Source.adoption Source.confirmed
  rw [Source.block_first]
  rcases x.completed bit flag with _ | b
  · simp
  · simp only [Option.bind_some, Option.filter_eq_some_iff, decide_eq_true_eq]
    by_cases again : x.prevBlock = some b
    · simp [again]
    · simp [again, Ne.symm again]

/-- R17: a packet's status bit is collected, where the packet is of group A. -/
def State.signal (i : SourceId) (first flag bit : Bool) (s : State) : State :=
  if first then s.collect i bit flag else s

theorem State.signal_second (i : SourceId) (flag bit : Bool) (s : State) : s.signal i false flag bit = s := rfl

theorem State.signal_first (i : SourceId) (flag bit : Bool) (s : State) :
    s.signal i true flag bit = s.collect i bit flag := rfl

/-- R17 to R19, R55, R191: a packet's status bit, where no record is adopted. -/
theorem State.signal_unadopted {i : SourceId} {first flag bit : Bool} {s : State}
    (unadopted : s.sources[i].adoption first flag bit = none) :
    (s.signal i first flag bit).sources[i] = s.sources[i].signalled first flag bit ∧
      (s.hub.standby.power ≠ .standby ∨ s.sources[i].assembly.block first flag bit = none →
        (s.signal i first flag bit).hub = s.hub) := by
  cases first with
  | false => exact ⟨rfl, fun _ => rfl⟩
  | true =>
    have known : ∀ r, s.sources[i].confirmed bit flag = some r → s.sources[i].adopted = some r := fun r e =>
      Classical.byContradiction fun n => by
        rw [Source.adoption_first.2 ⟨e, n⟩] at unadopted; cases unadopted
    refine ⟨?_, fun unheard => ?_⟩
    · rw [Source.signalled_first]
      refine (State.collect_same i bit flag s).trans ?_
      unfold Source.collects
      rcases confirmed : s.sources[i].confirmed bit flag with _ | r
      · rfl
      · exact if_pos (known r confirmed)
    · rcases unheard with awake | incomplete
      · exact (State.collect_hub_of_awake bit flag awake).1 known
      · rw [Source.block_first] at incomplete
        change (s.collect i bit flag).hub = s.hub
        have none : s.sources[i].confirmed bit flag = none := by
          unfold Source.confirmed
          rw [incomplete]
          rfl
        rw [State.collect_eq, none]
        rfl

/-- R18, R19: a packet's status bit that brings a record to adoption. -/
theorem State.signal_adopted {i : SourceId} {first flag bit : Bool} {s : State} {r : StatusRecord}
    (adopts : s.sources[i].adoption first flag bit = some r) :
    let z := (s.signal i first flag bit).sources[i]
    (z.adopted = some r ∧ z.assembly = (s.sources[i].signalled first flag bit).assembly ∧
        z.prevBlock = (s.sources[i].signalled first flag bit).prevBlock) ∧
      Hub.hasPosted (sourceStatusNotice i r) s.hub (s.signal i first flag bit).hub := by
  cases first with
  | false => cases adopts
  | true =>
    obtain ⟨confirmed, differs⟩ := Source.adoption_first.1 adopts
    dsimp only
    rw [State.signal_first]
    obtain ⟨assembly, block, -⟩ := Source.collects_keeps bit flag s.sources[i]
    rw [State.collect_same, Source.signalled_first, assembly, block]
    refine ⟨⟨?_, rfl, rfl⟩, ?_⟩
    · obtain ⟨-, -, -, -, -, -, -, -, adopted, -⟩ := Source.collects_collected bit flag s.sources[i]
      obtain ⟨b, completes, record, again⟩ := Source.confirmed_iff.1 confirmed
      exact adopted b r ⟨Source.completed_iff.1 completes, record, again⟩
    · obtain ⟨h, hub, -, reacts⟩ := State.collect_hub i bit flag s
      obtain ⟨stays, departs⟩ := reacts r confirmed differs
      rw [confirmed] at hub
      rw [hub]
      have told : Hub.hasPosted (sourceStatusNotice i r) s.hub h := by
        by_cases leaves : s.sources[i].state = .running ∧ playable (some r) = false
        · obtain ⟨ns, departure, notice⟩ := departs leaves.1 leaves.2
          exact ⟨ns, departure.1, notice⟩
        · have stay : s.sources[i].state ≠ .running ∨ playable (some r) = true := by
            rcases Decidable.not_and_iff_not_or_not.1 leaves with out | plays
            · exact .inl out
            · exact .inr (by simpa using plays)
          exact ⟨_, congrArg Hub.outbox (stays stay), List.mem_cons_self⟩
      obtain ⟨ns, reported⟩ := Hub.wakeReport_told i r h
      exact told.after ⟨ns, congrArg Hub.outbox reported⟩

theorem Source.collects_pendingFrame (bit flag : Bool) (x : Source) :
    (x.collects bit flag).pendingFrame = x.pendingFrame := by
  obtain ⟨-, -, -, -, rest⟩ := Source.assembles_keeps bit flag x
  have base : (x.assembles bit flag).pendingFrame = x.pendingFrame := by rw [rest]
  have adopts (r : StatusRecord) (y : Source) : (y.adoptsRecord r).pendingFrame = y.pendingFrame := by
    unfold Source.adoptsRecord
    split
    · rfl
    · next moves =>
      obtain ⟨absent, -⟩ := (adoptedState_cases r y).resolve_left moves
      generalize adoptedState r y = st at absent
      cases st with
      | absent => exact absurd rfl absent
      | running => rfl
      | prefill => rfl
      | unusable reason => rfl
  unfold Source.collects
  split
  · exact base
  · split
    · exact base
    · exact (adopts _ _).trans base

theorem Source.collects_out {bit flag : Bool} {x : Source} (out : x.state ≠ .running) :
    (x.collects bit flag).state ≠ .running := by
  obtain ⟨known, adopts⟩ := Source.collects_state bit flag x
  by_cases new : ∃ r, x.confirmed bit flag = some r ∧ x.adopted ≠ some r
  · obtain ⟨r, e, n⟩ := new
    rw [adopts r e n]
    rcases adoptedState_cases r x with same | ⟨-, out'⟩
    · rw [same]; exact out
    · exact out'
  · rw [known fun r e => Classical.byContradiction fun n => new ⟨r, e, n⟩]
    exact out

/-- R17 to R19, R191: what a packet's status bit leaves of the sources and the blocks, its source being out of RUNNING. -/
theorem State.signal_out {i : SourceId} (first flag bit : Bool) {s : State} (out : s.sources[i].state ≠ .running) :
    (s.signal i first flag bit).sources[i].state ≠ .running ∧
      ∃ ns, (s.signal i first flag bit).hub =
        { s.hub with standby := (s.signal i first flag bit).hub.standby, outbox := s.hub.outbox ++ ns } := by
  cases first with
  | false => exact ⟨out, [], by rw [List.append_nil]; rfl⟩
  | true =>
    rw [State.signal_first]
    refine ⟨?_, ?_⟩
    · rw [State.collect_same]
      exact Source.collects_out out
    · obtain ⟨h, hub, same, reacts⟩ := State.collect_hub i bit flag s
      have told : ∃ ns, h = { s.hub with outbox := s.hub.outbox ++ ns } := by
        by_cases new : ∃ r, s.sources[i].confirmed bit flag = some r ∧ s.sources[i].adopted ≠ some r
        · obtain ⟨r, e, n⟩ := new
          exact ⟨_, (reacts r e n).1 (.inl out)⟩
        · exact ⟨[], by rw [same fun r e => Classical.byContradiction fun n => new ⟨r, e, n⟩, List.append_nil]⟩
      obtain ⟨ns, told⟩ := told
      split at hub
      · exact ⟨ns, by rw [hub, told]⟩
      · next r _ =>
        obtain ⟨ms, reported⟩ := Hub.wakeReport_told i r h
        refine ⟨ns ++ ms, ?_⟩
        rw [hub, reported, told, List.append_assoc]

theorem State.signal_keeps (i : SourceId) (first flag bit : Bool) (s : State) :
    (s.signal i first flag bit).hub.standby.power = s.hub.standby.power ∧
      (s.hub.standby.power ≠ .standby → (s.signal i first flag bit).hub.standby = s.hub.standby) ∧
      (∀ j : SourceId, j ≠ i → (s.signal i first flag bit).sources[j] = s.sources[j]) ∧
      (s.signal i first flag bit).sources[i].pendingFrame = s.sources[i].pendingFrame := by
  cases first with
  | false => exact ⟨rfl, fun _ => rfl, fun _ _ => rfl, rfl⟩
  | true =>
    rw [State.signal_first]
    obtain ⟨power, -, standby⟩ := State.collect_standby i bit flag s
    refine ⟨power, standby, fun j other => State.collect_other _ _ _ other, ?_⟩
    rw [State.collect_same]
    exact Source.collects_pendingFrame bit flag _

theorem Hub.tookDeparture.running {h g : Hub} {src src' : Vector Source 8} {i : SourceId} {ns : List Notice}
    (departure : h.tookDeparture g src i ns) (same : ∀ j : SourceId, src'[j].state = .running ↔ src[j].state = .running) :
    h.tookDeparture g src' i ns := by
  unfold Hub.tookDeparture at *
  simp only [ne_eq, same]
  exact departure

/-! ### The mask of a group (R6) -/

/-- R6: the record with the mask of a group held. -/
def Source.masked (first : Bool) (mask : BitVec 4) (x : Source) : Source :=
  { x with maskA := if first then mask else x.maskA, maskB := if first then x.maskB else mask }

/-- R6: the record that a mask with another channel set restarts. -/
def Source.restarts (first : Bool) (mask : BitVec 4) (x : Source) : Source :=
  let y := x.masked first mask
  let wasRunning := decide (x.state = .running)
  { y with
    state := if wasRunning then .prefill else x.state
    channels := unionOf y.maskA y.maskB, lastSeq := none, lastWritten := none, buffer := [], pendingFrame := none
    corrections := if wasRunning then 0 else x.corrections, repeatHead := !wasRunning && x.repeatHead
    lastRead := if wasRunning then none else x.lastRead }

theorem Source.restarts_eq (first : Bool) (mask : BitVec 4) (x : Source) :
    let z : Source :=
      { x.masked first mask with
        channels := unionOf (x.masked first mask).maskA (x.masked first mask).maskB
        pendingFrame := none, lastSeq := none, lastWritten := none, buffer := [] }
    (if x.isRunning then z.enter .prefill else z) = x.restarts first mask := by
  unfold Source.restarts Source.enter Source.masked
  by_cases running : x.state = .running <;> simp [Source.isRunning, running]

theorem State.holdMask_eq (i : SourceId) (first : Bool) (mask : BitVec 4) (s : State) :
    let x := s.sources[i]
    let set := unionOf (x.masked first mask).maskA (x.masked first mask).maskB
    s.holdMask i first mask =
      if set = x.channels then s.setSource i (x.masked first mask) else s.changeSource i (x.restarts first mask) := by
  have masks : (if first then { s.sources[i] with maskA := mask } else { s.sources[i] with maskB := mask }) =
      s.sources[i].masked first mask := by cases first <;> rfl
  unfold State.holdMask
  dsimp only
  rw [masks, ← Source.restarts_eq]

theorem Source.restarts_out (first : Bool) (mask : BitVec 4) (x : Source) : (x.restarts first mask).state ≠ .running := by
  change (if decide (x.state = .running) then SourceState.prefill else x.state) ≠ .running
  by_cases running : x.state = .running <;> simp [running]

/-! ### The acceptance of a packet (R6, R7) -/

theorem State.testHeader_eq {i : SourceId} {head : PacketHeader} {w0 w1 w2 w3 : BitVec 26} {s : State}
    (selected : head.group = s.sources[i].groupA ∨ head.group = s.sources[i].groupB) (counts : head.seq ≠ 0) :
    let first := decide (head.group = s.sources[i].groupA)
    let part := partOf head.mask w0 w1 w2 w3
    let a := s.holdMask i first head.mask
    s.testHeader i head w0 w1 w2 w3 =
      if a.sources[i].isDuplicate head.seq first then a.setSource i a.sources[i].reject
      else State.assemble i head.seq first part (a.signal i first (w0.getLsbD 25) (w0.getLsbD 24)) := by
  unfold State.testHeader
  dsimp only
  rw [if_pos selected, if_neg counts]
  rfl

/-- R6, R7: a packet whose mask makes another channel set starts a new frame in a restarted intake. -/
theorem State.testHeader_restarts {i : SourceId} {head : PacketHeader} {w0 w1 w2 w3 : BitVec 26} {s : State}
    (selected : head.group = s.sources[i].groupA ∨ head.group = s.sources[i].groupB) (counts : head.seq ≠ 0)
    (new : let m := s.sources[i].masked (decide (head.group = s.sources[i].groupA)) head.mask
      unionOf m.maskA m.maskB ≠ s.sources[i].channels) :
    let first := decide (head.group = s.sources[i].groupA)
    let b := (s.changeSource i (s.sources[i].restarts first head.mask)).signal i first (w0.getLsbD 25) (w0.getLsbD 24)
    s.testHeader i head w0 w1 w2 w3 =
      b.setSource i
        { b.sources[i] with
          pendingFrame := some (startPending head.seq first (partOf head.mask w0 w1 w2 w3)) } := by
  have selects := State.testHeader_eq (w0 := w0) (w1 := w1) (w2 := w2) (w3 := w3) selected counts
  dsimp only at new selects ⊢
  rw [selects, State.holdMask_eq]
  rw [if_neg new]
  generalize decide (head.group = s.sources[i].groupA) = first
  have held : (s.changeSource i (s.sources[i].restarts first head.mask)).sources[i] =
      s.sources[i].restarts first head.mask := State.changeSource_same i _ s
  obtain ⟨-, -, -, pending⟩ := State.signal_keeps i first (w0.getLsbD 25) (w0.getLsbD 24)
    (s.changeSource i (s.sources[i].restarts first head.mask))
  rw [held] at pending ⊢
  rw [if_neg (by exact Bool.false_ne_true), State.assemble_eq, pending]
  rfl

/-- R6, R54, R55, R72: what a restarted intake leads to in the other blocks, the packet's status bit collected after it. -/
theorem State.restarts_reacts {i : SourceId} {first : Bool} {mask : BitVec 4} (flag bit : Bool) {s : State}
    (none : s.hub.outbox = []) (new : (s.sources[i].restarts first mask).channels ≠ s.sources[i].channels) :
    let y := s.sources[i].restarts first mask
    let b := (s.changeSource i y).signal i first flag bit
    sourceStateNotice i y ∈ b.hub.outbox ∧
    (s.sources[i].state = .running → s.hub.decoder.source ≠ some i ∨ s.hub.zones.main.current = some i →
      s.hub.tookDeparture b.hub (s.changeSource i y).sources i b.hub.outbox) ∧
    (s.sources[i].state ≠ .running → s.hub.decoder.source ≠ some i → s.hub.standby.power ≠ .standby →
      { b.hub with outbox := [] } = s.hub) ∧
    (s.hub.decoder.source = some i → s.hub.decoder.itemPending = false →
      s.hub.zones.main.state = .off ∨ s.hub.zones.main.state = .waiting ∨
          (s.sources[i].state = .running ∧ s.hub.zones.main.current = some i ∧
            (s.hub.zones.main.state = .playing ∨ s.hub.zones.main.state = .fadingIn)) →
        b.hub.decoder.derived = s.hub.decoder.tablePair y.channels ∧
          b.hub.decoder.active = s.hub.decoder.tablePair y.channels ∧ b.hub.decoder.itemPending = false) := by
  have gone := Source.restarts_out first mask s.sources[i]
  have stays (out : s.sources[i].state ≠ .running) : (s.sources[i].restarts first mask).state = s.sources[i].state :=
    if_neg (by simpa using out)
  dsimp only
  generalize s.sources[i].restarts first mask = y at new gone stays
  have held : (s.changeSource i y).sources[i] = y := State.changeSource_same i y s
  obtain ⟨-, ns, hub⟩ := State.signal_out first flag bit (i := i) (s := s.changeSource i y) (by rw [held]; exact gone)
  have awake := (State.signal_keeps i first flag bit (s.changeSource i y)).2.1
  obtain ⟨ms, told, notice⟩ := State.changeSource_told gone (.inr new)
  rw [none, List.nil_append] at told
  refine ⟨?_, fun running own => ?_, fun out other active => ?_, fun source item silent => ?_⟩
  · rw [hub, told]
    exact List.mem_append_left _ notice
  · obtain ⟨ms', told', departure⟩ := State.changeSource_departed_channels running gone new own
    rw [none, List.nil_append] at told'
    rw [hub, told']
    exact departure.alike rfl rfl fun n m => List.mem_append_left _ m
  · obtain ⟨ms', still⟩ := (State.changeSource_still out (stays out)).1 other
    rw [hub, awake (by rw [still]; exact active), still]
    rw [← none]
  · have now : (s.sources.set i y)[i].isRunning = false := by simpa [Source.isRunning] using gone
    have pair := Hub.sourceChanged_pair (was := s.sources[i].isRunning) (h := post (sourceStateNotice i y) s.hub) now
      source item (silent.imp_right fun s => s.imp_right fun s => ⟨Source.isRunning_iff.2 s.1, s.2⟩)
    have set : (s.sources.set i y)[i].channels = y.channels := by simp
    dsimp only at pair
    rw [set] at pair
    obtain ⟨derived, active, item, -⟩ := pair
    rw [hub, State.changeSource_hub_channels new]
    exact ⟨derived, active, item⟩

/-- R7: a packet of the channel set there is, a duplicate or not. -/
theorem State.testHeader_joins {i : SourceId} {head : PacketHeader} {w0 w1 w2 w3 : BitVec 26} {s : State}
    (selected : head.group = s.sources[i].groupA ∨ head.group = s.sources[i].groupB) (counts : head.seq ≠ 0)
    (same : let m := s.sources[i].masked (decide (head.group = s.sources[i].groupA)) head.mask
      unionOf m.maskA m.maskB = s.sources[i].channels) :
    let first := decide (head.group = s.sources[i].groupA)
    let m := s.sources[i].masked first head.mask
    s.testHeader i head w0 w1 w2 w3 =
      if s.sources[i].isDuplicate head.seq first then s.setSource i m.reject
      else
        State.assemble i head.seq first (partOf head.mask w0 w1 w2 w3)
          ((s.setSource i m).signal i first (w0.getLsbD 25) (w0.getLsbD 24)) := by
  have selects := State.testHeader_eq (w0 := w0) (w1 := w1) (w2 := w2) (w3 := w3) selected counts
  dsimp only at same selects ⊢
  rw [selects, State.holdMask_eq]
  rw [if_pos same, State.setSource_same, State.setSource_setSource]
  rfl

theorem Source.isDuplicate_iff {x : Source} {q : Nat} {first : Bool} :
    x.isDuplicate q first = true ↔
      x.lastSeq = some q ∨ ∃ f, x.pendingFrame = some f ∧ f.seq = q ∧
        (if first then f.partA else f.partB).isSome = true := by
  unfold Source.isDuplicate PendingFrame.has
  rcases x.pendingFrame with _ | f
  · simp
  · cases first <;> simp

/-- R7: the frame that a packet completes. -/
theorem PendingFrame.completed_eq (q : Nat) (first : Bool) (p : Part) (f : PendingFrame) :
    let a := (if f.seq = q && first then some p else f.partA).getD ⟨0, 0, 0, 0⟩
    let b := (if f.seq = q && !first then some p else f.partB).getD ⟨0, 0, 0, 0⟩
    (if f.seq = q then (f.add first p).frame else f.frame) = ⟨a.s0, a.s1, a.s2, a.s3, b.s0, b.s1, b.s2, b.s3⟩ := by
  by_cases same : f.seq = q
  · cases first <;> simp [same, PendingFrame.add, PendingFrame.frame]
  · simp [same, PendingFrame.frame]

/-- R7, R8, R21: a packet joined to a pending frame. -/
theorem State.assemble_pending {i : SourceId} {q : Nat} {first : Bool} {p : Part} {s : State} {f : PendingFrame}
    (pending : s.sources[i].pendingFrame = some f) :
    let x := s.sources[i]
    let fill := x.fillsGap f.seq
    let made := if f.seq = q then (f.add first p).frame else f.frame
    let c := ({ x with pendingFrame := none } : Source).countGap (x.gapBefore f.seq) (!fill.isEmpty)
    let left := if f.seq = q then none else some (startPending q first p)
    let t := s.assemble i q first p
    (s.hub.standby.power = .standby →
      t.sources[i] = { c with lastSeq := some f.seq, pendingFrame := left } ∧ t.hub = s.hub) ∧
    (s.hub.standby.power ≠ .standby →
      t.sources[i] = { c.arrivesAll (fill ++ [made]) with lastSeq := some f.seq, pendingFrame := left } ∧
        t.hub = ((s.setSource i c).arriveAll i (fill ++ [made])).hub) := by
  dsimp only
  rw [State.assemble_eq, pending]
  dsimp only
  generalize (if f.seq = q then (f.add first p).frame else f.frame) = made
  generalize (if f.seq = q then none else some (startPending q first p)) = left
  let a := s.setSource i { s.sources[i] with pendingFrame := none }
  have held : a.sources[i] = { s.sources[i] with pendingFrame := none } := State.setSource_same i _ s
  have effect := State.writeCompleted_effect (i := i) f.seq made a
  rw [held] at effect
  dsimp only at effect
  obtain ⟨asleep, awake⟩ := effect
  rw [State.setSource_same]
  refine ⟨fun standby => ?_, fun active => ?_⟩
  · obtain ⟨record, hub⟩ := asleep standby
    exact ⟨congrArg (fun x : Source => { x with pendingFrame := left }) record, hub⟩
  · obtain ⟨record, hub⟩ := awake active
    refine ⟨congrArg (fun x : Source => { x with pendingFrame := left }) record, hub.trans ?_⟩
    rw [show ∀ y, a.setSource i y = s.setSource i y from fun y => State.setSource_setSource i _ y s]
    rfl

/-- What a packet that has passed its checks leaves. -/
theorem State.testHeader_keeps (i : SourceId) (head : PacketHeader) (w0 w1 w2 w3 : BitVec 26) (s : State) :
    (s.testHeader i head w0 w1 w2 w3).hub.standby.power = s.hub.standby.power ∧
      ∀ j : SourceId, j ≠ i → (s.testHeader i head w0 w1 w2 w3).sources[j] = s.sources[j] := by
  by_cases accepted : (head.group = s.sources[i].groupA ∨ head.group = s.sources[i].groupB) ∧ head.seq ≠ 0
  · obtain ⟨selected, counts⟩ := accepted
    have selects := State.testHeader_eq (w0 := w0) (w1 := w1) (w2 := w2) (w3 := w3) selected counts
    dsimp only at selects
    rw [selects]
    generalize decide (head.group = s.sources[i].groupA) = first
    have holds : (s.holdMask i first head.mask).hub.standby = s.hub.standby ∧
        ∀ j : SourceId, j ≠ i → (s.holdMask i first head.mask).sources[j] = s.sources[j] := by
      rw [State.holdMask_eq]
      split
      · exact ⟨rfl, fun j other => State.setSource_other _ _ other⟩
      · exact ⟨by simp, fun j other => State.changeSource_other _ _ other⟩
    generalize s.holdMask i first head.mask = a at holds
    obtain ⟨standby, others⟩ := holds
    split
    · exact ⟨congrArg Standby.power standby, fun j other => (State.setSource_other _ _ other).trans (others j other)⟩
    · obtain ⟨power, -, others', -⟩ := State.signal_keeps i first (w0.getLsbD 25) (w0.getLsbD 24) a
      obtain ⟨-, -, standby', others''⟩ := State.assemble_keeps i head.seq first (partOf head.mask w0 w1 w2 w3)
        (a.signal i first (w0.getLsbD 25) (w0.getLsbD 24))
      exact ⟨by rw [standby', power, standby], fun j other =>
        (others'' j other).trans ((others' j other).trans (others j other))⟩
  · unfold State.testHeader
    dsimp only
    split
    · next selected =>
      rw [if_pos (Classical.byContradiction fun counts => accepted ⟨selected, counts⟩)]
      exact ⟨rfl, fun j other => State.setSource_other _ _ other⟩
    · exact ⟨rfl, fun _ _ => rfl⟩

/-! ### PACKET_ARRIVAL (R5) -/

/-- R5: the record with the corrected words of a packet counted. -/
def Source.corrects (words : List CodeWord) (x : Source) : Source :=
  { x with
    counters :=
      { x.counters with
        wordsCorrected := bumpBy x.counters.wordsCorrected (correctedCount (words.map checkWord)) } }

theorem State.packet_of_ignored {i : SourceId} {words : List CodeWord} {s : State}
    (ignored : s.hub.inputIgnored i = true) : s.packet i words = s := if_pos ignored

/-- R5: a packet whose five words pass their checks. -/
theorem State.packet_of_words {i : SourceId} {words : List CodeWord} {head w0 w1 w2 w3 : BitVec 26} {s : State}
    (heard : s.hub.inputIgnored i = false)
    (passes : words.map (fun w => (checkWord w).data?) = [some head, some w0, some w1, some w2, some w3]) :
    s.packet i words =
      (s.setSource i (s.sources[i].corrects words)).testHeader i (packetHeader head) w0 w1 w2 w3 := by
  have checks : (words.map checkWord).map WordCheck.data? = [some head, some w0, some w1, some w2, some w3] := by
    rw [List.map_map]; exact passes
  unfold State.packet
  rw [heard]
  dsimp only
  rw [checks]
  rfl

/-- R5: a packet that is short or long or holds a word that cannot be corrected. -/
theorem State.packet_of_bad {i : SourceId} {words : List CodeWord} {s : State} (heard : s.hub.inputIgnored i = false)
    (bad : words.length ≠ 5 ∨ ∃ w ∈ words, checkWord w = .uncorrectable) :
    s.packet i words = s.setSource i (s.sources[i].corrects words).reject := by
  have fails (head w0 w1 w2 w3 : BitVec 26) :
      (words.map checkWord).map WordCheck.data? ≠ [some head, some w0, some w1, some w2, some w3] := by
    intro passes
    rcases bad with short | ⟨w, held, broken⟩
    · have length := congrArg List.length passes
      simp only [List.length_map] at length
      exact short length
    · have lost : none ∈ (words.map checkWord).map WordCheck.data? :=
        List.mem_map.2 ⟨.uncorrectable, List.mem_map.2 ⟨w, held, broken⟩, rfl⟩
      rw [passes] at lost
      simp at lost
  unfold State.packet
  rw [heard]
  dsimp only
  rw [if_neg Bool.false_ne_true]
  split
  · next passes => exact absurd passes (fails _ _ _ _ _)
  · rfl

theorem State.packet_keeps (i : SourceId) (words : List CodeWord) (s : State) :
    (s.packet i words).hub.standby.power = s.hub.standby.power ∧
      ∀ j : SourceId, j ≠ i → (s.packet i words).sources[j] = s.sources[j] := by
  unfold State.packet
  dsimp only
  split
  · exact ⟨rfl, fun _ _ => rfl⟩
  · split
    · obtain ⟨power, others⟩ := State.testHeader_keeps i (packetHeader _) _ _ _ _ (s.setSource i _)
      exact ⟨power, fun j other => (others j other).trans (State.setSource_other _ _ other)⟩
    · exact ⟨rfl, fun j other => State.setSource_other _ _ other⟩

end Sys2Proof.Machine
end

section
/-! SUPPORT. Packets (O27): a completed frame written into the buffer of its source, and the settlement. -/

namespace Sys2Proof.Machine

/-! ### The gap and the frame in the record (R8) -/

theorem Source.arrivesAll_arrival (fs : List Frame) (f : Frame) (x : Source) :
    (x.arrivesAll (fs ++ [f])).arrival = true := by
  rw [Source.arrivesAll_snoc]
  exact (Source.arrives_keeps f _).2.2.2.2.2.2.2.2.1

theorem Source.arrivesAll_snoc_of_room {x : Source} (receives : x.state = .running ∨ x.state = .prefill) (fs : List Frame)
    (f : Frame) (room : x.buffer.length + fs.length < 64) :
    x.arrivesAll (fs ++ [f]) =
      { x with
        state := if x.state = .running ∨ x.prefill ≤ x.buffer.length + fs.length + 1 then .running else .prefill
        buffer := x.buffer ++ fs.map x.mask ++ [x.mask f], lastWritten := some (x.mask f)
        arrivals := x.arrivals + fs.length + 1, arrival := true } := by
  obtain ⟨w, b, is⟩ := Source.arrivesAll_of_room receives (fs ++ [f]) (by simp; omega)
  obtain ⟨w', b', before⟩ := Source.arrivesAll_of_room receives fs (by omega)
  have arrival := Source.arrivesAll_arrival fs f x
  have written : (x.arrivesAll (fs ++ [f])).lastWritten = some (x.mask f) := by
    have held : (x.arrivesAll fs).buffer.length < 64 := by rw [before]; simpa using room
    have state : (x.arrivesAll fs).state = .running ∨ (x.arrivesAll fs).state = .prefill := by
      rw [before]
      dsimp only
      split
      · exact .inl rfl
      · exact .inr rfl
    rw [Source.arrivesAll_snoc, Source.arrives_of_room f state held, before]
    rfl
  rw [is] at arrival written ⊢
  dsimp only at arrival written
  rw [arrival, written]
  simp [Nat.add_assoc]

theorem Source.arrivesAll_snoc_of_full {x : Source} (running : x.state = .running) (full : 64 ≤ x.buffer.length)
    (fs : List Frame) (f : Frame) :
    x.arrivesAll (fs ++ [f]) =
      { x with
        arrivals := x.arrivals + fs.length + 1, arrival := true
        counters := { x.counters with overruns := bumpBy x.counters.overruns (fs.length + 1) } } := by
  obtain ⟨b, is⟩ := Source.arrivesAll_of_full running full (fs ++ [f])
  have arrival := Source.arrivesAll_arrival fs f x
  rw [is] at arrival ⊢
  dsimp only at arrival
  rw [arrival, List.length_append, List.length_singleton, iterate_bump]
  rfl

theorem Source.arrivesAll_snoc_of_unusable {x : Source} {reason : UnusableReason} (unusable : x.state = .unusable reason)
    (fs : List Frame) (f : Frame) :
    x.arrivesAll (fs ++ [f]) = { x with arrivals := x.arrivals + fs.length + 1, arrival := true } := by
  obtain ⟨b, is⟩ := Source.arrivesAll_of_unusable unusable (fs ++ [f])
  have arrival := Source.arrivesAll_arrival fs f x
  rw [is] at arrival ⊢
  dsimp only at arrival
  rw [arrival, List.length_append, List.length_singleton]
  rfl

/-- R4, R8, R10, R56: a gap's frames and the frame after it, by the state of the source: the record, whose last sequence and
pending frame are set after them, and the other blocks. -/
theorem State.gapAndFrame {i : SourceId} {s : State} {c : Source} {raw fill : List Frame} {frame made : Frame} {q : Nat}
    {left : Option PendingFrame} (active : s.hub.standby.power ≠ .standby) (none : s.hub.outbox = [])
    (fills : fill = raw.map c.mask) (masks : made = c.mask frame) :
    let z : Source := { c.arrivesAll (raw ++ [frame]) with lastSeq := some q, pendingFrame := left }
    let g := ((s.setSource i c).arriveAll i (raw ++ [frame])).hub
    let v : Source :=
      { c with
        lastSeq := some q, pendingFrame := left, arrivals := c.arrivals + fill.length + 1, arrival := true }
    let w : Source := { v with buffer := c.buffer ++ fill ++ [made], lastWritten := some made }
    let same : Prop := ({ g with outbox := [] } : Hub) = s.hub ∧ g.outbox = []
    (c.state = .running → same ∧
      (c.buffer.length + fill.length < 64 → z = w) ∧
      (64 ≤ c.buffer.length →
        z = { v with counters := { c.counters with overruns := bumpBy c.counters.overruns (fill.length + 1) } })) ∧
    (c.state = .prefill → c.buffer.length + fill.length < 64 →
      (c.prefill ≤ c.buffer.length + fill.length + 1 →
        z = { w with state := .running } ∧ sourceStateNotice i z ∈ g.outbox ∧
          s.hub.tookEntry { g with outbox := [] } i g.outbox) ∧
      (c.buffer.length + fill.length + 1 < c.prefill → z = w ∧ same)) ∧
    (∀ reason, c.state = .unusable reason → z = v ∧ same) ∧
    (c.state = .absent → fill = [] → z.entryInterval = true ∧
      z.counters = c.counters ∧ z.lastSeq = some q ∧ z.pendingFrame = left ∧ sourceStateNotice i z ∈ g.outbox ∧
      (playable c.adopted = true → z.buffer = [made] ∧
        z.state = (if c.prefill ≤ 1 then .running else .prefill) ∧
        (c.prefill ≤ 1 → s.hub.tookEntry { g with outbox := [] } i g.outbox) ∧
        (1 < c.prefill → ({ g with outbox := [] } : Hub) = s.hub)) ∧
      (playable c.adopted = false →
        z.buffer = [] ∧ z.state = recordState c.adopted ∧ ({ g with outbox := [] } : Hub) = s.hub)) := by
  subst fills masks
  have held : (s.setSource i c).sources[i] = c := State.setSource_same i c s
  have still (stays : c.state = .running ∨ ∃ reason, c.state = .unusable reason) :
      ({ ((s.setSource i c).arriveAll i (raw ++ [frame])).hub with outbox := [] } : Hub) = s.hub ∧
        ((s.setSource i c).arriveAll i (raw ++ [frame])).hub.outbox = [] := by
    rw [State.arriveAll_still (s := s.setSource i c) active (by rw [held]; exact stays)]
    exact ⟨State.hub_of_delivered none, none⟩
  dsimp only
  rw [List.length_map]
  refine ⟨fun running => ⟨still (.inl running), fun room => ?_, fun full => ?_⟩, fun prefill room => ?_,
    fun reason unusable => ⟨?_, still (.inr ⟨reason, unusable⟩)⟩, fun absent empty => ?_⟩
  · rw [Source.arrivesAll_snoc_of_room (.inl running) raw frame room, if_pos (.inl running), ← running]
  · rw [Source.arrivesAll_snoc_of_full running full raw frame]
  · have is := Source.arrivesAll_snoc_of_room (.inr prefill) raw frame room
    have reacts := State.arriveAll_prefill (s := s.setSource i c) active (by rw [held]; exact prefill) (raw ++ [frame])
    rw [held] at reacts
    have out : ¬ c.state = .running := by rw [prefill]; nofun
    refine ⟨fun filled => ?_, fun unfilled => ?_⟩
    · rw [is, if_pos (.inr filled)] at reacts ⊢
      obtain ⟨-, ns, entry, notice⟩ | ⟨waits, -⟩ := reacts
      · obtain ⟨all, entry⟩ := entry.delivered none
        rw [all]
        exact ⟨rfl, notice, entry⟩
      · cases waits
    · have waits : ¬ (c.state = .running ∨ c.prefill ≤ c.buffer.length + raw.length + 1) := fun filled => by
        rcases filled with running | filled
        · exact out running
        · omega
      rw [is, if_neg waits] at reacts ⊢
      obtain ⟨running, -⟩ | ⟨-, same⟩ := reacts
      · cases running
      · rw [same, ← prefill]
        exact ⟨rfl, State.hub_of_delivered none, none⟩
  · rw [Source.arrivesAll_snoc_of_unusable unusable raw frame]
  · obtain rfl : raw = [] := List.map_eq_nil_iff.1 empty
    obtain ⟨-, -, appears⟩ := State.arrive_hub (i := i) (f := frame) (s := s.setSource i c) active
    rw [held] at appears
    obtain ⟨enters, waits⟩ := appears absent
    have one : c.arrivesAll ([] ++ [frame]) = c.arrives frame := rfl
    have all : (s.setSource i c).arriveAll i ([] ++ [frame]) = (s.setSource i c).arrive i frame := rfl
    rw [one, all]
    cases plays : playable c.adopted with
    | false =>
      obtain ⟨buffer, state, entry, counters⟩ := Source.arrives_of_absent_unplayable frame absent plays
      have out : (c.arrives frame).state ≠ .running := by
        rw [state]
        rcases recordState_cases c.adopted with ⟨yes, -⟩ | ⟨-, reason, e⟩
        · rw [plays] at yes; cases yes
        · rw [e]; nofun
      obtain ⟨told, same⟩ := (waits out).delivered none
      rw [told]
      exact ⟨entry, counters, rfl, rfl, List.mem_singleton_self _, nofun, fun _ => ⟨buffer, state, same⟩⟩
    | true =>
      obtain ⟨buffer, -, state, entry, counters⟩ := Source.arrives_of_absent_playable frame absent plays
      by_cases short : c.prefill ≤ 1
      · obtain ⟨ns, entered, notice⟩ := enters (by rw [state, if_pos short])
        obtain ⟨told, entered⟩ := entered.delivered none
        rw [told]
        exact ⟨entry, counters, rfl, rfl, notice, fun _ => ⟨buffer, state, fun _ => entered,
          fun long => absurd short (Nat.not_le.2 long)⟩, nofun⟩
      · obtain ⟨told, same⟩ := (waits (by rw [state, if_neg short]; nofun)).delivered none
        rw [told]
        exact ⟨entry, counters, rfl, rfl, List.mem_singleton_self _, fun _ => ⟨buffer, state,
          fun yes => absurd yes short, fun _ => same⟩, nofun⟩

/-- R8: the frames that fill a gap, masked. -/
theorem Source.fillsGap_map {x : Source} {q gap : Nat} (lies : x.gapBefore q = gap) :
    (x.fillsGap q).map x.mask =
      match x.lastWritten with
      | some w => if 1 ≤ gap ∧ gap ≤ 4 then List.replicate gap (x.mask w) else []
      | none => [] := by
  unfold Source.fillsGap
  rw [lies]
  rcases x.lastWritten with _ | w
  · rfl
  · dsimp only
    split
    · exact List.map_replicate
    · rfl

/-- Settles O27: a packet is checked, its mask held and its status bit collected, and the frame it completes written. -/
theorem packetsAreCheckedAndAssembled : Obligations.PacketsAreCheckedAndAssembled := by
  intro s k words ⟨quiet, awake⟩ settled i x counted rejected ignored
  have none : s.hub.outbox = [] := quiet
  have step : s.settle.packet i words = s.packet i words := by rw [State.settle_of_settled settled]
  obtain ⟨t, run, tells, sources, hub⟩ := event_tells (f := fun t : State => t.settle.packet i words) awake
    (by rw [step]; simp) (by rw [step]; simp) (by rw [step]; simp)
  dsimp only at tells sources hub
  rw [step] at tells sources hub
  obtain ⟨-, -, -, lanes, protection, radio, station, settings, tables⟩ := State.packet_frame i words s
  obtain ⟨power, others⟩ := State.packet_keeps i words s
  have hears (heard : ¬ ignored) : s.hub.inputIgnored i = false := by
    unfold Hub.inputIgnored
    rw [Bool.and_eq_false_iff, decide_eq_false_iff_not, Bool.not_eq_false', ← Bool.not_eq_false]
    exact Decidable.not_and_iff_not_or_not.1 heard
  have unmoved (y : Source) (is : s.packet i words = s.setSource i y) : t.hub = s.hub ∧ t.sources[i] = y := by
    rw [hub, sources, is]
    exact ⟨State.hub_of_delivered quiet, State.setSource_same i y s⟩
  refine ⟨t, _, run, tells, fun j other => by rw [sources]; exact others j other, fun ignored => ?_, fun heard bad => ?_,
    fun heard head w0 w1 w2 w3 passes => ?_⟩
  · have unheard : s.hub.inputIgnored i = true := by
      obtain ⟨standby, unsensed⟩ := ignored
      unfold Hub.inputIgnored
      rw [standby, unsensed]
      rfl
    rw [State.packet_of_ignored unheard] at sources hub
    exact ⟨sources, hub.trans (State.hub_of_delivered quiet)⟩
  · exact unmoved _ (State.packet_of_bad (hears heard) bad)
  · let e := x.corrects words
    let u := s.setSource i e
    have held : u.sources[i] = e := State.setSource_same i e s
    have whole : s.packet i words = u.testHeader i (packetHeader head) w0 w1 w2 w3 :=
      State.packet_of_words (hears heard) passes
    intro group seq mask part
    refine ⟨fun otherA otherB => ?_, fun selected zero => ?_, fun selected counts => ?_, ?_⟩
    · refine unmoved e (whole.trans ?_)
      unfold State.testHeader
      rw [held]
      exact if_neg (not_or.2 ⟨otherA, otherB⟩)
    · refine unmoved e.reject (whole.trans ?_)
      unfold State.testHeader
      rw [held]
      refine (if_pos selected).trans ((if_pos zero).trans ?_)
      exact State.setSource_setSource i e e.reject s
    · have selected' : (packetHeader head).group = e.groupA ∨ (packetHeader head).group = e.groupB := selected
      have counts' : (packetHeader head).seq ≠ 0 := counts
      rw [← held] at selected'
      intro onA maskA maskB channels starts flag place assembly block record prevBlock adopts failed blocks still
      refine ⟨fun new => ?_, fun same duplicate => ?_, fun same last fresh => ?_⟩
      · intro wasRunning pair main z
        let r := e.restarts onA mask
        let a := u.changeSource i r
        let b := a.signal i onA flag (w0.getLsbD 24)
        have renewed : a.sources[i] = r := State.changeSource_same i r u
        have eq : s.packet i words = b.setSource i { b.sources[i] with pendingFrame := some starts } := by
          have eq := State.testHeader_restarts (w0 := w0) (w1 := w1) (w2 := w2) (w3 := w3) selected' counts'
            (by rw [held]; exact new)
          rw [held] at eq
          exact whole.trans eq
        have reacts := State.restarts_reacts (first := onA) (mask := mask) flag (w0.getLsbD 24) (s := u) (i := i) none
          (by rw [held]; exact new)
        rw [held] at reacts
        obtain ⟨told, departs, stays, derives⟩ := reacts
        have outbox : (s.packet i words).hub.outbox = b.hub.outbox := by rw [eq]; rfl
        have hub' : t.hub = { b.hub with outbox := [] } := by rw [hub, eq]; rfl
        have record : t.sources[i] = { b.sources[i] with pendingFrame := some starts } := by
          rw [sources, eq]; exact State.setSource_same i _ b
        rw [outbox]
        refine ⟨?_, fun unadopted => ?_, fun own running => ?_, fun other out active => ?_, fun source item silent => ?_⟩
        · have notice : sourceStateNotice i z = sourceStateNotice i r := sourceStateNotice_congr rfl rfl
          rw [notice]
          exact told
        · have signalled := (State.signal_unadopted (i := i) (s := a) (first := onA) (flag := flag)
            (bit := w0.getLsbD 24) (by rw [renewed]; exact unadopted)).1
          rw [renewed] at signalled
          rw [record]
          exact congrArg (fun y : Source => { y with pendingFrame := some starts }) signalled
        · have out : a.sources[i].state ≠ .running := by rw [renewed]; exact Source.restarts_out onA mask e
          have out' := (State.signal_out onA flag (w0.getLsbD 24) out).1
          have kept := (State.signal_keeps i onA flag (w0.getLsbD 24) a).2.2.1
          have departed := (departs running own).alike (k := t.hub) (by rw [hub']) (by rw [hub']) fun _ m => m
          refine departed.running fun j => ?_
          by_cases at_i : j = i
          · subst at_i
            rw [record]
            exact iff_of_false out' out
          · have same : t.sources[j] = a.sources[j] := by
              rw [sources, eq, State.setSource_other _ _ at_i]
              exact kept j at_i
            rw [same]
        · rw [hub']
          exact stays out other active
        · rw [hub']
          exact derives source item silent
      · have eq := State.testHeader_joins (w0 := w0) (w1 := w1) (w2 := w2) (w3 := w3) selected' counts'
          (by rw [held]; exact same)
        rw [held] at eq
        have repeated : e.isDuplicate seq onA = true := Source.isDuplicate_iff.2 duplicate
        have is : s.packet i words = s.setSource i (e.masked onA mask).reject :=
          (whole.trans (eq.trans (if_pos repeated))).trans (State.setSource_setSource i e _ s)
        obtain ⟨hub', record⟩ := unmoved _ is
        exact ⟨⟨hub', by rw [is]; exact none⟩, record⟩
      · let m := e.masked onA mask
        let v := s.setSource i m
        have heldv : v.sources[i] = m := State.setSource_same i m s
        let a := v.signal i onA flag (w0.getLsbD 24)
        have eq : s.packet i words = a.assemble i seq onA part := by
          have eq := State.testHeader_joins (w0 := w0) (w1 := w1) (w2 := w2) (w3 := w3) selected' counts'
            (by rw [held]; exact same)
          rw [held] at eq
          have unrepeated : ¬ e.isDuplicate seq onA = true := fun duplicate => by
            rcases Source.isDuplicate_iff.1 duplicate with written | ⟨f, pending, seq', given⟩
            · exact last written
            · have lacks := fresh f pending seq'
              change (if onA then f.partA else f.partB).isSome = true at given
              rw [lacks] at given
              cases given
          have joined := whole.trans (eq.trans (if_neg unrepeated))
          rw [State.setSource_setSource] at joined
          exact joined
        intro y
        have signalled (unadopted : adopts = Option.none) : a.sources[i] = m.signalled onA flag (w0.getLsbD 24) ∧
            (s.hub.standby.power ≠ .standby ∨ block = Option.none → a.hub = s.hub) := by
          have result := State.signal_unadopted (i := i) (s := v) (first := onA) (flag := flag) (bit := w0.getLsbD 24)
            (by rw [heldv]; exact unadopted)
          rw [heldv] at result
          exact result
        rw [eq] at sources hub
        refine ⟨fun r adopted => ?_, fun unadopted pending => ?_, fun unadopted f pending => ?_⟩
        · have result := State.signal_adopted (i := i) (s := v) (first := onA) (flag := flag) (bit := w0.getLsbD 24) (r := r)
            (by rw [heldv]; exact adopted)
          rw [heldv] at result
          obtain ⟨⟨adopted', assembly', block'⟩, told⟩ := result
          obtain ⟨⟨adopted'', assembly'', block''⟩, posted, -⟩ := State.assemble_keeps i seq onA part a
          obtain ⟨ns, outbox, notice⟩ := told.after posted
          rw [show v.hub.outbox = [] from none, List.nil_append] at outbox
          rw [sources, eq, outbox]
          exact ⟨adopted''.trans adopted', assembly''.trans assembly', block''.trans block', notice⟩
        · obtain ⟨record, stays⟩ := signalled unadopted
          have unpending : a.sources[i].pendingFrame = Option.none := by rw [record]; exact pending
          have is := State.assemble_eq i seq onA part a
          rw [unpending] at is
          have is : a.assemble i seq onA part =
            a.setSource i { a.sources[i] with pendingFrame := some (startPending seq onA part) } := is
          rw [is] at sources hub
          refine ⟨?_, fun silent => ?_⟩
          · rw [sources, State.setSource_same, record]
            rfl
          · have same : (a.setSource i { a.sources[i] with pendingFrame := some (startPending seq onA part) }).hub = s.hub :=
              stays silent
            refine ⟨by rw [hub, same]; exact State.hub_of_delivered quiet, ?_⟩
            rw [eq, is]
            exact (congrArg Hub.outbox same).trans none
        · obtain ⟨record, stays⟩ := signalled unadopted
          have pending' : a.sources[i].pendingFrame = some f := by rw [record]; exact pending
          intro A B made left gap lies fill gaps atLast counted' w
          let z := m.signalled onA flag (w0.getLsbD 24)
          let raw := z.fillsGap f.seq
          let c : Source := { y with pendingFrame := Option.none, counters := gaps }
          have gapIs : z.gapBefore f.seq = gap := Source.gapBefore_of lies
          have fills : fill = raw.map c.mask := (Source.fillsGap_map (x := z) gapIs).symm
          have countedGap : ({ z with pendingFrame := Option.none } : Source).countGap (z.gapBefore f.seq) (!raw.isEmpty) = c := by
            have empty : (if (!raw.isEmpty) = true then bumpBy z.counters.gapFilled gap else z.counters.gapFilled) =
                if fill = [] then x.counters.gapFilled else bumpBy x.counters.gapFilled gap := by
              rw [fills]
              rcases raw with _ | ⟨g, raw⟩
              · rfl
              · rfl
            unfold Source.countGap
            rw [gapIs]
            dsimp only
            rw [empty]
            rfl
          have joined := State.assemble_pending (q := seq) (first := onA) (p := part) pending'
          rw [record] at joined
          let frame := if f.seq = seq then (f.add onA part).frame else f.frame
          have masks : made = c.mask frame := congrArg x.mask (PendingFrame.completed_eq seq onA part f).symm
          have asleep : a.hub.standby.power = .standby →
              (a.assemble i seq onA part).sources[i] = { c with lastSeq := some f.seq, pendingFrame := left } := by
            rw [← countedGap]
            exact fun standby => (joined.1 standby).1
          have writes : a.hub.standby.power ≠ .standby →
              (a.assemble i seq onA part).sources[i] =
                  { c.arrivesAll (raw ++ [frame]) with lastSeq := some f.seq, pendingFrame := left } ∧
                (a.assemble i seq onA part).hub = ((a.setSource i c).arriveAll i (raw ++ [frame])).hub := by
            rw [← countedGap]
            exact joined.2
          have powers : a.hub.standby.power = s.hub.standby.power := (State.signal_keeps i onA flag (w0.getLsbD 24) v).1
          rw [powers] at asleep writes
          refine ⟨fun standby => by rw [sources]; exact asleep standby, fun active => ?_⟩
          have sameHub : a.hub = s.hub := stays (.inl active)
          obtain ⟨record', hub'⟩ := writes active
          have arrives := State.gapAndFrame (i := i) (s := a) (c := c) (q := f.seq) (left := left) (by rw [sameHub]; exact active)
            (by rw [sameHub]; exact none) fills masks
          dsimp only at arrives
          rw [← record', ← hub', ← hub, ← sources, sameHub, ← eq] at arrives
          obtain ⟨running, prefill, unusable, absent⟩ := arrives
          rw [← sources] at record'
          refine ⟨running, prefill, unusable, ?_⟩
          rw [record'] at absent ⊢
          exact absent
    · rw [hub]
      exact ⟨lanes, protection, radio, station, power, settings, tables⟩

end Sys2Proof.Machine
end

section
/-! SUPPORT. Departures of sources one after another (O31): which events the reactions leave, what they make of a zone and of
the clock that follow another source, and the turns of the sources at the end of a measurement interval. -/

namespace Sys2Proof.Machine

/-! ### The events that the reactions leave -/

/-- An event that is no zone's. -/
def Due.apart : Due → Bool
  | .fadeOutEnd _ | .fadeInEnd _ | .noSignal _ => false
  | _ => true

@[simp] theorem Hub.enterZone_apart (z : ZoneId) (x : Zone) (h : Hub) :
    (h.enterZone z x).due.filter Due.apart = h.due.filter Due.apart := by
  unfold Hub.enterZone Hub.dropDue
  simp only [Hub.setZone_frame, List.filter_filter]
  refine List.filter_congr fun d _ => ?_
  cases d <;> simp [Due.apart]

@[simp] theorem Hub.holdItem_apart (join : Items → Items) (z : ZoneId) (h : Hub) :
    (h.holdItem join z).due.filter Due.apart = h.due.filter Due.apart := by
  unfold Hub.holdItem
  dsimp only
  repeat' split
  all_goals simp

@[simp] theorem Hub.tellGrant_apart (z : ZoneId) (ms : Nat) (h : Hub) :
    (h.tellGrant z ms).due.filter Due.apart = h.due.filter Due.apart := by
  unfold Hub.tellGrant
  dsimp only
  split <;> simp

@[simp] theorem Hub.squeeze_apart (z : ZoneId) (h : Hub) :
    (h.squeeze z).due.filter Due.apart = h.due.filter Due.apart := by
  unfold Hub.squeeze
  dsimp only
  repeat' split
  all_goals simp

@[simp] theorem Hub.makeRoomFrom_apart (skip : Option ZoneId) (extra : Nat) (z : ZoneId) (h : Hub) :
    (h.makeRoomFrom skip extra z).due.filter Due.apart = h.due.filter Due.apart := by
  unfold Hub.makeRoomFrom
  split <;> simp

@[simp] theorem Hub.makeRoom_apart (skip : Option ZoneId) (extra : Nat) (h : Hub) :
    (h.makeRoom skip extra).due.filter Due.apart = h.due.filter Due.apart := by
  simp [Hub.makeRoom]

@[simp] theorem Hub.applyLipsync_apart (z : ZoneId) (h : Hub) :
    (h.applyLipsync z).due.filter Due.apart = h.due.filter Due.apart := by
  simp [Hub.applyLipsync]

@[simp] theorem Hub.applyGrant_apart (z : ZoneId) (h : Hub) :
    (h.applyGrant z).due.filter Due.apart = h.due.filter Due.apart := by
  unfold Hub.applyGrant
  split <;> simp

@[simp] theorem Hub.recompute_apart (h : Hub) :
    (h.recompute).due.filter Due.apart = h.due.filter Due.apart := by
  simp [Hub.recompute]

@[simp] theorem Hub.adoptLayout_apart (h : Hub) :
    (h.adoptLayout).due.filter Due.apart = h.due.filter Due.apart := by
  unfold Hub.adoptLayout
  dsimp only
  repeat' split
  all_goals simp

@[simp] theorem Hub.applyLayout_apart (h : Hub) :
    (h.applyLayout).due.filter Due.apart = h.due.filter Due.apart := by
  simp [Hub.applyLayout]

@[simp] theorem Hub.makeCurrent_apart (src : Vector Source 8) (z : ZoneId) (i : SourceId) (h : Hub) :
    (h.makeCurrent src z i).due.filter Due.apart = h.due.filter Due.apart := by
  unfold Hub.makeCurrent
  dsimp only
  repeat' split
  all_goals simp

@[simp] theorem Hub.zoneOff_apart (z : ZoneId) (h : Hub) :
    (h.zoneOff z).due.filter Due.apart = h.due.filter Due.apart := by
  unfold Hub.zoneOff
  dsimp only
  repeat' split
  all_goals simp

@[simp] theorem Hub.applyItems_apart (z : ZoneId) (h : Hub) :
    (h.applyItems z).due.filter Due.apart = h.due.filter Due.apart := by
  unfold Hub.applyItems
  dsimp only
  repeat' split
  all_goals simp

@[simp] theorem Hub.leaveFade_apart (src : Vector Source 8) (z : ZoneId) (p : Purpose) (h : Hub) :
    (h.leaveFade src z p).due.filter Due.apart = h.due.filter Due.apart := by
  unfold Hub.leaveFade
  dsimp only
  repeat' split
  all_goals simp

@[simp] theorem Hub.followMain_apart (src : Vector Source 8) (z : ZoneId) (h : Hub) :
    (h.followMain src z).due.filter Due.apart = h.due.filter Due.apart := by
  unfold Hub.followMain
  split <;> simp

@[simp] theorem Hub.endFadeOut_apart (src : Vector Source 8) (z : ZoneId) (h : Hub) :
    (h.endFadeOut src z).due.filter Due.apart = h.due.filter Due.apart := by
  unfold Hub.endFadeOut
  split <;> simp

@[simp] theorem Hub.zoneSourceLeaves_apart (src : Vector Source 8) (i : SourceId) (z : ZoneId) (h : Hub) :
    (h.zoneSourceLeaves src i z).due.filter Due.apart = h.due.filter Due.apart := by
  unfold Hub.zoneSourceLeaves
  dsimp only
  repeat' split
  all_goals simp

theorem Hub.zonesSourceLeaves_apart (src : Vector Source 8) (i : SourceId) (h : Hub) :
    (h.zonesSourceLeaves src i).due.filter Due.apart = h.due.filter Due.apart := by
  simp [Hub.zonesSourceLeaves]

theorem Due.apart_mem {g h : Hub} {d : Due} (apart : d.apart = true)
    (same : g.due.filter Due.apart = h.due.filter Due.apart) : d ∈ g.due ↔ d ∈ h.due := by
  have member (k : Hub) : d ∈ k.due ↔ d ∈ k.due.filter Due.apart := by simp [List.mem_filter, apart]
  rw [member g, member h, same]

/-! ### The zones in a departure -/

/-- From `h` to `g` no LAYOUT item has been raised, and every zone with a source other than `i` has kept its course. -/
def Hub.passes (h g : Hub) (i : SourceId) : Prop :=
  (∀ z, (h.zone z).pending.layout = false) →
    (∀ z, (g.zone z).pending.layout = false) ∧ ∀ z, (h.zone z).current ≠ some i → (h.zone z).onCourse (g.zone z)

theorem Hub.passes.trans {h g k : Hub} {i : SourceId} (first : h.passes g i) (second : g.passes k i) : h.passes k i := by
  intro none
  obtain ⟨none', courses⟩ := first none
  obtain ⟨none'', courses'⟩ := second none'
  refine ⟨none'', fun z other => ?_⟩
  have course := courses z other
  obtain ⟨-, -, current, -⟩ := id course
  exact course.trans (courses' z (by rw [current]; exact other))

theorem Hub.zoneSourceLeaves_passes {src : Vector Source 8} {i : SourceId} (gone : src[i].isRunning = false) (z : ZoneId)
    (h : Hub) : h.passes (h.zoneSourceLeaves src i z) i := by
  intro none
  obtain ⟨stays, -, -, -, courses, -⟩ := h.zoneSourceLeaves_course src i z gone
  obtain ⟨others, layout⟩ := courses (none z)
  refine ⟨fun w => ?_, fun w other => ?_⟩
  · by_cases same : w = z
    · rw [same]; exact layout
    · obtain ⟨-, -, -, -, -, -, -, kept, -⟩ := others w same
      rw [kept]; exact none w
  · by_cases same : w = z
    · subst same
      rw [stays (.inl other)]
      exact .rfl
    · exact others w same

/-- What the main zone does as source `i` departs: one with another source stays, or is sent into a fade with purpose
RECONFIGURE, and one that plays `i`, fades it in or reconfigures waits for it. -/
def Zone.departs (x y : Zone) (i : SourceId) : Prop :=
  (x.current ≠ some i → x.nudged y) ∧
    (x.current = some i → (x.state = .playing ∨ x.state = .fadingIn ∨ x.state = .fadingOut .reconfigure) →
      y.state = .waiting ∧ y.current = some i) ∧
    (x.current = some i → x.state = .waiting → y.state = .waiting ∧ y.current = some i)

theorem Zone.departs.nudged {x y w : Zone} {i : SourceId} (departs : x.departs y i) (nudged : y.nudged w) :
    x.departs w i := by
  obtain ⟨other, audible, waits⟩ := departs
  have stays (c : y.state = .waiting ∧ y.current = some i) : w.state = .waiting ∧ w.current = some i := by
    obtain ⟨-, -, current, ⟨state, -⟩ | ⟨on, -⟩⟩ := nudged
    · exact ⟨state.trans c.1, current.trans c.2⟩
    · rw [c.1] at on
      rcases on with on | on <;> cases on
  exact ⟨fun n => (other n).trans nudged, fun c s => stays (audible c s), fun c s => stays (waits c s)⟩

theorem Hub.zonesSourceLeaves_main {src : Vector Source 8} {i : SourceId} (gone : src[i].isRunning = false) (h : Hub) :
    (h.zone .main).departs ((h.zonesSourceLeaves src i).zone .main) i := by
  obtain ⟨stays, waits, -⟩ := h.zoneSourceLeaves_course src i .main gone
  have own : (h.zone .main).departs ((h.zoneSourceLeaves src i .main).zone .main) i := by
    refine ⟨fun other => ?_, fun current audible => ?_, fun current waiting => ?_⟩
    · rw [stays (.inl other)]; exact .rfl
    · obtain ⟨state, current, -⟩ := waits current audible
      exact ⟨state, current⟩
    · rw [stays (.inr (.inl waiting))]; exact ⟨waiting, current⟩
  obtain ⟨-, -, -, z2, -⟩ := (h.zoneSourceLeaves src i .main).zoneSourceLeaves_course src i .z2 gone
  obtain ⟨-, -, -, z3, -⟩ :=
    ((h.zoneSourceLeaves src i .main).zoneSourceLeaves src i .z2).zoneSourceLeaves_course src i .z3 gone
  exact (own.nudged (z2 .main (by decide))).nudged (z3 .main (by decide))

/-- R3, R55: a record replaced that leaves RUNNING: the zones' courses and the events. -/
theorem State.changeSource_passes {i : SourceId} {y : Source} {s : State} (running : s.sources[i].state = .running)
    (gone : y.state ≠ .running) (channels : y.channels = s.sources[i].channels) :
    s.hub.passes (s.changeSource i y).hub i ∧
      (s.hub.zone .main).departs ((s.changeSource i y).hub.zone .main) i ∧
      (s.changeSource i y).hub.due.filter Due.apart = s.hub.due.filter Due.apart := by
  have now : (s.sources.set i y)[i].isRunning = false := by simpa [Source.isRunning] using gone
  have moved : y.state ≠ s.sources[i].state := by rw [running]; exact gone
  rw [State.changeSource_hub moved channels, Source.isRunning_iff.2 running, Hub.sourceChanged_of_gone now]
  dsimp only
  rw [if_pos rfl, if_neg (fun c => Bool.false_ne_true c.1), if_pos rfl]
  have zones (w : ZoneId) (k : Hub) : (k.referenceLeaves i).zone w = k.zone w :=
    Hub.zone_eq_of_zones (Hub.referenceLeaves_frame i k).1 w
  have passes := ((Hub.zoneSourceLeaves_passes now .main (post (sourceStateNotice i y) s.hub)).trans
    (Hub.zoneSourceLeaves_passes now .z2 _)).trans (Hub.zoneSourceLeaves_passes now .z3 _)
  refine ⟨?_, ?_, ?_⟩
  · unfold Hub.passes
    simp only [zones]
    exact passes
  · rw [zones]
    exact Hub.zonesSourceLeaves_main now (post (sourceStateNotice i y) s.hub)
  · rw [(Hub.referenceLeaves_frame i _).2.2.2.2.2.2.2.2, Hub.zonesSourceLeaves_apart]
    rfl

/-! ### Turns of the sources -/

/-- R3, R55: a turn of source `j` that does not bring it into RUNNING: what it leaves, what it tells, and what the other
blocks make of a departure. -/
structure State.turn (j : SourceId) (s t : State) : Prop where
  others : ∀ k : SourceId, k ≠ j → t.sources[k] = s.sources[k]
  channels : t.sources[j].channels = s.sources[j].channels
  out : s.sources[j].state ≠ .running → t.sources[j].state ≠ .running
  apart : ∀ k : SourceId, k ≠ j → (Due.sourceAbsent k ∈ t.hub.due ↔ Due.sourceAbsent k ∈ s.hub.due)
  told : s.hub.keepsPosted t.hub
  notice : t.sources[j].state ≠ s.sources[j].state → Hub.hasPosted (sourceStateNotice j t.sources[j]) s.hub t.hub
  settings : settingsOf t.hub.zones = settingsOf s.hub.zones
  standby : t.hub.standby = s.hub.standby
  still : ¬ (s.sources[j].state = .running ∧ t.sources[j].state ≠ .running) →
    t.hub.zones = s.hub.zones ∧ t.hub.clock = s.hub.clock
  departs : s.sources[j].state = .running → t.sources[j].state ≠ .running →
    s.hub.passes t.hub j ∧ (s.hub.zone .main).departs (t.hub.zone .main) j ∧
      ∃ ns, t.hub.outbox = s.hub.outbox ++ ns ∧ s.hub.tookDeparture t.hub t.sources j ns

/-- A record replaced in its turn. -/
theorem State.changeSource_turn {j : SourceId} {y : Source} {s : State}
    (channels : y.channels = s.sources[j].channels) (out : s.sources[j].state ≠ .running → y.state ≠ .running) :
    s.turn j (s.changeSource j y) := by
  have held : (s.changeSource j y).sources[j] = y := State.changeSource_same j y s
  obtain ⟨-, -, -, -, -, -, -, settings, -⟩ := State.changeSource_frame j y s
  have others (k : SourceId) (other : k ≠ j) : (s.changeSource j y).sources[k] = s.sources[k] :=
    State.changeSource_other y s other
  have standby := State.changeSource_standby j y s
  by_cases leaves : s.sources[j].state = .running ∧ y.state ≠ .running
  · obtain ⟨running, gone⟩ := leaves
    obtain ⟨ns, told, notice, departure, -⟩ := State.changeSource_departed running gone channels
    obtain ⟨passes, main, apart⟩ := State.changeSource_passes running gone channels
    exact ⟨others, by rw [held]; exact channels, by rw [held]; exact out, fun k _ => Due.apart_mem rfl apart, ⟨ns, told⟩,
      fun _ => by rw [held]; exact ⟨ns, told, notice⟩, settings, standby,
      fun n => absurd ⟨running, by rw [held]; exact gone⟩ n, fun _ _ => ⟨passes, main, ns, told, departure⟩⟩
  · have alike : y.isRunning = s.sources[j].isRunning := by
      by_cases running : s.sources[j].state = .running
      · have on : y.state = .running := Classical.byContradiction fun gone => leaves ⟨running, gone⟩
        rw [Source.isRunning_iff.2 running, Source.isRunning_iff.2 on]
      · rw [Source.not_isRunning_iff.2 running, Source.not_isRunning_iff.2 (out running)]
    have only := State.changeSource_toldOnly (s := s) alike channels
    have is := only
    rw [Hub.toldOnly] at is
    refine ⟨others, by rw [held]; exact channels, by rw [held]; exact out, fun k _ => by rw [is],
      ⟨_, congrArg Hub.outbox is⟩, fun moved => ⟨_, congrArg Hub.outbox is, ?_⟩, settings, standby,
      fun _ => by rw [is]; exact ⟨rfl, rfl⟩, fun running gone => absurd ⟨running, by rw [held] at gone; exact gone⟩ leaves⟩
    rw [held] at moved ⊢
    rw [if_neg moved]
    exact List.mem_singleton_self _

/-- A record put in the place of one of the same state and channel set in its turn. -/
theorem State.setSource_turn {j : SourceId} {y : Source} {s : State} (state : y.state = s.sources[j].state)
    (channels : y.channels = s.sources[j].channels) : s.turn j (s.setSource j y) := by
  rw [← State.changeSource_of_same state channels]
  exact State.changeSource_turn channels fun out => by rw [state]; exact out

/-- A turn with the source's own event dropped before it. -/
theorem State.turn.dropped {j : SourceId} {s t : State}
    (turn : (s.onHub (Hub.dropDue (.sourceAbsent j))).turn j t) : s.turn j t := by
  obtain ⟨others, channels, out, apart, told, notice, settings, standby, still, departs⟩ := turn
  refine ⟨others, channels, out, fun k other => (apart k other).trans ?_, told, notice, settings, standby, still, departs⟩
  have differs : Due.sourceAbsent k ≠ Due.sourceAbsent j := fun e => other (Due.sourceAbsent.inj e)
  simp [Hub.mem_dropDue, differs]

/-- A turn with the block that begins decided again after it. -/
theorem State.turn.redecided {j : SourceId} {s : State} {f : State → State} (turn : s.turn j (f s)) :
    s.turn j (s.redecide f) := by
  rcases State.redecide_cases f s with ⟨-, -, is⟩ | ⟨-, is⟩
  · rw [is]
    obtain ⟨others, channels, out, apart, told, notice, settings, standby, still, departs⟩ := turn
    refine ⟨others, channels, out, apart, told, notice, settings, standby, still, fun running gone => ?_⟩
    obtain ⟨passes, main, ns, outbox, departure⟩ := departs running gone
    exact ⟨passes, main, ns, outbox, departure.alike rfl rfl fun _ m => m⟩
  · rw [is]; exact turn

theorem State.turn_self (j : SourceId) (s : State) : s.turn j s :=
  ⟨fun _ _ => rfl, rfl, id, fun _ _ => Iff.rfl, Hub.keepsPosted_of_eq rfl, fun n => absurd rfl n, rfl, rfl,
    fun _ => ⟨rfl, rfl⟩, fun on off => absurd on off⟩

/-! ### What turns one after another keep -/

/-- A zone `z` that plays source `i`, or fades it in, from `s` to `t`: it goes on as long as `i` is in RUNNING, and waits
for it anew once it is not. -/
def State.hears (s : State) (z : ZoneId) (i : SourceId) (t : State) : Prop :=
  (∀ w, (t.hub.zone w).pending.layout = false) ∧ (t.hub.zone z).current = some i ∧ s.hub.keepsPosted t.hub ∧
    (t.sources[i].state = .running →
      (t.hub.zone z).state = (s.hub.zone z).state ∧ (t.hub.zone z).gain = (s.hub.zone z).gain) ∧
    (t.sources[i].state ≠ .running →
      (t.hub.zone z).state = .waiting ∧ (t.hub.zone z).gain = -1 ∧ (t.hub.zone z).noSignal = 0 ∧
        Hub.hasPosted (zoneStateNotice z (t.hub.zone z)) s.hub t.hub)

theorem State.turn.hears {s t u : State} {z : ZoneId} {i j : SourceId} (turn : t.turn j u)
    (audible : (s.hub.zone z).state = .playing ∨ (s.hub.zone z).state = .fadingIn) (hears : s.hears z i t) :
    s.hears z i u := by
  obtain ⟨layouts, current, posted, plays, waits⟩ := hears
  have goes (same : u.hub.zones = t.hub.zones) (alike : u.sources[i].state = .running ↔ t.sources[i].state = .running) :
      s.hears z i u := by
    have zones (w : ZoneId) : u.hub.zone w = t.hub.zone w := Hub.zone_eq_of_zones same w
    refine ⟨fun w => by rw [zones]; exact layouts w, by rw [zones]; exact current, posted.trans turn.told, fun on => ?_,
      fun off => ?_⟩
    · rw [zones]; exact plays (alike.1 on)
    · obtain ⟨state, gain, count, notice⟩ := waits fun on => off (alike.2 on)
      rw [zones]
      exact ⟨state, gain, count, notice.after turn.told⟩
  by_cases own : j = i
  · subst own
    by_cases leaves : t.sources[j].state = .running ∧ u.sources[j].state ≠ .running
    · obtain ⟨on, off⟩ := leaves
      obtain ⟨passes, -, ns, outbox, zones, -⟩ := turn.departs on off
      obtain ⟨state, -⟩ := plays on
      obtain ⟨waiting, current', gain, count, -, notice⟩ := (zones z current).1 (by rw [state]; exact audible)
      exact ⟨(passes layouts).1, current', posted.trans turn.told, fun on' => absurd on' off,
        fun _ => ⟨waiting, gain, count, Hub.hasPosted.before posted ⟨ns, outbox, notice⟩⟩⟩
    · refine goes (turn.still leaves).1 ⟨fun on => Classical.byContradiction fun off => turn.out off on, fun on => ?_⟩
      exact Classical.byContradiction fun off => leaves ⟨on, off⟩
  · have same : u.sources[i] = t.sources[i] := turn.others i fun e => own e.symm
    by_cases leaves : t.sources[j].state = .running ∧ u.sources[j].state ≠ .running
    · obtain ⟨passes, -⟩ := turn.departs leaves.1 leaves.2
      obtain ⟨layouts', courses⟩ := passes layouts
      obtain ⟨power, selected, current', state, gain, count, -⟩ :=
        courses z (by rw [current]; exact fun e => own (Option.some.inj e).symm)
      have notice' : zoneStateNotice z (u.hub.zone z) = zoneStateNotice z (t.hub.zone z) := by
        simp [zoneStateNotice, power, selected, current', state]
      refine ⟨layouts', current'.trans current, posted.trans turn.told, fun on => ?_, fun off => ?_⟩
      · obtain ⟨state', gain'⟩ := plays (same ▸ on)
        exact ⟨state.trans state', gain.trans gain'⟩
      · obtain ⟨state', gain', count', notice⟩ := waits (same ▸ off)
        exact ⟨state.trans state', gain.trans gain', count.trans count', notice' ▸ notice.after turn.told⟩
    · exact goes (turn.still leaves).1 (by rw [same])

/-- The clock that follows source `i`, which the main zone has, from `s` to `t`: it stays as long as `i` does not leave
RUNNING. -/
def State.keepsClock (s : State) (i : SourceId) (t : State) : Prop :=
  (s.sources[i].state ≠ .running → t.sources[i].state ≠ .running) ∧
    ((s.sources[i].state = .running ∧ t.sources[i].state ≠ .running) ∨
      ((t.hub.zone .main).current = some i ∧ t.hub.clock = s.hub.clock))

theorem State.turn.keepsClock {s t u : State} {i j : SourceId} (turn : t.turn j u)
    (reference : s.hub.clock.reference = some i) (keeps : s.keepsClock i t) : s.keepsClock i u := by
  obtain ⟨out, clock⟩ := keeps
  by_cases own : j = i
  · subst own
    refine ⟨fun off => turn.out (out off), ?_⟩
    rcases clock with ⟨on, off⟩ | ⟨current, clock⟩
    · exact .inl ⟨on, turn.out off⟩
    · by_cases leaves : t.sources[j].state = .running ∧ u.sources[j].state ≠ .running
      · exact .inl ⟨Classical.byContradiction fun off => out off leaves.1, leaves.2⟩
      · obtain ⟨zones, clock'⟩ := turn.still leaves
        exact .inr ⟨by rw [Hub.zone_eq_of_zones zones]; exact current, clock'.trans clock⟩
  · have same : u.sources[i] = t.sources[i] := turn.others i fun e => own e.symm
    rw [State.keepsClock, same]
    refine ⟨out, clock.imp_right fun ⟨current, clock⟩ => ?_⟩
    have other : some i ≠ some j := fun e => own (Option.some.inj e).symm
    by_cases leaves : t.sources[j].state = .running ∧ u.sources[j].state ≠ .running
    · obtain ⟨-, main, ns, -, -, -, away, -⟩ := turn.departs leaves.1 leaves.2
      obtain ⟨-, -, current', -⟩ := main.1 (by rw [current]; exact other)
      have away := away fun c => other (current.symm.trans c.1)
      rw [if_neg (by rw [clock, reference]; exact other)] at away
      exact ⟨current'.trans current, away.trans clock⟩
    · obtain ⟨zones, clock'⟩ := turn.still leaves
      exact ⟨by rw [Hub.zone_eq_of_zones zones]; exact current, clock'.trans clock⟩

/-- The clock that follows source `i`, which the main zone has and does not give up, from `s` to `t`: it holds over once
`i` has left RUNNING. -/
def State.holdsOver (s : State) (i : SourceId) (t : State) : Prop :=
  let x := t.hub.zone .main
  x.current = some i ∧ (x.state = .playing ∨ x.state = .fadingIn ∨ x.state = .fadingOut .reconfigure ∨ x.state = .waiting) ∧
    (t.sources[i].state = .running → t.hub.clock = s.hub.clock) ∧
    (t.sources[i].state ≠ .running → t.hub.clock = s.hub.clock.heldOver)

theorem Clock.heldOver_reference (c : Clock) : c.heldOver.reference = c.reference := by
  unfold Clock.heldOver
  split <;> rfl

theorem State.turn.holdsOver {s t u : State} {i j : SourceId} (turn : t.turn j u)
    (reference : s.hub.clock.reference = some i) (running : s.hub.clock.running = true) (mode : s.hub.clock.mode = .auto)
    (holds : s.holdsOver i t) : s.holdsOver i u := by
  obtain ⟨current, state, on, off⟩ := holds
  have goes (same : u.hub.zones = t.hub.zones) (clock : u.hub.clock = t.hub.clock)
      (alike : u.sources[i].state = .running ↔ t.sources[i].state = .running) : s.holdsOver i u := by
    unfold State.holdsOver
    rw [Hub.zone_eq_of_zones same, clock]
    exact ⟨current, state, fun c => on (alike.1 c), fun n => off fun c => n (alike.2 c)⟩
  by_cases own : j = i
  · subst own
    by_cases leaves : t.sources[j].state = .running ∧ u.sources[j].state ≠ .running
    · obtain ⟨-, main, ns, -, -, -, away, reconfigures, -⟩ := turn.departs leaves.1 leaves.2
      have clock := on leaves.1
      have waits : (u.hub.zone .main).state = .waiting ∧ (u.hub.zone .main).current = some j := by
        rcases state with s | s | s | s
        · exact main.2.1 current (.inl s)
        · exact main.2.1 current (.inr (.inl s))
        · exact main.2.1 current (.inr (.inr s))
        · exact main.2.2 current s
      refine ⟨waits.2, .inr (.inr (.inr waits.1)), fun c => absurd c leaves.2, fun _ => ?_⟩
      by_cases fades : t.hub.zones.main.state = .fadingOut .reconfigure
      · have held := reconfigures current fades ⟨by rw [clock]; exact running, by rw [clock]; exact mode,
          by rw [clock]; exact reference⟩
        rw [held, clock]
      · have steady : ¬ ∃ k, t.hub.zones.main.state = .fadingOut k := by
          rintro ⟨k, e⟩
          have state : t.hub.zones.main.state = .playing ∨ t.hub.zones.main.state = .fadingIn ∨
            t.hub.zones.main.state = .fadingOut .reconfigure ∨ t.hub.zones.main.state = .waiting := state
          rcases state with s | s | s | s
          · rw [s] at e; cases e
          · rw [s] at e; cases e
          · exact fades s
          · rw [s] at e; cases e
        have held := away fun c => steady c.2
        rw [if_pos (by rw [clock]; exact reference), clock] at held
        exact held
    · obtain ⟨zones, clock⟩ := turn.still leaves
      refine goes zones clock ⟨fun c => Classical.byContradiction fun n => turn.out n c, fun c => ?_⟩
      exact Classical.byContradiction fun n => leaves ⟨c, n⟩
  · have same : u.sources[i] = t.sources[i] := turn.others i fun e => own e.symm
    have other : some i ≠ some j := fun e => own (Option.some.inj e).symm
    by_cases leaves : t.sources[j].state = .running ∧ u.sources[j].state ≠ .running
    · obtain ⟨-, main, ns, -, -, -, away, -⟩ := turn.departs leaves.1 leaves.2
      have away := away fun c => other (current.symm.trans c.1)
      have reference' : t.hub.clock.reference = some i := by
        by_cases c : t.sources[i].state = .running
        · rw [on c]; exact reference
        · rw [off c, Clock.heldOver_reference]; exact reference
      rw [if_neg (by rw [reference']; exact other)] at away
      obtain ⟨-, -, current', moved⟩ := main.1 (by rw [current]; exact other)
      refine ⟨current'.trans current, ?_, ?_, ?_⟩
      · rcases moved with ⟨still, -⟩ | ⟨-, fades, -⟩
        · rw [still]; exact state
        · exact .inr (.inr (.inl fades))
      · rw [same, away]; exact on
      · rw [same, away]; exact off
    · obtain ⟨zones, clock⟩ := turn.still leaves
      exact goes zones clock (by rw [same])

/-- A source whose state has changed from `s` to `t` has told it. -/
def State.tellsState (s : State) (i : SourceId) (t : State) : Prop :=
  s.hub.keepsPosted t.hub ∧ t.sources[i].channels = s.sources[i].channels ∧
    (t.sources[i].state ≠ s.sources[i].state → Hub.hasPosted (sourceStateNotice i t.sources[i]) s.hub t.hub)

theorem State.turn.tellsState {s t u : State} {i j : SourceId} (turn : t.turn j u) (told : s.tellsState i t) :
    s.tellsState i u := by
  obtain ⟨posted, channels, tells⟩ := told
  by_cases own : j = i
  · subst own
    refine ⟨posted.trans turn.told, turn.channels.trans channels, fun moved => ?_⟩
    by_cases same : u.sources[j].state = t.sources[j].state
    · rw [sourceStateNotice_congr same turn.channels]
      exact (tells (same ▸ moved)).after turn.told
    · exact Hub.hasPosted.before posted (turn.notice same)
  · have same : u.sources[i] = t.sources[i] := turn.others i fun e => own e.symm
    rw [State.tellsState, same]
    exact ⟨posted.trans turn.told, channels, fun moved => (tells moved).after turn.told⟩

end Sys2Proof.Machine
end

section
/-! SUPPORT. The end of a measurement interval (O31): the sources' turns, the judgement of each record, and the clock. -/

namespace Sys2Proof.Machine

/-! ### The sources' turns -/

theorem State.eachSource_invariant {f : SourceId → State → State} {P : State → Prop} (keeps : ∀ i t, P t → P (f i t))
    {s : State} (h : P s) : P (s.eachSource f) :=
  (State.eachSource_turns (get := fun _ _ => ()) (F := fun _ u => u) keeps (fun _ _ _ => rfl) (fun _ _ _ _ _ => rfl)
    s h).1

/-- R15: the record of a source at the end of a measurement interval. -/
def Source.endsInterval (x : Source) : Source :=
  if x.state = .absent ∨ x.entryInterval = true then { x with arrivals := 0, entryInterval := false }
  else
    { (if x.judge.judgedState x.goodRun = x.state then x.judge else x.judge.enter (x.judge.judgedState x.goodRun)) with
      arrivals := 0, entryInterval := false }

theorem State.sourceIntervalEnd_eq (i : SourceId) (s : State) :
    s.sourceIntervalEnd i =
      if s.sources[i].state = .absent ∨ s.sources[i].entryInterval = true then
        s.setSource i s.sources[i].endsInterval
      else s.changeSource i s.sources[i].endsInterval := by
  unfold State.sourceIntervalEnd Source.endsInterval
  dsimp only
  split <;> rfl

theorem Source.judge_keeps (x : Source) :
    x.judge.state = x.state ∧ x.judge.channels = x.channels ∧ x.judge.adopted = x.adopted ∧
      x.judge.counters = x.counters ∧ x.judge.buffer = x.buffer ∧ x.judge.corrections = x.corrections ∧
      x.judge.prefill = x.prefill ∧ x.judge.lastArrivals = x.arrivals := by
  unfold Source.judge
  split <;> exact ⟨rfl, rfl, rfl, rfl, rfl, rfl, rfl, rfl⟩

/-- R15, R16: a judgement leads to UNUSABLE(RATE) or PREFILL, or leaves the state. -/
theorem Source.judgedState_cases (before : Nat) (x : Source) :
    x.judgedState before = x.state ∨ x.judgedState before = .prefill ∨ x.judgedState before = .unusable .rate := by
  unfold Source.judgedState
  split
  · split
    · exact .inr (.inr rfl)
    · exact .inl rfl
  · split
    · exact .inr (.inr rfl)
    · exact .inl rfl
  · split
    · exact .inr (.inl rfl)
    · exact .inl rfl
  · exact .inl rfl

/-- R15, R16: what the end of an interval leaves of the record of a source that it judges. -/
theorem Source.endsInterval_judged {x : Source} (present : x.state ≠ .absent) (whole : x.entryInterval = false) :
    x.endsInterval.state = x.judge.judgedState x.goodRun ∧ x.endsInterval.badRun = x.judge.badRun ∧
      x.endsInterval.goodRun = x.judge.goodRun ∧ x.endsInterval.lastArrivals = x.arrivals ∧
      (x.endsInterval.state = x.state →
        x.endsInterval.buffer = x.buffer ∧ x.endsInterval.corrections = x.corrections) ∧
      (x.endsInterval.state ≠ x.state → x.endsInterval.buffer = [] ∧ x.endsInterval.corrections = 0) := by
  obtain ⟨state, -, -, -, buffer, corrections, -, arrivals⟩ := Source.judge_keeps x
  have unjudged : ¬ (x.state = .absent ∨ x.entryInterval = true) := by simp [present, whole]
  unfold Source.endsInterval
  rw [if_neg unjudged]
  by_cases stays : x.judge.judgedState x.goodRun = x.state
  · rw [if_pos stays]
    exact ⟨state.trans stays.symm, rfl, rfl, arrivals, fun _ => ⟨buffer, corrections⟩, fun n => absurd state n⟩
  · rw [if_neg stays]
    have cases := Source.judgedState_cases x.goodRun x.judge
    rw [state] at cases
    rcases cases.resolve_left stays with led | led
    · rw [led] at stays ⊢
      exact ⟨rfl, rfl, rfl, arrivals, fun e => absurd e stays, fun _ => ⟨rfl, rfl⟩⟩
    · rw [led] at stays ⊢
      exact ⟨rfl, rfl, rfl, arrivals, fun e => absurd e stays, fun _ => ⟨rfl, rfl⟩⟩

/-- What the end of an interval leaves of every record. -/
theorem Source.endsInterval_keeps (x : Source) :
    x.endsInterval.channels = x.channels ∧ x.endsInterval.adopted = x.adopted ∧
      x.endsInterval.counters = x.counters ∧ x.endsInterval.prefill = x.prefill ∧ x.endsInterval.arrivals = 0 ∧
      x.endsInterval.entryInterval = false ∧ (x.state ≠ .running → x.endsInterval.state ≠ .running) := by
  obtain ⟨state, channels, adopted, counters, -, -, prefill, -⟩ := Source.judge_keeps x
  unfold Source.endsInterval
  split
  · exact ⟨rfl, rfl, rfl, rfl, rfl, rfl, id⟩
  · have cases := Source.judgedState_cases x.goodRun x.judge
    rw [state] at cases
    by_cases stays : x.judge.judgedState x.goodRun = x.state
    · rw [if_pos stays]
      exact ⟨channels, adopted, counters, prefill, rfl, rfl, fun n => by rw [state]; exact n⟩
    · rw [if_neg stays]
      rcases cases.resolve_left stays with led | led
      · rw [led]
        exact ⟨channels, adopted, counters, prefill, rfl, rfl, fun _ => nofun⟩
      · rw [led]
        exact ⟨channels, adopted, counters, prefill, rfl, rfl, fun _ => nofun⟩

theorem State.sourceIntervalEnd_turn (j : SourceId) (s : State) : s.turn j (s.sourceIntervalEnd j) := by
  obtain ⟨channels, -, -, -, -, -, out⟩ := Source.endsInterval_keeps s.sources[j]
  rw [State.sourceIntervalEnd_eq]
  split
  · next unjudged =>
    refine State.setSource_turn ?_ channels
    unfold Source.endsInterval
    rw [if_pos unjudged]
  · exact State.changeSource_turn channels out

theorem State.sourceIntervalEnd_same (j : SourceId) (s : State) :
    (s.sourceIntervalEnd j).sources[j] = s.sources[j].endsInterval := by
  rw [State.sourceIntervalEnd_eq]
  split
  · exact State.setSource_same j _ s
  · exact State.changeSource_same j _ s

/-- R14: the record of a source whose event SOURCE_ABSENT is taken. -/
def Source.absents (x : Source) : Source := if x.state ≠ .absent ∧ x.absence = 8 then x.enter .absent else x

theorem Source.absents_keeps (x : Source) : x.absents.channels = x.channels ∧ (x.state ≠ .running → x.absents.state ≠ .running) := by
  unfold Source.absents
  split
  · exact ⟨rfl, fun _ => nofun⟩
  · exact ⟨rfl, id⟩

theorem State.takeAbsent_eq (i : SourceId) (s : State) : s.takeAbsent i = s.changeSource i s.sources[i].absents := by
  unfold State.takeAbsent Source.absents
  dsimp only
  split
  · rfl
  · rw [State.changeSource_of_same rfl rfl, State.setSource_self]

theorem State.absentFirst_turn (j : SourceId) (s : State) : s.turn j (s.absentFirst j) := by
  unfold State.absentFirst
  split
  · refine State.turn.dropped (State.turn.redecided ?_)
    rw [State.takeAbsent_eq]
    obtain ⟨channels, out⟩ := Source.absents_keeps (s.onHub (Hub.dropDue (.sourceAbsent j))).sources[j]
    exact State.changeSource_turn channels out
  · exact State.turn_self j s

/-! ### The judgement written out (R15, R16) -/

/-- R15: an interval of `n` arrivals is good. -/
def rateGood (n : Nat) : Prop := 762 ≤ n ∧ n ≤ 774

theorem Source.judge_good {x : Source} (good : rateGood x.arrivals) :
    x.judge.badRun = 0 ∧ x.judge.goodRun = min 4 (x.goodRun + 1) := by
  have good : 762 ≤ x.arrivals ∧ x.arrivals ≤ 774 := good
  have yes : goodRate x.arrivals = true := decide_eq_true good
  unfold Source.judge
  rw [if_pos yes]
  exact ⟨rfl, rfl⟩

theorem Source.judge_bad {x : Source} (bad : ¬ rateGood x.arrivals) :
    x.judge.goodRun = 0 ∧ x.judge.badRun = min 2 (x.badRun + 1) := by
  have no : ¬ goodRate x.arrivals = true := fun yes => bad (show 762 ≤ _ ∧ _ ≤ 774 from of_decide_eq_true yes)
  unfold Source.judge
  rw [if_neg no]
  exact ⟨rfl, rfl⟩

/-- R15: two bad intervals in a row make a source that may play UNUSABLE(RATE). -/
theorem Source.judgedState_audible {x : Source} (state : x.state = .running ∨ x.state = .prefill) :
    (¬ rateGood x.arrivals ∧ 1 ≤ x.badRun → x.judge.judgedState x.goodRun = .unusable .rate) ∧
      (¬ (¬ rateGood x.arrivals ∧ 1 ≤ x.badRun) → x.judge.judgedState x.goodRun = x.state) := by
  have kept := (Source.judge_keeps x).1
  have second : x.judge.badRun = 2 ↔ ¬ rateGood x.arrivals ∧ 1 ≤ x.badRun := by
    by_cases good : rateGood x.arrivals
    · rw [(Source.judge_good good).1]
      exact ⟨nofun, fun c => absurd good c.1⟩
    · rw [(Source.judge_bad good).2]
      exact ⟨fun e => ⟨good, by omega⟩, fun c => by omega⟩
  unfold Source.judgedState
  rcases state with state | state
  · rw [kept, state]
    exact ⟨fun c => if_pos (second.2 c), fun c => if_neg fun e => c (second.1 e)⟩
  · rw [kept, state]
    exact ⟨fun c => if_pos (second.2 c), fun c => if_neg fun e => c (second.1 e)⟩

/-- R16: the fourth good interval in a row brings a source from UNUSABLE(RATE) to PREFILL, where its record may play. -/
theorem Source.judgedState_rate {x : Source} (state : x.state = .unusable .rate) :
    let fourth := rateGood x.arrivals ∧ x.goodRun = 3 ∧ ∀ r, x.adopted = some r → r.nonAudio = false ∧ r.rate = 2
    (fourth → x.judge.judgedState x.goodRun = .prefill) ∧
      (¬ fourth → x.judge.judgedState x.goodRun = .unusable .rate) := by
  obtain ⟨kept, -, adopted, -⟩ := Source.judge_keeps x
  have plays : playable x.adopted = true ↔ ∀ r, x.adopted = some r → r.nonAudio = false ∧ r.rate = 2 := by
    rcases x.adopted with _ | r
    · exact ⟨nofun, fun _ => rfl⟩
    · refine playable_some.trans ⟨fun c r' e => ?_, fun all => all r rfl⟩
      cases e; exact c
  have fourth : x.goodRun < 4 ∧ x.judge.goodRun = 4 ∧ playable x.judge.adopted = true ↔
      rateGood x.arrivals ∧ x.goodRun = 3 ∧ (∀ r, x.adopted = some r → r.nonAudio = false ∧ r.rate = 2) := by
    rw [adopted, plays]
    by_cases good : rateGood x.arrivals
    · rw [(Source.judge_good good).2]
      exact ⟨fun c => ⟨good, by omega, c.2.2⟩, fun c => ⟨by omega, by omega, c.2.2⟩⟩
    · rw [(Source.judge_bad good).1]
      exact ⟨fun c => absurd c.2.1 (by decide), fun c => absurd c.1 good⟩
  unfold Source.judgedState
  rw [kept, state]
  exact ⟨fun c => if_pos (fourth.2 c), fun c => if_neg fun e => c (fourth.1 e)⟩

theorem Source.judgedState_nonAudio {x : Source} (state : x.state = .unusable .nonAudio) :
    x.judge.judgedState x.goodRun = .unusable .nonAudio := by
  obtain ⟨kept, -⟩ := Source.judge_keeps x
  unfold Source.judgedState
  rw [kept, state]

/-! ### The two rounds -/

theorem State.changeSource_apart {i : SourceId} {y : Source} {s : State} (channels : y.channels = s.sources[i].channels)
    (out : s.sources[i].state ≠ .running → y.state ≠ .running) :
    (s.changeSource i y).hub.due.filter Due.apart = s.hub.due.filter Due.apart := by
  by_cases leaves : s.sources[i].state = .running ∧ y.state ≠ .running
  · exact (State.changeSource_passes leaves.1 leaves.2 channels).2.2
  · have alike : y.isRunning = s.sources[i].isRunning := by
      by_cases running : s.sources[i].state = .running
      · have on : y.state = .running := Classical.byContradiction fun gone => leaves ⟨running, gone⟩
        rw [Source.isRunning_iff.2 running, Source.isRunning_iff.2 on]
      · rw [Source.not_isRunning_iff.2 running, Source.not_isRunning_iff.2 (out running)]
    have only := State.changeSource_toldOnly (s := s) alike channels
    rw [Hub.toldOnly] at only
    rw [only]

/-- R14: the first round: the record of each source whose event waits. -/
theorem State.absentFirst_own (j : SourceId) (s : State) :
    (s.absentFirst j).sources[j] = (if Due.sourceAbsent j ∈ s.hub.due then s.sources[j].absents else s.sources[j]) ∧
      Due.sourceAbsent j ∉ (s.absentFirst j).hub.due := by
  unfold State.absentFirst
  by_cases waits : Due.sourceAbsent j ∈ s.hub.due
  · rw [if_pos waits, if_pos waits]
    let u := s.onHub (Hub.dropDue (.sourceAbsent j))
    obtain ⟨channels, out⟩ := Source.absents_keeps u.sources[j]
    obtain ⟨sources, -, -, -, -, -, -, -, -, -, -, due, -⟩ := State.redecide_frame (State.takeAbsent j) u
    have apart := State.changeSource_apart (s := u) channels out
    rw [← State.takeAbsent_eq] at apart
    refine ⟨?_, ?_⟩
    · change (u.redecide (State.takeAbsent j)).sources[j] = _
      rw [sources, State.takeAbsent_eq, State.changeSource_same]
      rfl
    · change Due.sourceAbsent j ∉ (u.redecide (State.takeAbsent j)).hub.due
      rw [due, Due.apart_mem rfl apart]
      exact fun c => ((Hub.mem_dropDue _ _ _).1 c).2 rfl
  · rw [if_neg waits, if_neg waits]
    exact ⟨rfl, waits⟩

/-- The sources' turns at the end of a measurement interval: those that become ABSENT, then all. -/
def State.intervalTurns (s : State) : State :=
  (s.eachSource State.absentFirst).redecide (State.eachSource State.sourceIntervalEnd)

theorem State.intervalEnd_of_running {s : State} (running : s.hub.clock.running = true) :
    s.intervalEnd = s.intervalTurns.onHub (Hub.clockInterval s.intervalTurns.sources) := if_pos running

theorem State.decideBlock_turn (j : SourceId) (s : State) : s.turn j (s.onHub (Hub.decideBlock s.sources)) :=
  ⟨fun _ _ => rfl, rfl, id, fun _ _ => Iff.rfl, Hub.keepsPosted_of_eq rfl, fun n => absurd rfl n, rfl, rfl,
    fun _ => ⟨rfl, rfl⟩, fun on off => absurd on off⟩

theorem State.intervalTurns_invariant {P : State → Prop} (keeps : ∀ j t v, State.turn j t v → P t → P v) {s : State}
    (h : P s) : P s.intervalTurns := by
  have first : P (s.eachSource State.absentFirst) :=
    State.eachSource_invariant (fun j t => keeps j t _ (State.absentFirst_turn j t)) h
  have second := State.eachSource_invariant (fun j t => keeps j t _ (State.sourceIntervalEnd_turn j t)) first
  unfold State.intervalTurns
  generalize s.eachSource State.absentFirst = t at second
  rcases State.redecide_cases (State.eachSource State.sourceIntervalEnd) t with ⟨-, -, is⟩ | ⟨-, is⟩
  · rw [is]
    generalize t.eachSource State.sourceIntervalEnd = u at second
    exact keeps 0 u _ (State.decideBlock_turn 0 u) second
  · rw [is]; exact second

/-- R14 to R16: every record after the turns. -/
theorem State.intervalTurns_record (s : State) (j : SourceId) :
    s.intervalTurns.sources[j] =
      Source.endsInterval (if Due.sourceAbsent j ∈ s.hub.due then s.sources[j].absents else s.sources[j]) := by
  have first := (State.eachSource_turns (f := State.absentFirst) (P := fun _ => True)
    (get := fun k t => (t.sources[k], decide (Due.sourceAbsent k ∈ t.hub.due)))
    (F := fun _ p => (if p.2 then p.1.absents else p.1, false)) (fun _ _ _ => trivial)
    (fun k t _ => by
      obtain ⟨record, gone⟩ := State.absentFirst_own k t
      simp [record, gone])
    (fun k m t _ other => by
      obtain ⟨others, -, -, apart, -⟩ := State.absentFirst_turn k t
      simp [others m other, apart m other])
    s trivial).2 j
  have second := (State.eachSource_turns (f := State.sourceIntervalEnd) (P := fun _ => True)
    (get := fun k t => t.sources[k]) (F := fun _ x => x.endsInterval) (fun _ _ _ => trivial)
    (fun k t _ => State.sourceIntervalEnd_same k t)
    (fun k m t _ other => (State.sourceIntervalEnd_turn k t).others m other)
    (s.eachSource State.absentFirst) trivial).2 j
  have record := congrArg Prod.fst first
  dsimp only at record second
  unfold State.intervalTurns
  rw [(State.redecide_frame _ _).1, second, record]
  simp only [decide_eq_true_eq]

/-! ### The clock at the end of an interval (R33 to R35) -/

theorem Hub.setClock_clock (c : Clock) (h : Hub) : (h.setClock c).clock = c := by
  simp [Hub.setClock, postIf, post]
  split <;> rfl

theorem Hub.clockInterval_keepsPosted (src : Vector Source 8) (h : Hub) : h.keepsPosted (h.clockInterval src) := by
  unfold Hub.clockInterval
  dsimp only
  split
  · split
    · exact Hub.keepsPosted_of_eq rfl
    · exact postIf_keepsPosted _ _ _
  · split
    · exact Hub.keepsPosted_of_eq rfl
    · exact postIf_keepsPosted _ _ _
  · exact Hub.keepsPosted_of_eq (by simp)
  · exact Hub.keepsPosted_of_eq rfl

/-- R35: an interval end in HOLDOVER is counted, and the eighth is an event. -/
theorem Hub.clockInterval_holdover {src : Vector Source 8} {h : Hub} (holdover : h.clock.state = .holdover) :
    (h.clockInterval src).clock = { h.clock with holdover := min 8 (h.clock.holdover + 1) } ∧
      (7 ≤ h.clock.holdover → Due.holdoverExpiry ∈ (h.clockInterval src).due) := by
  unfold Hub.clockInterval
  dsimp only
  rw [holdover]
  dsimp only
  refine ⟨by simp, fun seven => ?_⟩
  have eight : decide (8 ≤ h.clock.holdover + 1) = true := by simp; omega
  rw [eight]
  exact (Hub.mem_addDue _ _ _).2 (.inl rfl)

/-- R33, R34: an interval end in ACQUIRING or LOCKED. -/
theorem Hub.clockInterval_following {src : Vector Source 8} {h : Hub} {i : SourceId}
    (state : h.clock.state = .acquiring ∨ h.clock.state = .locked) (reference : h.clock.reference = some i) :
    let e := (src[i].fill : Int) - (src[i].prefill : Int)
    (h.clock.partialInterval = true → (h.clockInterval src).clock = { h.clock with partialInterval := false }) ∧
      (h.clock.partialInterval = false → (h.clockInterval src).clock =
        (h.clock.adjust src[i].lastArrivals e).judge (goodInterval src[i].lastArrivals e)) := by
  unfold Hub.clockInterval
  dsimp only
  rw [reference]
  rcases state with state | state <;>
  · rw [state]
    dsimp only
    refine ⟨fun part => ?_, fun whole => ?_⟩
    · rw [if_pos part]
    · rw [if_neg (by rw [whole]; exact Bool.false_ne_true), Hub.setClock_clock]

theorem Clock.judge_keeps (c : Clock) (good : Bool) :
    (c.judge good).period = c.period ∧ (c.judge good).lastAdjustment = c.lastAdjustment ∧
      (c.judge good).reference = c.reference := by
  unfold Clock.judge
  split
  · split <;> exact ⟨rfl, rfl, rfl⟩
  · exact ⟨rfl, rfl, rfl⟩
  · exact ⟨rfl, rfl, rfl⟩
  · exact ⟨rfl, rfl, rfl⟩

/-- R34: the judgement of an interval. -/
theorem Clock.judge_state {c : Clock} (good : Bool) (whole : c.partialInterval = false) :
    (c.state = .acquiring → good = true →
      (c.judge good).state = (if 7 ≤ c.good then .locked else .acquiring) ∧ (c.judge good).good = min 8 (c.good + 1)) ∧
    (c.state = .locked → good = true → (c.judge good).state = .locked) ∧
    (c.state = .acquiring ∨ c.state = .locked → good = false →
      (c.judge good).state = .acquiring ∧ (c.judge good).good = 0 ∧ (c.judge good).partialInterval = false) := by
  unfold Clock.judge
  refine ⟨fun state yes => ?_, fun state yes => ?_, fun state no => ?_⟩
  · subst yes
    rw [state]
    dsimp only
    by_cases eight : 8 ≤ c.good + 1
    · rw [if_pos eight, if_pos (show 7 ≤ c.good by omega)]
      exact ⟨rfl, by dsimp only; omega⟩
    · rw [if_neg eight, if_neg (show ¬ 7 ≤ c.good by omega)]
      exact ⟨rfl, by dsimp only; omega⟩
  · subst yes
    rw [state]
    exact state
  · subst no
    rcases state with state | state
    · rw [state]
      exact ⟨rfl, rfl, whole⟩
    · rw [state]
      exact ⟨rfl, rfl, rfl⟩

/-- R33, R34: an adjustment and its judgement. -/
theorem Clock.adjust_judge {c : Clock} (n : Nat) (e : Int) (state : c.state = .acquiring ∨ c.state = .locked)
    (whole : c.partialInterval = false) :
    let t := (c.adjust n e).judge (goodInterval n e)
    let p : Int := c.period - ((n : Int) - 768) * 2048 - e * 256
    let close := 767 ≤ (n : Int) ∧ (n : Int) ≤ 769 ∧ -2 ≤ e ∧ e ≤ 2
    (t.period : Int) = max 33520878 (min 33587986 p) ∧
      t.lastAdjustment = some ⟨n, e, decide (p < 33520878 ∨ 33587986 < p)⟩ ∧ t.reference = c.reference ∧
      (c.state = .acquiring → close →
        t.state = (if 7 ≤ c.good then .locked else .acquiring) ∧ t.good = min 8 (c.good + 1)) ∧
      (c.state = .locked → close → t.state = .locked) ∧
      (¬ close → t.state = .acquiring ∧ t.good = 0 ∧ t.partialInterval = false) := by
  obtain ⟨period, adjustment, reference⟩ := Clock.judge_keeps (c.adjust n e) (goodInterval n e)
  obtain ⟨acquires, stays, falls⟩ := Clock.judge_state (c := c.adjust n e) (goodInterval n e) whole
  have near : goodInterval n e = true ↔ 767 ≤ (n : Int) ∧ (n : Int) ≤ 769 ∧ -2 ≤ e ∧ e ≤ 2 := by
    unfold goodInterval
    rw [decide_eq_true_eq]
    omega
  dsimp only
  refine ⟨?_, adjustment, reference, fun on close => acquires on (near.2 close),
    fun on close => stays on (near.2 close), fun far => falls state ?_⟩
  · rw [period]
    change ((clampInt 33520878 33587986 (adjustedPeriod c.period n e)).toNat : Int) = _
    rw [Int.toNat_of_nonneg (by unfold clampInt; omega)]
    rfl
  · rw [← Bool.not_eq_true, near]
    exact far

end Sys2Proof.Machine
end

section
/-! SUPPORT. The end of a measurement interval (O31): the settlement. -/

namespace Sys2Proof.Machine

theorem Source.endsInterval_absent (x : Source) : (x.enter .absent).endsInterval = x.enter .absent := by
  unfold Source.endsInterval
  rw [if_pos (.inl rfl)]
  rfl

theorem Source.endsInterval_unjudged {x : Source} (unjudged : x.state = .absent ∨ x.entryInterval = true) :
    x.endsInterval = { x with arrivals := 0, entryInterval := false } := if_pos unjudged

/-- R15: where a source in RUNNING is after the end of an interval. -/
theorem Source.endsInterval_running {x : Source} (running : x.state = .running) :
    (x.entryInterval = false ∧ ¬ rateGood x.arrivals ∧ 1 ≤ x.badRun → x.endsInterval.state ≠ .running) ∧
      (¬ (x.entryInterval = false ∧ ¬ rateGood x.arrivals ∧ 1 ≤ x.badRun) → x.endsInterval.state = .running) := by
  have present : x.state ≠ .absent := by rw [running]; nofun
  cases entry : x.entryInterval with
  | true =>
    rw [Source.endsInterval_unjudged (.inr entry)]
    exact ⟨nofun, fun _ => running⟩
  | false =>
    rw [(Source.endsInterval_judged present entry).1]
    obtain ⟨falls, stays⟩ := Source.judgedState_audible (.inl running)
    exact ⟨fun c => by rw [falls c.2]; nofun, fun c => (stays fun d => c ⟨rfl, d⟩).trans running⟩

theorem State.intervalTurns_blocks (s : State) :
    s.intervalTurns.hub.lanes = s.hub.lanes ∧ s.intervalTurns.hub.protection = s.hub.protection ∧
      s.intervalTurns.hub.radio = s.hub.radio ∧ s.intervalTurns.hub.station = s.hub.station := by
  simp [State.intervalTurns]

/-- R30: the reference that the clock would take from the main zone. -/
theorem Hub.desiredReference_some {h : Hub} {i : SourceId} (desired : h.desiredReference = some i) :
    h.clock.mode = .auto ∧ h.zones.main.state ≠ .off ∧ h.zones.main.state ≠ .fadingOut .powerOff ∧
      h.zones.main.current = some i := by
  unfold Hub.desiredReference at desired
  split at desired
  · cases desired
  · cases desired
  · cases desired
  · next mode off power => exact ⟨mode, off, power, desired⟩

/-- R30: a main zone that is on, not powering down and not switching is audible, reconfigures or waits. -/
theorem audibleOf {x : ZoneState} (on : x ≠ .off) (powered : x ≠ .fadingOut .powerOff) (keeps : x ≠ .fadingOut .switch) :
    x = .playing ∨ x = .fadingIn ∨ x = .fadingOut .reconfigure ∨ x = .waiting := by
  cases x with
  | off => exact absurd rfl on
  | playing => exact .inl rfl
  | fadingIn => exact .inr (.inl rfl)
  | waiting => exact .inr (.inr (.inr rfl))
  | fadingOut k =>
    cases k with
    | switch => exact absurd rfl keeps
    | powerOff => exact absurd rfl powered
    | reconfigure => exact .inr (.inr (.inl rfl))

/-- Settles O31: the sources' turns leave their records judged, and what each turn keeps holds after all of them; then the
clock takes the interval. -/
theorem intervalEndsAdjustTheClock : Obligations.IntervalEndsAdjustTheClock := by
  refine ⟨fun s ready found running => ?_, fun s ready found holdover eight => ?_⟩
  · obtain ⟨quiet, awake⟩ := ready
    have none : s.hub.outbox = [] := quiet
    intro good gone fails
    let u := s.onHub (Hub.dropDue .intervalEnd)
    have takes : State.takeDue .intervalEnd u =
        u.intervalTurns.onHub (Hub.clockInterval u.intervalTurns.sources) :=
      State.intervalEnd_of_running (s := u) running
    obtain ⟨ports, index, pending, settings, tables⟩ := State.intervalEnd_frame u
    obtain ⟨t, run, tells, sources, hub⟩ := eventStep_tells found awake ports index pending
    rw [takes] at tells sources hub
    have records := State.intervalTurns_record u
    have keptBy (P : State → Prop) (keeps : ∀ j t v, State.turn j t v → P t → P v) (h : P u) : P u.intervalTurns :=
      State.intervalTurns_invariant keeps h
    have blocks := State.intervalTurns_blocks u
    change settingsOf (State.takeDue .intervalEnd u).hub.zones = _ at settings
    change (State.takeDue .intervalEnd u).hub.renderer.tables = _ at tables
    rw [takes] at settings tables
    generalize u.intervalTurns = v at tells blocks settings tables sources hub records keptBy
    have posted := Hub.clockInterval_keepsPosted v.sources v.hub
    have recordGone (i : SourceId) (leaves : gone i) : t.sources[i] = s.sources[i].enter .absent := by
      obtain ⟨waits, present, count⟩ := leaves
      rw [sources]
      refine (records i).trans ?_
      have waits' : Due.sourceAbsent i ∈ u.hub.due := (Hub.mem_dropDue .intervalEnd _ _).2 ⟨waits, nofun⟩
      rw [if_pos waits']
      change Source.endsInterval s.sources[i].absents = _
      unfold Source.absents
      rw [if_pos ⟨present, count⟩, Source.endsInterval_absent]
    have recordStays (i : SourceId) (stays : ¬ gone i) : t.sources[i] = s.sources[i].endsInterval := by
      rw [sources]
      refine (records i).trans ?_
      by_cases waits : Due.sourceAbsent i ∈ u.hub.due
      · rw [if_pos waits]
        change Source.endsInterval s.sources[i].absents = _
        unfold Source.absents
        rw [if_neg fun c => stays ⟨((Hub.mem_dropDue _ _ _).1 waits).1, c⟩]
      · rw [if_neg waits]
        rfl
    have lost (i : SourceId) (on : s.sources[i].state = .running) (leaves : gone i ∨ fails i) :
        v.sources[i].state ≠ .running := by
      have same : v.sources[i] = t.sources[i] := by rw [sources]; rfl
      rw [same]
      by_cases absent : gone i
      · rw [recordGone i absent]; nofun
      · rw [recordStays i absent]
        exact (Source.endsInterval_running on).1 (leaves.resolve_left absent)
    have kept (i : SourceId) (on : s.sources[i].state = .running) (stays : ¬ gone i) (well : ¬ fails i) :
        v.sources[i].state = .running := by
      have same : v.sources[i] = t.sources[i] := by rw [sources]; rfl
      rw [same, recordStays i stays]
      exact (Source.endsInterval_running on).2 well
    have tail (n : Notice) (told : Hub.hasPosted n u.hub v.hub) :
        n ∈ (v.onHub (Hub.clockInterval v.sources)).hub.outbox := by
      obtain ⟨ns, outbox, notice⟩ := told.after posted
      have outbox : (v.onHub (Hub.clockInterval v.sources)).hub.outbox = s.hub.outbox ++ ns := outbox
      rw [outbox, none]
      exact notice
    have clocks : t.hub.clock = (v.hub.clockInterval v.sources).clock := by rw [hub]; rfl
    have zones (z : ZoneId) : t.hub.zone z = v.hub.zone z := by
      rw [hub]
      exact Hub.zone_eq_of_zones (Hub.clockInterval_frame v.sources v.hub).1 z
    refine ⟨t, _, run, tells, fun i => ?_, fun i => ?_, fun layouts z i current on audible => ?_,
      fun i reference desired on leaves keeps follows => ?_, fun i reference desired on stays well follows => ?_,
      fun i reference desired off holdover => ?_, ?_⟩
    · by_cases leaves : gone i
      · rw [recordGone i leaves]
        exact ⟨rfl, rfl, rfl, rfl, rfl, fun _ => ⟨rfl, rfl, rfl, rfl, rfl⟩, fun n => absurd leaves n,
          fun n => absurd leaves n⟩
      · rw [recordStays i leaves]
        obtain ⟨channels, adopted, counters, -, arrivals, entry, -⟩ := Source.endsInterval_keeps s.sources[i]
        refine ⟨arrivals, entry, counters, adopted, channels, fun y => absurd y leaves,
          fun _ unjudged => Source.endsInterval_unjudged unjudged, fun _ present judged => ?_⟩
        obtain ⟨state, bad, goodRun, last, same, moved⟩ := Source.endsInterval_judged present judged
        refine ⟨last, fun well => ?_, fun ill => ?_, fun plays => ?_, fun rate => ?_, fun speech => ?_, same, moved⟩
        · obtain ⟨none', runs⟩ := Source.judge_good (x := s.sources[i]) well
          exact ⟨bad.trans none', goodRun.trans runs⟩
        · obtain ⟨none', runs⟩ := Source.judge_bad (x := s.sources[i]) ill
          exact ⟨goodRun.trans none', bad.trans runs⟩
        · obtain ⟨falls, stays⟩ := Source.judgedState_audible plays
          rw [state]
          by_cases second : ¬ rateGood s.sources[i].arrivals ∧ 1 ≤ s.sources[i].badRun
          · exact (falls second).trans (if_pos second).symm
          · exact (stays second).trans (if_neg second).symm
        · obtain ⟨rises, stays⟩ := Source.judgedState_rate rate
          rw [state]
          by_cases fourth : rateGood s.sources[i].arrivals ∧ s.sources[i].goodRun = 3 ∧
              ∀ r, s.sources[i].adopted = some r → r.nonAudio = false ∧ r.rate = 2
          · exact (rises fourth).trans (if_pos fourth).symm
          · exact (stays fourth).trans (if_neg fourth).symm
        · exact state.trans (Source.judgedState_nonAudio speech)
    · have told := keptBy (u.tellsState i) (fun _ _ _ turn => turn.tellsState)
        ⟨Hub.keepsPosted_of_eq rfl, rfl, fun n => absurd rfl n⟩
      intro moved
      have same : t.sources[i] = v.sources[i] := by rw [sources]; rfl
      rw [same] at moved ⊢
      exact tail _ (told.2.2 moved)
    · have heard := keptBy (u.hears z i) (fun _ _ _ turn => turn.hears audible)
        ⟨layouts, current, Hub.keepsPosted_of_eq rfl, fun _ => ⟨rfl, rfl⟩, fun off => absurd on off⟩
      obtain ⟨-, current', -, plays, waits⟩ := heard
      rw [zones]
      refine ⟨fun leaves => ?_, fun stays well => ?_⟩
      · obtain ⟨state, gain, count, notice⟩ := waits (lost i on leaves)
        exact ⟨state, current', gain, count, tail _ notice⟩
      · obtain ⟨state, gain⟩ := plays (kept i on stays well)
        exact ⟨state, current', gain⟩
    · obtain ⟨mode, on', powered, current⟩ := Hub.desiredReference_some desired
      have held := keptBy (u.holdsOver i) (fun _ _ _ turn => turn.holdsOver reference running mode)
        ⟨current, audibleOf on' powered keeps, fun _ => rfl, fun off => absurd on off⟩
      obtain ⟨-, -, -, clock⟩ := held
      have atLast : v.hub.clock = { s.hub.clock with state := .holdover, holdover := 0 } :=
        (clock (lost i on leaves)).trans (if_pos follows)
      rw [clocks, (Hub.clockInterval_holdover (src := v.sources) (h := v.hub) (by rw [atLast])).1, atLast]
      rfl
    · obtain ⟨-, -, -, current⟩ := Hub.desiredReference_some desired
      have held := keptBy (u.keepsClock i) (fun _ _ _ turn => turn.keepsClock reference)
        ⟨fun off => off, .inr ⟨current, rfl⟩⟩
      obtain ⟨-, ⟨-, off⟩ | ⟨-, clock⟩⟩ := held
      · exact absurd (kept i on stays well) off
      · have clock : v.hub.clock = s.hub.clock := clock
        obtain ⟨part, whole⟩ := Hub.clockInterval_following (src := v.sources) (h := v.hub) (i := i)
          (by rw [clock]; exact follows) (by rw [clock]; exact reference)
        rw [clock] at part whole
        rw [clocks]
        refine ⟨part, fun entire judged => ?_⟩
        have record : v.sources[i] = s.sources[i].endsInterval :=
          (show v.sources[i] = t.sources[i] from by rw [sources]; rfl).trans (recordStays i stays)
        obtain ⟨-, -, -, arrivals, buffer, -⟩ :=
          Source.endsInterval_judged (x := s.sources[i]) (by rw [on]; nofun) judged
        obtain ⟨-, -, -, prefill, -⟩ := Source.endsInterval_keeps s.sources[i]
        have same := buffer (((Source.endsInterval_running on).2 well).trans on.symm)
        have fill : v.sources[i].fill = s.sources[i].buffer.length := by rw [record]; exact congrArg List.length same.1
        rw [whole entire, fill, record, arrivals, prefill]
        have result := Clock.adjust_judge s.sources[i].arrivals
          ((s.sources[i].buffer.length : Int) - s.sources[i].prefill) follows entire
        obtain ⟨period, adjustment, reference', rest⟩ := result
        exact ⟨period, adjustment, reference'.trans reference, rest⟩
    · obtain ⟨-, -, -, current⟩ := Hub.desiredReference_some desired
      have held := keptBy (u.keepsClock i) (fun _ _ _ turn => turn.keepsClock reference)
        ⟨fun off => off, .inr ⟨current, rfl⟩⟩
      obtain ⟨-, ⟨on, -⟩ | ⟨-, clock⟩⟩ := held
      · exact absurd on off
      · have clock : v.hub.clock = s.hub.clock := clock
        obtain ⟨counts, expires⟩ := Hub.clockInterval_holdover (src := v.sources) (h := v.hub)
          (by rw [clock]; exact holdover)
        rw [clock] at counts expires
        exact ⟨clocks.trans counts, fun seven => by rw [hub]; exact expires seven⟩
    · have standby := keptBy (fun w => w.hub.standby = u.hub.standby) (fun _ _ _ turn same => turn.standby.trans same) rfl
      rw [hub]
      obtain ⟨-, -, -, lanes', protection', radio', station', standby'⟩ := Hub.clockInterval_frame v.sources v.hub
      obtain ⟨lanes, protection, radio, station⟩ := blocks
      exact ⟨lanes'.trans lanes, protection'.trans protection, radio'.trans radio, station'.trans station,
        standby'.trans standby, settings, tables⟩
  · obtain ⟨quiet, awake⟩ := ready
    have none : s.hub.outbox = [] := quiet
    let u := s.onHub (Hub.dropDue .holdoverExpiry)
    have expires : (State.takeDue .holdoverExpiry u).hub = u.hub.setClock u.hub.clock.enterFree :=
      if_pos ⟨holdover, Nat.le_of_eq eight.symm⟩
    obtain ⟨t, run, tells, sources, hub⟩ := eventStep_tells (d := .holdoverExpiry) found awake rfl rfl rfl
    have told : u.hub.setClock u.hub.clock.enterFree =
        post (clockStateNotice u.hub.clock.enterFree) { u.hub with clock := u.hub.clock.enterFree } := by
      have moved : u.hub.clock.enterFree.state ≠ u.hub.clock.state := fun e => by
        have e : ClockState.free = s.hub.clock.state := e
        rw [holdover] at e
        cases e
      unfold Hub.setClock
      rw [decide_eq_true (.inr (.inr (.inl moved)))]
      rfl
    rw [expires.trans told] at tells hub
    have outbox : (post (clockStateNotice u.hub.clock.enterFree) { u.hub with clock := u.hub.clock.enterFree }).outbox =
        [clockStateNotice t.hub.clock] := by
      rw [hub, post_outbox]
      exact (congrArg (· ++ _) none).trans (List.nil_append _)
    rw [outbox] at tells
    refine ⟨t, run, tells, sources, ?_⟩
    rw [hub]
    exact congrArg (fun o => ({ s.hub with
      clock := s.hub.clock.enterFree
      due := s.hub.due.filter fun d => decide (d ≠ .holdoverExpiry), outbox := o } : Hub)) none.symm

end Sys2Proof.Machine
end

section
/-! SUPPORT. What taking the pending intake changes leaves alone (O30): the course of the clock and the events that are no
zone's. -/

namespace Sys2Proof.Machine

/-! ### The course of the clock -/

/-- Whether the clock runs, and where it stands in its block and its interval. -/
def Clock.pace (c : Clock) : Bool × Nat × Nat := (c.running, c.blockPos, c.intervalPos)

@[simp] theorem Clock.enterHoldover_pace (c : Clock) : c.enterHoldover.pace = c.pace := rfl

@[simp] theorem Clock.acquire_pace (c : Clock) : c.acquire.pace = c.pace := by
  unfold Clock.acquire
  split <;> rfl

@[simp] theorem Clock.changeReference_pace (c : Clock) (reference : Option SourceId) (running : Bool) :
    (c.changeReference reference running).pace = c.pace := by
  unfold Clock.changeReference
  have kept (d : Clock) : Clock.pace { d with reference := reference } = d.pace := rfl
  split <;> simp only [kept, Clock.acquire_pace] <;> rfl

@[simp] theorem Hub.deriveReference_pace (src : Vector Source 8) (h : Hub) :
    (h.deriveReference src).clock.pace = h.clock.pace := by
  unfold Hub.deriveReference Hub.deriveReferenceWith
  dsimp only
  split <;> rw [Hub.setClock_clock]
  exact Clock.changeReference_pace _ _ _

@[simp] theorem Hub.followMain_pace (src : Vector Source 8) (z : ZoneId) (h : Hub) :
    (h.followMain src z).clock.pace = h.clock.pace := by
  unfold Hub.followMain
  split <;> simp

@[simp] theorem Hub.endFadeOut_pace (src : Vector Source 8) (z : ZoneId) (h : Hub) :
    (h.endFadeOut src z).clock.pace = h.clock.pace := by
  unfold Hub.endFadeOut
  split <;> simp

@[simp] theorem Hub.zoneSourceLeaves_pace (src : Vector Source 8) (i : SourceId) (z : ZoneId) (h : Hub) :
    (h.zoneSourceLeaves src i z).clock.pace = h.clock.pace := by
  unfold Hub.zoneSourceLeaves
  dsimp only
  repeat' split
  all_goals simp

@[simp] theorem Hub.referenceEnters_pace (i : SourceId) (h : Hub) : (h.referenceEnters i).clock.pace = h.clock.pace := by
  unfold Hub.referenceEnters
  split <;> simp [Hub.setClock_clock]

@[simp] theorem Hub.referenceLeaves_pace (i : SourceId) (h : Hub) : (h.referenceLeaves i).clock.pace = h.clock.pace := by
  unfold Hub.referenceLeaves
  split <;> simp [Hub.setClock_clock]

theorem Hub.sourceChanged_pace (src : Vector Source 8) (i : SourceId) (was b : Bool) (h : Hub) :
    (h.sourceChanged src i was b).clock.pace = h.clock.pace := by
  unfold Hub.sourceChanged
  dsimp only
  repeat' split
  all_goals simp

/-! ### The events that are no zone's -/

@[simp] theorem Hub.zoneSourceEnters_apart (i : SourceId) (z : ZoneId) (h : Hub) :
    (h.zoneSourceEnters i z).due.filter Due.apart = h.due.filter Due.apart := by
  unfold Hub.zoneSourceEnters
  dsimp only
  split <;> simp

@[simp] theorem Hub.rederive_apart (src : Vector Source 8) (h : Hub) :
    (h.rederive id src).due.filter Due.apart = h.due.filter Due.apart := by
  unfold Hub.rederive Hub.raiseItem
  dsimp only
  repeat' split
  all_goals simp

theorem Hub.sourceChanged_apart (src : Vector Source 8) (i : SourceId) (was b : Bool) (h : Hub) :
    (h.sourceChanged src i was b).due.filter Due.apart = h.due.filter Due.apart := by
  unfold Hub.sourceChanged
  dsimp only
  repeat' split
  all_goals simp

/-! ### A pending change taken -/

theorem State.changeSource_course (i : SourceId) (x : Source) (s : State) :
    (s.changeSource i x).hub.clock.pace = s.hub.clock.pace ∧
      (s.changeSource i x).hub.due.filter Due.apart = s.hub.due.filter Due.apart := by
  unfold State.changeSource
  simp only [Hub.sourceChanged_pace, Hub.sourceChanged_apart]
  simp

theorem State.takeChange_course (i : SourceId) (s : State) :
    (s.takeChange i).hub.clock.pace = s.hub.clock.pace ∧
      (s.takeChange i).hub.due.filter Due.apart = s.hub.due.filter Due.apart := by
  unfold State.takeChange
  dsimp only
  repeat' split
  all_goals simp [State.changeSource_course]

end Sys2Proof.Machine
end

section
/-! SUPPORT. The block start of the zones, the lanes, the protection records, Standby Control and the radio (O30): the record
of each, and the events that each finds. -/

namespace Sys2Proof.Machine

theorem Hub.mem_addDueIf (c : Bool) (d e : Due) (h : Hub) :
    e ∈ (h.addDueIf c d).due ↔ (e = d ∧ c = true) ∨ e ∈ h.due := by
  cases c <;> simp [Hub.addDueIf, Hub.mem_addDue]

/-- The events after a list of turns, each of which finds events by its own part alone. -/
theorem foldl_finds {ι α β : Type} {f : ι → β → β} {get : ι → β → α} {due : β → List Due}
    {finds : α → ι → Due → Prop} (own : ∀ i b e, e ∈ due (f i b) ↔ finds (get i b) i e ∨ e ∈ due b)
    (other : ∀ i j b, j ≠ i → get j (f i b) = get j b) (e : Due) :
    ∀ (l : List ι), l.Nodup → ∀ b,
      (e ∈ due (l.foldl (fun c i => f i c) b) ↔ (∃ i ∈ l, finds (get i b) i e) ∨ e ∈ due b) := by
  intro l
  induction l with
  | nil => simp
  | cons i l ih =>
    intro distinct b
    obtain ⟨fresh, distinct⟩ := List.nodup_cons.1 distinct
    have still : (∃ j ∈ l, finds (get j (f i b)) j e) ↔ ∃ j ∈ l, finds (get j b) j e :=
      exists_congr fun j => and_congr_right fun m => by rw [other i j b fun same => fresh (same ▸ m)]
    rw [List.foldl_cons, ih distinct (f i b), own, still]
    simp only [List.mem_cons, exists_eq_or_imp]
    rw [or_left_comm, or_assoc]

/-! ### The zones -/

/-- R42, R43, R57: the events that the block start of a zone finds. -/
def Zone.finds (x : Zone) (z : ZoneId) : Due → Prop
  | .fadeOutEnd w => w = z ∧ (∃ k, x.state = .fadingOut k) ∧ x.gain ≤ 3
  | .fadeInEnd w => w = z ∧ x.state = .fadingIn ∧ x.target - 4 ≤ x.gain ∧ x.gain ≤ x.target + 4
  | .noSignal w => w = z ∧ x.state = .waiting ∧ 2999 ≤ x.noSignal ∧ x.noSignalReported = false
  | _ => False

theorem stepTowards_eq {n : Int} (up : 0 < n) (x y : Int) : stepTowards n x y = y ↔ y - n ≤ x ∧ x ≤ y + n := by
  unfold stepTowards
  split <;> omega

theorem Hub.zoneBlockStart_due (z : ZoneId) (h : Hub) (e : Due) :
    e ∈ (h.zoneBlockStart z).due ↔ (h.zone z).finds z e ∨ e ∈ h.due := by
  have reach : max (-1 : Int) ((h.zone z).gain - 4) = -1 ↔ (h.zone z).gain ≤ 3 := by omega
  have long : min 3000 ((h.zone z).noSignal + 1) = 3000 ↔ 2999 ≤ (h.zone z).noSignal := by omega
  have there (t : Int) := stepTowards_eq (n := 4) (by decide) (h.zone z).gain t
  unfold Hub.zoneBlockStart Zone.blockStart
  cases state : (h.zone z).state <;> cases e <;>
    simp [state, Hub.mem_addDueIf, Zone.finds, Zone.target, reach, long, there]

theorem Hub.zoneBlockStart_same (z : ZoneId) (h : Hub) : (h.zoneBlockStart z).zone z = (h.zone z).blockStart := by
  unfold Hub.zoneBlockStart
  dsimp only
  split <;> simp [Hub.zone]

theorem Hub.zoneBlockStart_other (z w : ZoneId) (h : Hub) (other : w ≠ z) :
    (h.zoneBlockStart z).zone w = h.zone w := by
  have kept : (h.setZone z (h.zone z).blockStart).zone w = h.zone w := Hub.zone_setZone_other other _ h
  unfold Hub.zoneBlockStart
  dsimp only
  unfold Hub.zone at kept ⊢
  split <;> simpa using kept

/-- The zones' part of an output block start. -/
def Hub.zonesBlockStart (h : Hub) : Hub := [ZoneId.main, .z2, .z3].foldl (fun g z => g.zoneBlockStart z) h

theorem Hub.zonesBlockStart_zone (h : Hub) (z : ZoneId) : h.zonesBlockStart.zone z = (h.zone z).blockStart := by
  obtain ⟨-, each⟩ := foldl_turns (f := fun z g => Hub.zoneBlockStart z g) (get := fun z g => Hub.zone g z)
    (F := fun _ x => x.blockStart) (P := fun _ => True) (fun _ _ _ => trivial)
    (fun z g _ => Hub.zoneBlockStart_same z g) (fun z w g _ other => Hub.zoneBlockStart_other z w g other)
    [ZoneId.main, .z2, .z3] (by decide) h trivial
  exact (each z).trans (if_pos (by cases z <;> decide))

theorem Hub.zonesBlockStart_due (h : Hub) (e : Due) :
    e ∈ h.zonesBlockStart.due ↔ (∃ z, (h.zone z).finds z e) ∨ e ∈ h.due := by
  have found := foldl_finds (f := fun z g => Hub.zoneBlockStart z g) (get := fun z g => Hub.zone g z) (due := Hub.due)
    (finds := Zone.finds) (fun z g e => Hub.zoneBlockStart_due z g e)
    (fun z w g other => Hub.zoneBlockStart_other z w g other) e [ZoneId.main, .z2, .z3] (by decide) h
  have all (z : ZoneId) : z ∈ [ZoneId.main, .z2, .z3] := by cases z <;> decide
  simp only [all, true_and] at found
  exact found

@[simp] theorem Hub.zonesBlockStart_frame (h : Hub) :
    h.zonesBlockStart.clock = h.clock ∧ h.zonesBlockStart.decoder = h.decoder ∧
      h.zonesBlockStart.renderer = h.renderer ∧ h.zonesBlockStart.lanes = h.lanes ∧
      h.zonesBlockStart.protection = h.protection ∧ h.zonesBlockStart.radio = h.radio ∧
      h.zonesBlockStart.station = h.station ∧ h.zonesBlockStart.standby = h.standby ∧
      h.zonesBlockStart.outbox = h.outbox := by
  simp [Hub.zonesBlockStart]

/-! ### The lanes -/

/-- R110, R111, R114: the events that the block start of a lane finds. -/
def Lane.finds (x : Lane) (l : LaneId) : Due → Prop
  | .relayClosed m => m = l ∧ x.relay = .closing ∧ 49 ≤ x.timer
  | .rampEnd m => m = l ∧ ∃ k, x.ramp = some k ∧ 8 ≤ k
  | .relayOpened m => m = l ∧ x.relay = .opening ∧ 19 ≤ x.timer
  | .retryEnd m => m = l ∧ x.fault = .retry ∧ 1999 ≤ x.retryTimer
  | .tripExpiry m => m = l ∧ ∃ age ∈ x.trips, 59999 ≤ age
  | _ => False

theorem Lane.blockStart_counts (x : Lane) :
    (x.blockStart.relay = .closing ∧ x.blockStart.timer = 50 ↔ x.relay = .closing ∧ 49 ≤ x.timer) ∧
      (x.blockStart.ramp = some 9 ↔ ∃ k, x.ramp = some k ∧ 8 ≤ k) ∧
      (x.blockStart.relay = .opening ∧ x.blockStart.timer = 20 ↔ x.relay = .opening ∧ 19 ≤ x.timer) ∧
      (x.blockStart.fault = .retry ∧ x.blockStart.retryTimer = 2000 ↔ x.fault = .retry ∧ 1999 ≤ x.retryTimer) ∧
      ((∃ age ∈ x.blockStart.trips, 60000 ≤ age) ↔ ∃ age ∈ x.trips, 59999 ≤ age) := by
  unfold Lane.blockStart
  dsimp only
  refine ⟨and_congr_right fun relay => ?_, ?_, and_congr_right fun relay => ?_, and_congr_right fun fault => ?_, ?_⟩
  · rw [relay]
    dsimp only
    omega
  · rw [Option.map_eq_some_iff]
    exact exists_congr fun k => and_congr_right fun _ => by omega
  · rw [relay]
    dsimp only
    omega
  · rw [if_pos fault]
    omega
  · simp only [List.mem_map, exists_exists_and_eq_and]
    exact exists_congr fun age => and_congr_right fun _ => by omega

theorem Hub.laneBlockStart_due (l : LaneId) (h : Hub) (e : Due) :
    e ∈ (h.laneBlockStart l).due ↔ (h.lanes[l]).finds l e ∨ e ∈ h.due := by
  obtain ⟨closed, ramp, opened, retry, trips⟩ := Lane.blockStart_counts h.lanes[l]
  unfold Hub.laneBlockStart
  dsimp only
  simp only [Hub.mem_addDueIf, List.any_eq_true, decide_eq_true_eq, closed, ramp, opened, retry, trips, Hub.setLane_frame]
  cases e <;> simp [Lane.finds]

theorem Hub.laneBlockStart_same (l : LaneId) (h : Hub) : (h.laneBlockStart l).lanes[l] = h.lanes[l].blockStart := by
  simp [Hub.laneBlockStart]

theorem Hub.laneBlockStart_other (l m : LaneId) (h : Hub) (other : m ≠ l) :
    (h.laneBlockStart l).lanes[m] = h.lanes[m] := by
  have apart : l.val ≠ m.val := fun same => other (Fin.ext same).symm
  simp [Hub.laneBlockStart, apart]

theorem Hub.lanesBlockStart_lane (h : Hub) (l : LaneId) :
    (h.eachLane Hub.laneBlockStart).lanes[l] = h.lanes[l].blockStart :=
  (Hub.eachLane_turns (f := Hub.laneBlockStart) (get := fun m g => g.lanes[m]) (F := fun _ x => x.blockStart)
    (P := fun _ => True) (fun _ _ _ => trivial) (fun m g _ => Hub.laneBlockStart_same m g)
    (fun m n g _ other => Hub.laneBlockStart_other m n g other) h trivial).2 l

theorem Hub.lanesBlockStart_due (h : Hub) (e : Due) :
    e ∈ (h.eachLane Hub.laneBlockStart).due ↔ (∃ l : LaneId, (h.lanes[l]).finds l e) ∨ e ∈ h.due := by
  have found := foldl_finds (f := Hub.laneBlockStart) (get := fun m g => g.lanes[m]) (due := Hub.due)
    (finds := Lane.finds) Hub.laneBlockStart_due Hub.laneBlockStart_other e (List.finRange 11)
    (List.nodup_finRange 11) h
  simp only [List.mem_finRange, true_and] at found
  exact found

/-! ### The protection records and Standby Control -/

/-- R119, R124: the events that the block start of the protection records finds. -/
def Protection.finds (p : Protection) : Due → Prop
  | .temperature => 99 ≤ p.thermal.updateCount
  | .fanWindow => 999 ≤ p.fan.windowPos
  | _ => False

theorem Hub.protectionBlockStart_due (h : Hub) (e : Due) :
    e ∈ h.protectionBlockStart.due ↔ h.protection.finds e ∨ e ∈ h.due := by
  have update : min 100 (h.protection.thermal.updateCount + 1) = 100 ↔ 99 ≤ h.protection.thermal.updateCount := by omega
  have window : min 1000 (h.protection.fan.windowPos + 1) = 1000 ↔ 999 ≤ h.protection.fan.windowPos := by omega
  unfold Hub.protectionBlockStart Fan.blockStart
  dsimp only
  simp only [Hub.mem_addDueIf, decide_eq_true_eq, update, window]
  cases e <;> simp [Protection.finds]

/-- R189: the events that the block start of Standby Control finds. -/
def Standby.finds (x : Standby) : Due → Prop
  | .active => x.power = .waking ∧ 99 ≤ x.wakingCount
  | .powerOnDelayEnd => x.power = .active ∧ ∃ n, x.delay = .running n ∧ 1999 ≤ n
  | _ => False

theorem Standby.blockStart_counts (x : Standby) :
    (x.blockStart.power = .waking ∧ x.blockStart.wakingCount = 100 ↔ x.power = .waking ∧ 99 ≤ x.wakingCount) ∧
      (x.blockStart.power = .active ∧ x.blockStart.delay = .running 2000 ↔
        x.power = .active ∧ ∃ n, x.delay = .running n ∧ 1999 ≤ n) := by
  unfold Standby.blockStart
  dsimp only
  refine ⟨and_congr_right fun power => ?_, and_congr_right fun power => ?_⟩
  · rw [if_pos power]
    omega
  · rw [power]
    cases delay : x.delay with
    | running n =>
      simp only [PowerOnDelay.running.injEq, exists_eq_left']
      omega
    | _ => simp

theorem Hub.standbyBlockStart_due (h : Hub) (e : Due) :
    e ∈ h.standbyBlockStart.due ↔ h.standby.finds e ∨ e ∈ h.due := by
  obtain ⟨active, delay⟩ := Standby.blockStart_counts h.standby
  unfold Hub.standbyBlockStart
  dsimp only
  simp only [Hub.mem_addDueIf, decide_eq_true_eq, active, delay]
  cases e <;> simp [Standby.finds]

theorem Hub.standbyBlockStart_standby (h : Hub) : h.standbyBlockStart.standby = h.standby.blockStart := by
  simp [Hub.standbyBlockStart]

end Sys2Proof.Machine
end

section
/-! SUPPORT. The block start of the radio, the station data and the sources (O30): the record of each, and the events that
each finds. -/

namespace Sys2Proof.Machine

/-! ### The operation, the polls and the probe -/

/-- R136, R163: the count of an operation at an output block start. -/
def Radio.countOperation (r : Radio) (o : Operation) : Operation :=
  match o.phase with
  | .settle => { o with count := min (r.settleLength o.kind) (o.count + 1) }
  | .wait => { o with count := min 30 (o.count + 1) }
  | .status | .blend | .set | .measure | .data => o

/-- R149: whether the tuner is probed. -/
def Radio.probes (r : Radio) : Prop := r.online = false ∧ r.state ≠ .off ∧ r.op = none

/-- R136, R163, R150: the events that the operation and the polls find at a block start, and the probe (R149). -/
def Radio.finds (r : Radio) : Due → Prop
  | .settleEnd => ∃ k n, r.op = some ⟨k, .settle, n⟩ ∧ k.settleEvent = .settleEnd ∧ r.settleLength k ≤ n + 1
  | .followSettleEnd =>
    ∃ k n, r.op = some ⟨k, .settle, n⟩ ∧ k.settleEvent = .followSettleEnd ∧ r.settleLength k ≤ n + 1
  | .followWaitEnd => ∃ k n, r.op = some ⟨k, .wait, n⟩ ∧ 29 ≤ n
  | .dataPoll => r.polls = true ∧ 39 ≤ r.dataCount
  | .qualityPoll => r.polls = true ∧ 199 ≤ r.qualityCount
  | .linkProbe => r.probes ∧ 499 ≤ r.probeCount
  | _ => False

theorem Hub.operationBlockStart_radio (h : Hub) :
    h.operationBlockStart.radio = { h.radio with op := h.radio.op.map h.radio.countOperation } ∧
      h.operationBlockStart.station = h.station ∧ h.operationBlockStart.outbox = h.outbox := by
  have stays : h.radio.op.map h.radio.countOperation = h.radio.op →
      h.radio = { h.radio with op := h.radio.op.map h.radio.countOperation } := fun same => by rw [same]
  unfold Hub.operationBlockStart
  cases op : h.radio.op with
  | none => exact ⟨stays (by rw [op]; rfl) |>.trans (by rw [op]), rfl, rfl⟩
  | some o =>
    rw [op] at stays
    obtain ⟨kind, phase, count⟩ := o
    cases phase
    case settle | wait => simp [Radio.countOperation, Hub.setRadio]
    all_goals exact ⟨stays rfl, rfl, rfl⟩

theorem OpKind.settleEvent_cases (k : OpKind) : k.settleEvent = .settleEnd ∨ k.settleEvent = .followSettleEnd := by
  cases k <;> simp [OpKind.settleEvent]

theorem Hub.operationBlockStart_due (h : Hub) (e : Due) :
    e ∈ h.operationBlockStart.due ↔
      (match e with
        | .settleEnd => h.radio.finds .settleEnd
        | .followSettleEnd => h.radio.finds .followSettleEnd
        | .followWaitEnd => h.radio.finds .followWaitEnd
        | _ => False) ∨ e ∈ h.due := by
  unfold Hub.operationBlockStart
  cases op : h.radio.op with
  | none => cases e <;> simp [Radio.finds, op]
  | some o =>
    obtain ⟨kind, phase, count⟩ := o
    cases phase
    case settle =>
      dsimp only
      rw [Hub.mem_addDueIf, (Hub.setRadio_frame _ h).2.2.2.2.2.2.2.2.1]
      rcases kind.settleEvent_cases with event | event <;> cases e <;> simp [Radio.finds, op, event]
    case wait =>
      dsimp only
      rw [Hub.mem_addDueIf, (Hub.setRadio_frame _ h).2.2.2.2.2.2.2.2.1]
      cases e <;> simp [Radio.finds, op]
    all_goals cases e <;> simp [Radio.finds, op]

theorem Hub.pollBlockStart_radio (h : Hub) :
    h.pollBlockStart.radio =
        { h.radio with
          dataCount :=
            if h.radio.polls then (if 39 ≤ h.radio.dataCount then 0 else h.radio.dataCount + 1) else h.radio.dataCount
          qualityCount :=
            if h.radio.polls then (if 199 ≤ h.radio.qualityCount then 0 else h.radio.qualityCount + 1)
            else h.radio.qualityCount } ∧
      h.pollBlockStart.station = h.station ∧ h.pollBlockStart.outbox = h.outbox := by
  unfold Hub.pollBlockStart
  dsimp only
  split
  · simp [Hub.setRadio]
  · exact ⟨rfl, rfl, rfl⟩

theorem Hub.pollBlockStart_due (h : Hub) (e : Due) :
    e ∈ h.pollBlockStart.due ↔
      (match e with
        | .dataPoll => h.radio.finds .dataPoll
        | .qualityPoll => h.radio.finds .qualityPoll
        | _ => False) ∨ e ∈ h.due := by
  unfold Hub.pollBlockStart
  dsimp only
  split
  · next polls => cases e <;> simp [Hub.mem_addDueIf, Radio.finds, polls]
  · next silent => cases e <;> simp [Radio.finds, silent]

theorem Hub.probeBlockStart_radio (h : Hub) :
    (h.radio.probes →
        h.probeBlockStart.radio =
          { h.radio with probeCount := if 499 ≤ h.radio.probeCount then 0 else h.radio.probeCount + 1 }) ∧
      (¬ h.radio.probes → h.probeBlockStart.radio = h.radio) ∧
      h.probeBlockStart.station = h.station ∧ h.probeBlockStart.outbox = h.outbox := by
  unfold Hub.probeBlockStart Radio.probes
  dsimp only
  split
  · next probes => simp [Hub.setRadio, probes]
  · next silent => exact ⟨fun probes => absurd probes silent, fun _ => rfl, rfl, rfl⟩

theorem Hub.probeBlockStart_due (h : Hub) (e : Due) :
    e ∈ h.probeBlockStart.due ↔
      (match e with
        | .linkProbe => h.radio.finds .linkProbe
        | _ => False) ∨ e ∈ h.due := by
  unfold Hub.probeBlockStart
  dsimp only
  split
  · next probes => cases e <;> simp [Hub.mem_addDueIf, Radio.finds, Radio.probes, probes]
  · next silent => cases e <;> simp [Radio.finds, Radio.probes, silent]

/-! ### The radio as a whole -/

/-- R136, R149, R150, R163: the radio record at an output block start. -/
def Radio.blockStart (r : Radio) (probeCount : Nat) : Radio :=
  { r with
    op := r.op.map r.countOperation
    dataCount := if r.polls then (if 39 ≤ r.dataCount then 0 else r.dataCount + 1) else r.dataCount
    qualityCount := if r.polls then (if 199 ≤ r.qualityCount then 0 else r.qualityCount + 1) else r.qualityCount
    probeCount := probeCount }

theorem Hub.radioBlockStart_radio (h : Hub) :
    (h.radio.probes →
        h.radioBlockStart.radio =
          h.radio.blockStart (if 499 ≤ h.radio.probeCount then 0 else h.radio.probeCount + 1)) ∧
      (¬ h.radio.probes → h.radioBlockStart.radio = h.radio.blockStart h.radio.probeCount) ∧
      h.radioBlockStart.station = h.station.blockStart (decide (h.radio.state = .idle)) ∧
      h.radioBlockStart.outbox = h.outbox := by
  obtain ⟨opRadio, opStation, opOutbox⟩ := h.operationBlockStart_radio
  obtain ⟨pollRadio, pollStation, pollOutbox⟩ := h.operationBlockStart.pollBlockStart_radio
  obtain ⟨probed, unprobed, probeStation, probeOutbox⟩ := h.operationBlockStart.pollBlockStart.probeBlockStart_radio
  have same : h.operationBlockStart.pollBlockStart.radio = h.radio.blockStart h.radio.probeCount := by
    rw [pollRadio, opRadio]
    rfl
  have asks : (h.radio.blockStart h.radio.probeCount).probes ↔ h.radio.probes := by simp [Radio.probes, Radio.blockStart]
  rw [same, asks] at probed unprobed
  have state : h.operationBlockStart.pollBlockStart.probeBlockStart.radio.state = h.radio.state := by
    by_cases probes : h.radio.probes
    · rw [probed probes]
      rfl
    · rw [unprobed probes]
      rfl
  unfold Hub.radioBlockStart
  simp only [Hub.addDueIf_frame, Hub.setStation_frame, probeStation, pollStation, opStation, probeOutbox, pollOutbox,
    opOutbox, state, and_true]
  exact ⟨probed, unprobed, rfl⟩

/-- R162: whether the block start finds the follow trigger. -/
def Station.triggers (x : Station) (r : Radio) : Prop :=
  r.polls = true ∧ r.options.follow = true ∧ x.code ≠ none ∧ x.alternatives ≠ [] ∧
    (∃ n, x.weakRun = some n ∧ 1999 ≤ n) ∧ x.backOff ≤ 1

theorem Hub.followHonoured_blockStart {g h : Hub} (radio : ∃ n, g.radio = h.radio.blockStart n)
    (station : g.station = h.station.blockStart (decide (h.radio.state = .idle))) :
    g.followHonoured = true ↔ h.station.triggers h.radio := by
  obtain ⟨n, radio⟩ := radio
  unfold Hub.followHonoured Station.triggers Radio.polls
  rw [radio, station]
  unfold Radio.blockStart Station.blockStart
  by_cases idle : h.radio.state = .idle
  · have off : h.station.backOff - 1 = 0 ↔ h.station.backOff ≤ 1 := by omega
    simp [idle, off, Option.isSome_iff_ne_none, and_assoc]
  · simp [idle]

theorem Hub.radioBlockStart_due (h : Hub) (e : Due) :
    e ∈ h.radioBlockStart.due ↔ (e = .followTrigger ∧ h.station.triggers h.radio) ∨ h.radio.finds e ∨ e ∈ h.due := by
  have operation := h.operationBlockStart_due e
  have poll := h.operationBlockStart.pollBlockStart_due e
  have probe := h.operationBlockStart.pollBlockStart.probeBlockStart_due e
  obtain ⟨opRadio, -, -⟩ := h.operationBlockStart_radio
  obtain ⟨pollRadio, -, -⟩ := h.operationBlockStart.pollBlockStart_radio
  obtain ⟨probed, unprobed, station, -⟩ := h.radioBlockStart_radio
  have trigger : h.radioBlockStart.followHonoured = true ↔ h.station.triggers h.radio := by
    refine Hub.followHonoured_blockStart ?_ station
    by_cases probes : h.radio.probes
    · exact ⟨_, probed probes⟩
    · exact ⟨_, unprobed probes⟩
  have same : h.radioBlockStart.followHonoured =
      (h.operationBlockStart.pollBlockStart.probeBlockStart.setStation
        (h.operationBlockStart.pollBlockStart.probeBlockStart.station.blockStart
          (decide (h.operationBlockStart.pollBlockStart.probeBlockStart.radio.state = .idle)))).followHonoured := by
    unfold Hub.followHonoured Hub.radioBlockStart
    simp
  unfold Hub.radioBlockStart
  dsimp only
  rw [Hub.mem_addDueIf, ← same, trigger, (Hub.setStation_frame _ _).2.2.2.2.2.2.2.2.1, probe, poll, operation, pollRadio,
    opRadio]
  cases e <;> simp [Radio.finds, Radio.probes, Radio.polls]

end Sys2Proof.Machine
end

section
/-! SUPPORT. The output block start as a whole (O30): the sources' part, the clock's, and that of the blocks behind Source
Intake. -/

namespace Sys2Proof.Machine

/-! ### The sources -/

/-- R13, R14: the events that the block start of a source finds. -/
def Source.finds (x : Source) (i : SourceId) : Due → Prop
  | .sourceAbsent j => j = i ∧ x.blockStart.state ≠ .absent ∧ x.blockStart.absence = 8
  | .slipRestart j => j = i ∧ x.blockStart.state = .running ∧ x.blockStart.corrections = 24
  | _ => False

theorem State.sourceBlockStart_due (i : SourceId) (s : State) (e : Due) :
    e ∈ (s.sourceBlockStart i).hub.due ↔ (s.sources[i]).finds i e ∨ e ∈ s.hub.due := by
  unfold State.sourceBlockStart
  dsimp only
  simp only [Hub.mem_addDueIf, decide_eq_true_eq]
  cases e <;> simp [Source.finds]

theorem State.sourceBlockStart_same (i : SourceId) (s : State) :
    (s.sourceBlockStart i).sources[i] = s.sources[i].blockStart :=
  State.setSource_same i _ s

theorem State.sourceBlockStart_other (i j : SourceId) (s : State) (other : j ≠ i) :
    (s.sourceBlockStart i).sources[j] = s.sources[j] :=
  State.setSource_other _ s other

/-- The hub apart from the events that it has found. -/
def Hub.sansDue (h : Hub) : Hub := { h with due := [] }

theorem Hub.addDueIf_sansDue (c : Bool) (d : Due) (h : Hub) : (h.addDueIf c d).sansDue = h.sansDue := by
  unfold Hub.addDueIf Hub.addDue
  repeat' split
  all_goals rfl

theorem State.sourcesBlockStart_source (s : State) (i : SourceId) :
    (s.eachSource State.sourceBlockStart).sources[i] = s.sources[i].blockStart :=
  (State.eachSource_turns (f := State.sourceBlockStart) (get := fun j t => t.sources[j]) (F := fun _ x => x.blockStart)
    (P := fun _ => True) (fun _ _ _ => trivial) (fun j t _ => State.sourceBlockStart_same j t)
    (fun j k t _ other => State.sourceBlockStart_other j k t other) s trivial).2 i

theorem State.sourcesBlockStart_due (s : State) (e : Due) :
    e ∈ (s.eachSource State.sourceBlockStart).hub.due ↔ (∃ i : SourceId, (s.sources[i]).finds i e) ∨ e ∈ s.hub.due := by
  have found := foldl_finds (f := State.sourceBlockStart) (get := fun i t => t.sources[i]) (due := fun t => t.hub.due)
    (finds := Source.finds) State.sourceBlockStart_due State.sourceBlockStart_other e (List.finRange 8)
    (List.nodup_finRange 8) s
  simp only [List.mem_finRange, true_and] at found
  exact found

theorem State.sourcesBlockStart_hub (s : State) :
    (s.eachSource State.sourceBlockStart).hub.sansDue = s.hub.sansDue :=
  State.eachSource_keeps (fun t => t.hub.sansDue) State.sourceBlockStart
    (fun _ _ => (Hub.addDueIf_sansDue _ _ _).trans (Hub.addDueIf_sansDue _ _ _)) s

/-! ### The clock -/

theorem Hub.clockBlockStart_due (h : Hub) (e : Due) :
    e ∈ h.clockBlockStart.due ↔ (e = .intervalEnd ∧ 15 ≤ h.clock.intervalPos) ∨ e ∈ h.due := by
  unfold Hub.clockBlockStart
  dsimp only
  rw [Hub.mem_addDueIf]
  simp

theorem Hub.clockBlockStart_clock (h : Hub) :
    h.clockBlockStart.clock =
      { h.clock with
        blockPos := 0
        intervalPos := if 15 ≤ h.clock.intervalPos then 0 else h.clock.intervalPos + 1 } := by
  unfold Hub.clockBlockStart
  simp

/-! ### The blocks behind Source Intake -/

/-- R118 to R120, R124: the protection records at an output block start. -/
def Protection.blockStart (p : Protection) : Protection :=
  { p with
    nextChannel := some 0
    thermal := { p.thermal.stepCeiling with updateCount := min 100 (p.thermal.updateCount + 1) }
    fan := p.fan.blockStart }

theorem Hub.protectionBlockStart_protection (h : Hub) : h.protectionBlockStart.protection = h.protection.blockStart := by
  unfold Hub.protectionBlockStart
  simp only [Hub.addDueIf_frame]
  rfl

/-- The zones, the lanes, the protection records, Standby Control and the radio at an output block start. -/
def Hub.countsBlockStart (h : Hub) : Hub :=
  let b := h.zonesBlockStart.addDueIf h.zonesBlockStart.renderer.faultAdoption .faultLayout
  ((b.eachLane Hub.laneBlockStart).protectionBlockStart).standbyBlockStart.radioBlockStart

theorem Hub.blockStart_eq (src : Vector Source 8) (h : Hub) :
    h.blockStart src =
      Hub.latchOutputs
        (Hub.decideBlock src { h.countsBlockStart with decoder := h.countsBlockStart.decoder.blockStart }) := rfl

theorem Hub.countsBlockStart_due (h : Hub) (e : Due) :
    e ∈ h.countsBlockStart.due ↔
      (e = .followTrigger ∧ h.station.triggers h.radio) ∨ h.radio.finds e ∨ h.standby.finds e ∨ h.protection.finds e ∨
        (∃ l : LaneId, (h.lanes[l]).finds l e) ∨ (e = .faultLayout ∧ h.renderer.faultAdoption = true) ∨
        (∃ z, (h.zone z).finds z e) ∨ e ∈ h.due := by
  unfold Hub.countsBlockStart
  dsimp only
  rw [Hub.radioBlockStart_due, Hub.standbyBlockStart_due, Hub.protectionBlockStart_due, Hub.lanesBlockStart_due,
    Hub.mem_addDueIf, Hub.zonesBlockStart_due]
  simp

theorem Hub.countsBlockStart_zone (h : Hub) (z : ZoneId) : h.countsBlockStart.zone z = (h.zone z).blockStart := by
  have zones : h.countsBlockStart.zones = h.zonesBlockStart.zones := by simp [Hub.countsBlockStart]
  rw [← Hub.zonesBlockStart_zone]
  unfold Hub.zone
  rw [zones]

theorem Hub.countsBlockStart_lane (h : Hub) (l : LaneId) : h.countsBlockStart.lanes[l] = h.lanes[l].blockStart := by
  have lanes : h.countsBlockStart.lanes =
      ((h.zonesBlockStart.addDueIf h.zonesBlockStart.renderer.faultAdoption .faultLayout).eachLane
        Hub.laneBlockStart).lanes := by
    simp [Hub.countsBlockStart]
  rw [lanes, Hub.lanesBlockStart_lane]
  simp

theorem Hub.countsBlockStart_blocks (h : Hub) :
    h.countsBlockStart.clock = h.clock ∧ h.countsBlockStart.decoder = h.decoder ∧
      h.countsBlockStart.renderer = h.renderer ∧ h.countsBlockStart.protection = h.protection.blockStart ∧
      h.countsBlockStart.standby = h.standby.blockStart ∧
      h.countsBlockStart.station = h.station.blockStart (decide (h.radio.state = .idle)) ∧
      h.countsBlockStart.outbox = h.outbox ∧
      (h.radio.probes →
        h.countsBlockStart.radio =
          h.radio.blockStart (if 499 ≤ h.radio.probeCount then 0 else h.radio.probeCount + 1)) ∧
      (¬ h.radio.probes → h.countsBlockStart.radio = h.radio.blockStart h.radio.probeCount) := by
  unfold Hub.countsBlockStart
  dsimp only
  generalize start : h.zonesBlockStart.addDueIf h.zonesBlockStart.renderer.faultAdoption .faultLayout = b
  obtain ⟨probed, unprobed, station, outbox⟩ :=
    Hub.radioBlockStart_radio ((b.eachLane Hub.laneBlockStart).protectionBlockStart).standbyBlockStart
  have radio : (((b.eachLane Hub.laneBlockStart).protectionBlockStart).standbyBlockStart).radio = h.radio := by
    simp [← start]
  rw [radio] at probed unprobed station
  refine ⟨?_, ?_, ?_, ?_, ?_, ?_, ?_, probed, unprobed⟩
  · simp [← start]
  · simp [← start]
  · simp [← start]
  · simp [Hub.protectionBlockStart_protection, ← start]
  · simp [Hub.standbyBlockStart_standby, ← start]
  · rw [station]
    simp [← start]
  · rw [outbox]
    simp [← start]

end Sys2Proof.Machine
end

section
/-! SUPPORT. What an output block start decides for the block that begins (O30): the steering and the back-fill, the
effective indices; and the step as a whole. -/

namespace Sys2Proof.Machine

/-! ### The decoder -/

theorem backfill_eq (mode : ActiveMode) (set : Channels) (present : Bool) :
    backfill mode set present = (present && decide (mode = .matrix ∨ (mode = .direct ∧ set &&& 0xC0 = 0))) := by
  cases mode <;> cases present <;> simp [backfill]

/-- R79: the coefficients of a steering state. -/
theorem steeringOf_eq (dLr dCs : Int) :
    steeringOf dLr dCs =
      ⟨8192 + (max dCs 0).tdiv 4, 8192 + (max (-dCs) 0).tdiv 4, (max dCs 0).tdiv 2, 32768 + dLr, 32768 - dLr⟩ := by
  have pc : (if 0 < dCs then dCs else 0) = max dCs 0 := by split <;> omega
  have ps : (if dCs < 0 then -dCs else 0) = max (-dCs) 0 := by split <;> omega
  have wR : 65536 - (32768 + dLr) = 32768 - dLr := by omega
  unfold steeringOf
  dsimp only
  rw [pc, ps, wR]

theorem Decoder.blockStart_keeps (d : Decoder) : d.blockStart.active = d.active ∧ d.blockStart.source = d.source := by
  unfold Decoder.blockStart
  repeat' split
  all_goals exact ⟨rfl, rfl⟩

theorem Decoder.blockStart_of_apart {d : Decoder} (apart : d.active.mode ≠ .matrix ∨ d.newMode = true) :
    d.blockStart = { d with newMode := false } := by
  unfold Decoder.blockStart
  split
  · next matrix =>
    have new : d.newMode = true := apart.resolve_left fun n => n matrix
    rw [if_pos new]
  · rfl

theorem Decoder.blockStart_of_matrix {d : Decoder} (matrix : d.active.mode = .matrix) (old : d.newMode = false) :
    d.blockStart = { d.steer with newMode := false } := by
  unfold Decoder.blockStart Decoder.steer
  rw [matrix, old]
  rfl

/-! ### The effective indices -/

theorem effectiveIndex_none (gain trim : Int) :
    effectiveIndex gain trim none = if gain < 0 then -1 else max 0 (min 184 (min (gain + trim) 184)) := by
  unfold effectiveIndex clampInt
  split <;> dsimp only
  omega

theorem effectiveIndex_some (gain trim : Int) (ceiling : Nat) :
    effectiveIndex gain trim (some ceiling) =
      if gain < 0 then -1 else max 0 (min 184 (min (gain + trim) (ceiling : Int))) := rfl

theorem positionOf_of_zone :
    ∀ t : Fin 12, targetZone t = some .z2 ∨ targetZone t = some .z3 → positionOf t = none := by decide

theorem Renderer.trimOf_zone (r : Renderer) (t : Fin 12) :
    (targetZone t = some .z2 → r.trimOf t = r.trimZ2) ∧ (targetZone t = some .z3 → r.trimOf t = r.trimZ3) := by
  constructor
  · intro zone
    simp only [Renderer.trimOf, positionOf_of_zone t (.inl zone), zone]
  · intro zone
    simp only [Renderer.trimOf, positionOf_of_zone t (.inr zone), zone]

/-! ### The blocks behind Source Intake -/

theorem Hub.blockStart_kept (src : Vector Source 8) (h : Hub) :
    (h.blockStart src).zones = h.countsBlockStart.zones ∧ (h.blockStart src).lanes = h.countsBlockStart.lanes ∧
      (h.blockStart src).protection = h.countsBlockStart.protection ∧
      (h.blockStart src).radio = h.countsBlockStart.radio ∧ (h.blockStart src).station = h.countsBlockStart.station ∧
      (h.blockStart src).standby = h.countsBlockStart.standby ∧ (h.blockStart src).due = h.countsBlockStart.due ∧
      (h.blockStart src).outbox = h.countsBlockStart.outbox := by
  rw [Hub.blockStart_eq]
  generalize h.countsBlockStart = c
  simp

/-- R74: the decoder as an output block begins. -/
theorem Hub.blockStart_decoder (src : Vector Source 8) (h : Hub) :
    let set := h.decodeChannels src
    let fills (k : Nat) := backfill h.decoder.active.mode set (h.renderer.inForce.present.getLsbD k)
    (h.blockStart src).decoder = { h.decoder.blockStart with backfillL := fills 5, backfillR := fills 6 } := by
  intro set fills
  obtain ⟨-, decoder, renderer, -⟩ := h.countsBlockStart_blocks
  obtain ⟨active, source⟩ := h.decoder.blockStart_keeps
  have same : Hub.decodeChannels src { h.countsBlockStart with decoder := h.countsBlockStart.decoder.blockStart } = set := by
    unfold Hub.decodeChannels
    dsimp only
    rw [decoder, source]
    rfl
  rw [Hub.blockStart_eq, (Hub.latchOutputs_frame _).2.2.1]
  unfold Hub.decideBlock
  rw [same]
  dsimp only
  rw [decoder, renderer, active]

/-- R93: the output stage as an output block begins. -/
theorem Hub.blockStart_renderer (src : Vector Source 8) (h : Hub) :
    let k := h.blockStart src
    let w := h.renderer
    k.renderer =
      { w with
        governing := w.inForce
        laneDrives := k.renderer.laneDrives
        lineIndex :=
          ⟨effectiveIndex k.zones.main.gain w.sub.trim none, effectiveIndex k.zones.z2.gain w.trimZ2 none,
            effectiveIndex k.zones.z2.gain w.trimZ2 none, effectiveIndex k.zones.z3.gain w.trimZ3 none,
            effectiveIndex k.zones.z3.gain w.trimZ3 none⟩ } ∧
      ∀ l : LaneId, k.renderer.laneDrives[l] =
        ⟨k.lanes[l].assignment,
          effectiveIndex (k.gainOfTarget k.lanes[l].assignment) (w.trimOf k.lanes[l].assignment)
            (some k.protection.thermal.ceiling)⟩ := by
  intro k w
  obtain ⟨-, -, renderer, -⟩ := h.countsBlockStart_blocks
  obtain ⟨zones, lanes, protection, -⟩ := Hub.blockStart_kept src h
  have latched : k = Hub.latchOutputs
      (Hub.decideBlock src { h.countsBlockStart with decoder := h.countsBlockStart.decoder.blockStart }) :=
    Hub.blockStart_eq src h
  generalize h.countsBlockStart = c at *
  constructor
  · rw [latched]
    unfold Hub.latchOutputs Hub.decideBlock
    dsimp only
    rw [renderer]
  · intro l
    rw [latched]
    unfold Hub.latchOutputs Hub.decideBlock Hub.gainOfTarget Hub.zone
    simp only [renderer]
    simp
    rfl

/-! ### The step -/

theorem State.eachSource_of_fixed {f : SourceId → State → State} {s : State} (fixed : ∀ i, f i s = s) :
    s.eachSource f = s := by
  have all (l : List SourceId) : l.foldl (fun t i => f i t) s = s := by
    induction l with
    | nil => rfl
    | cons i l ih => rw [List.foldl_cons, fixed, ih]
  exact all _

theorem State.changesTaken_of_none {s : State} (none : ∀ i : SourceId, s.sources[i].change = none) :
    s.eachSource State.takeChange = s :=
  State.eachSource_of_fixed fun i => by
    unfold State.takeChange
    simp only [none i]

theorem Source.takeChange_change (x : Source) : x.takeChange.change = none := by
  unfold Source.takeChange
  split
  · next none => exact none
  · repeat' split
    all_goals rfl
  · split <;> rfl

theorem State.changesTaken_source (s : State) (i : SourceId) :
    (s.eachSource State.takeChange).sources[i].change = none := by
  have each := (State.eachSource_turns (f := State.takeChange) (get := fun j t => t.sources[j])
    (F := fun _ x => x.takeChange) (P := fun _ => True) (fun _ _ _ => trivial)
    (fun j t _ => State.takeChange_same j t) (fun j k t _ other => State.takeChange_other t other) s trivial).2 i
  rw [each]
  exact Source.takeChange_change _

theorem State.changesTaken_course (s : State) :
    (s.eachSource State.takeChange).hub.clock.pace = s.hub.clock.pace ∧
      (s.eachSource State.takeChange).hub.due.filter Due.apart = s.hub.due.filter Due.apart ∧
      (s.eachSource State.takeChange).hub.standby = s.hub.standby :=
  ⟨State.eachSource_keeps (fun t => t.hub.clock.pace) State.takeChange (fun i t => (State.takeChange_course i t).1) s,
    State.eachSource_keeps (fun t => t.hub.due.filter Due.apart) State.takeChange
      (fun i t => (State.takeChange_course i t).2) s,
    State.eachSource_keeps (fun t => t.hub.standby) State.takeChange (by simp) s⟩

theorem Source.blockStart_keeps (x : Source) : x.blockStart.change = x.change ∧ x.blockStart.channels = x.channels := by
  unfold Source.blockStart Source.slip Source.examineAbsence
  dsimp only
  repeat' split
  all_goals exact ⟨rfl, rfl⟩

/-- The part as the blocks behind Source Intake take an output block start, with the pending changes taken. -/
def State.intakeBlockStart (s : State) : State := (s.eachSource State.sourceBlockStart).onHub Hub.clockBlockStart

theorem State.blockStart_of_running {s : State} (running : s.hub.clock.running = true) :
    s.blockStart =
      (s.eachSource State.takeChange).intakeBlockStart.onHub
        (Hub.blockStart (s.eachSource State.takeChange).intakeBlockStart.sources) :=
  if_pos running

theorem Hub.blocks_of_sansDue {g h : Hub} (same : g.sansDue = h.sansDue) :
    g.clock = h.clock ∧ g.zones = h.zones ∧ g.decoder = h.decoder ∧ g.renderer = h.renderer ∧ g.lanes = h.lanes ∧
      g.protection = h.protection ∧ g.radio = h.radio ∧ g.station = h.station ∧ g.standby = h.standby ∧
      g.outbox = h.outbox := by
  simp only [Hub.sansDue, Hub.mk.injEq, true_and] at same
  exact same

theorem State.intakeBlockStart_hub (s : State) :
    let g := s.intakeBlockStart.hub
    let h := s.hub
    g.clock =
        { h.clock with
          blockPos := 0
          intervalPos := if 15 ≤ h.clock.intervalPos then 0 else h.clock.intervalPos + 1 } ∧
      g.zones = h.zones ∧ g.decoder = h.decoder ∧ g.renderer = h.renderer ∧ g.lanes = h.lanes ∧
      g.protection = h.protection ∧ g.radio = h.radio ∧ g.station = h.station ∧ g.standby = h.standby ∧
      g.outbox = h.outbox := by
  intro g h
  have same := State.sourcesBlockStart_hub s
  have ticks : g = (s.eachSource State.sourceBlockStart).hub.clockBlockStart := rfl
  have before : h = s.hub := rfl
  generalize (s.eachSource State.sourceBlockStart).hub = k at same ticks
  obtain ⟨zones, decoder, renderer, lanes, protection, radio, station, standby, outbox⟩ := k.clockBlockStart_frame
  obtain ⟨clock', blocks⟩ := Hub.blocks_of_sansDue same
  rw [ticks, Hub.clockBlockStart_clock, zones, decoder, renderer, lanes, protection, radio, station, standby, outbox, clock']
  exact ⟨rfl, blocks⟩

theorem State.intakeBlockStart_due (s : State) (e : Due) :
    e ∈ s.intakeBlockStart.hub.due ↔
      (e = .intervalEnd ∧ 15 ≤ s.hub.clock.intervalPos) ∨ (∃ i : SourceId, (s.sources[i]).finds i e) ∨ e ∈ s.hub.due := by
  have clock : (s.eachSource State.sourceBlockStart).hub.clock = s.hub.clock :=
    (Hub.blocks_of_sansDue (State.sourcesBlockStart_hub s)).1
  change e ∈ (s.eachSource State.sourceBlockStart).hub.clockBlockStart.due ↔ _
  rw [Hub.clockBlockStart_due, State.sourcesBlockStart_due, clock]

end Sys2Proof.Machine
end

section
/-! SUPPORT. What an output block start leaves behind (O30): the events found and the counts. -/

namespace Sys2Proof.Machine

/-- How an output block start of `s` proceeds: `m` holds the part with the pending changes taken, and `g` with the sources'
part and the clock's done, as the blocks behind Source Intake take it. -/
structure State.begins (s m g : State) : Prop where
  unchanged : (∀ i : SourceId, s.sources[i].change = none) → m = s
  taken : ∀ i : SourceId, m.sources[i].change = none
  pace : m.hub.clock.pace = s.hub.clock.pace
  apart : m.hub.due.filter Due.apart = s.hub.due.filter Due.apart
  blocks : m.hub.lanes = s.hub.lanes ∧ m.hub.protection = s.hub.protection ∧ m.hub.radio = s.hub.radio ∧
    m.hub.station = s.hub.station ∧ m.hub.standby = s.hub.standby
  sources : ∀ i : SourceId, g.sources[i] = m.sources[i].blockStart
  clock : g.hub.clock =
    { m.hub.clock with
      blockPos := 0
      intervalPos := if 15 ≤ m.hub.clock.intervalPos then 0 else m.hub.clock.intervalPos + 1 }
  kept : g.hub.zones = m.hub.zones ∧ g.hub.decoder = m.hub.decoder ∧ g.hub.renderer = m.hub.renderer ∧
    g.hub.lanes = m.hub.lanes ∧ g.hub.protection = m.hub.protection ∧ g.hub.radio = m.hub.radio ∧
    g.hub.station = m.hub.station ∧ g.hub.standby = m.hub.standby ∧ g.hub.outbox = m.hub.outbox
  due : ∀ e, e ∈ g.hub.due ↔
    (e = .intervalEnd ∧ 15 ≤ m.hub.clock.intervalPos) ∨ (∃ i : SourceId, (m.sources[i]).finds i e) ∨ e ∈ m.hub.due
  result : s.blockStart = g.onHub (Hub.blockStart g.sources)

theorem State.begins_of_running {s : State} (running : s.hub.clock.running = true) : ∃ m g, s.begins m g := by
  obtain ⟨pace, apart, standby⟩ := s.changesTaken_course
  obtain ⟨-, -, -, lanes, protection, radio, station, -⟩ := State.eachTakeChange_frame s
  have result := State.blockStart_of_running running
  have taken := s.changesTaken_source
  have unchanged := State.changesTaken_of_none (s := s)
  generalize s.eachSource State.takeChange = m at *
  obtain ⟨clock, kept⟩ := m.intakeBlockStart_hub
  have due := m.intakeBlockStart_due
  have sources (i : SourceId) : m.intakeBlockStart.sources[i] = m.sources[i].blockStart := State.sourcesBlockStart_source m i
  generalize m.intakeBlockStart = g at *
  exact ⟨m, g, unchanged, taken, pace, apart, ⟨lanes, protection, radio, station, standby⟩, sources, clock, kept, due, result⟩

theorem State.onHub_parts (f : Hub → Hub) (s : State) : (s.onHub f).hub = f s.hub ∧ (s.onHub f).sources = s.sources :=
  ⟨rfl, rfl⟩

variable {s m g : State}

theorem State.begins.pace_parts (b : s.begins m g) :
    m.hub.clock.running = s.hub.clock.running ∧ m.hub.clock.intervalPos = s.hub.clock.intervalPos := by
  have pace := b.pace
  simp only [Clock.pace, Prod.mk.injEq] at pace
  exact ⟨pace.1, pace.2.2⟩

/-! ### The events -/

theorem State.begins.mem_due (b : s.begins m g) (e : Due) :
    e ∈ s.blockStart.hub.due ↔
      (e = .followTrigger ∧ s.hub.station.triggers s.hub.radio) ∨ s.hub.radio.finds e ∨ s.hub.standby.finds e ∨
        s.hub.protection.finds e ∨ (∃ l : LaneId, (s.hub.lanes[l]).finds l e) ∨
        (e = .faultLayout ∧ m.hub.renderer.faultAdoption = true) ∨ (∃ z, (m.hub.zone z).finds z e) ∨
        (e = .intervalEnd ∧ 15 ≤ s.hub.clock.intervalPos) ∨ (∃ i : SourceId, (m.sources[i]).finds i e) ∨
        e ∈ m.hub.due := by
  obtain ⟨lanes', protection', radio', station', standby'⟩ := b.blocks
  obtain ⟨zones, -, renderer, lanes, protection, radio, station, standby, -⟩ := b.kept
  obtain ⟨-, -, -, -, -, -, due, -⟩ := Hub.blockStart_kept g.sources g.hub
  have zone (z : ZoneId) : g.hub.zone z = m.hub.zone z := by unfold Hub.zone; rw [zones]
  rw [b.result]
  change e ∈ (g.hub.blockStart g.sources).due ↔ _
  rw [due, Hub.countsBlockStart_due, b.due, station, radio, standby, protection, lanes, renderer, b.pace_parts.2, station',
    radio', standby', protection', lanes']
  simp only [zone]

/-- An event that is no zone's, at a block start that no other event awaits. -/
theorem State.begins.finds (b : s.begins m g) (quiet : s.hub.due = []) {e : Due} (apart : e.apart = true) :
    e ∈ s.blockStart.hub.due ↔
      (e = .followTrigger ∧ s.hub.station.triggers s.hub.radio) ∨ s.hub.radio.finds e ∨ s.hub.standby.finds e ∨
        s.hub.protection.finds e ∨ (∃ l : LaneId, (s.hub.lanes[l]).finds l e) ∨
        (e = .faultLayout ∧ m.hub.renderer.faultAdoption = true) ∨
        (e = .intervalEnd ∧ 15 ≤ s.hub.clock.intervalPos) ∨ ∃ i : SourceId, (m.sources[i]).finds i e := by
  have none : e ∉ m.hub.due := by
    rw [Due.apart_mem apart b.apart, quiet]
    exact List.not_mem_nil
  have silent (z : ZoneId) : ¬ (m.hub.zone z).finds z e := by
    intro found
    cases e <;> simp_all [Due.apart, Zone.finds]
  have found := b.mem_due e
  simp only [none, silent, exists_false, false_or, or_false] at found
  exact found

/-! ### The counts -/

/-- R110, R111, R114: a lane at a block start, and its events. -/
theorem State.begins.lane (b : s.begins m g) (quiet : s.hub.due = []) (l : LaneId) :
    s.blockStart.hub.lanes[l] = s.hub.lanes[l].blockStart ∧
      ∀ e : Due, e = .relayClosed l ∨ e = .rampEnd l ∨ e = .relayOpened l ∨ e = .retryEnd l ∨ e = .tripExpiry l →
        (e ∈ s.blockStart.hub.due ↔ (s.hub.lanes[l]).finds l e) := by
  obtain ⟨lanes', -⟩ := b.blocks
  obtain ⟨-, -, -, lanes, -⟩ := b.kept
  obtain ⟨-, kept, -⟩ := Hub.blockStart_kept g.sources g.hub
  constructor
  · rw [b.result]
    change (g.hub.blockStart g.sources).lanes[l] = _
    rw [kept, Hub.countsBlockStart_lane, lanes, lanes']
  · rintro e (rfl | rfl | rfl | rfl | rfl) <;> rw [b.finds quiet rfl] <;>
      simp [Radio.finds, Standby.finds, Protection.finds, Source.finds, Lane.finds]

/-- R118 to R120, R124, R149, R150, R162, R189: the other records that count. -/
theorem State.begins.counts (b : s.begins m g) :
    s.blockStart.hub.protection = s.hub.protection.blockStart ∧ s.blockStart.hub.standby = s.hub.standby.blockStart ∧
      s.blockStart.hub.station = s.hub.station.blockStart (decide (s.hub.radio.state = .idle)) ∧
      (s.hub.radio.probes →
        s.blockStart.hub.radio =
          s.hub.radio.blockStart (if 499 ≤ s.hub.radio.probeCount then 0 else s.hub.radio.probeCount + 1)) ∧
      (¬ s.hub.radio.probes → s.blockStart.hub.radio = s.hub.radio.blockStart s.hub.radio.probeCount) := by
  obtain ⟨-, protection', radio', station', standby'⟩ := b.blocks
  obtain ⟨-, -, -, -, protection, radio, station, standby, -⟩ := b.kept
  obtain ⟨-, -, keptProtection, keptRadio, keptStation, keptStandby, -⟩ := Hub.blockStart_kept g.sources g.hub
  obtain ⟨-, -, -, counted, stands, listens, -, probed, unprobed⟩ := g.hub.countsBlockStart_blocks
  rw [radio, radio'] at probed unprobed listens
  have hub : s.blockStart.hub = g.hub.blockStart g.sources := by
    rw [b.result, (State.onHub_parts _ g).1]
  rw [hub, keptProtection, keptRadio, keptStation, keptStandby, counted, stands, listens, protection, station, standby,
    protection', station', standby']
  exact ⟨rfl, rfl, rfl, probed, unprobed⟩

/-- R28: the clock's positions, and every pending intake change taken. -/
theorem State.begins.course (b : s.begins m g) (running : s.hub.clock.running = true) (quiet : s.hub.due = []) :
    (∀ i : SourceId, s.blockStart.sources[i].change = none) ∧ s.blockStart.hub.clock.running = true ∧
      s.blockStart.hub.clock.blockPos = 0 ∧
      s.blockStart.hub.clock.intervalPos =
        (if 15 ≤ s.hub.clock.intervalPos then 0 else s.hub.clock.intervalPos + 1) ∧
      (Due.intervalEnd ∈ s.blockStart.hub.due ↔ 15 ≤ s.hub.clock.intervalPos) := by
  obtain ⟨runs, interval⟩ := b.pace_parts
  have clock : s.blockStart.hub.clock = g.hub.clock := by
    rw [b.result]
    exact Hub.blockStart_frame _ _
  have sources : s.blockStart.sources = g.sources := by
    rw [b.result, (State.onHub_parts _ g).2]
  rw [clock, b.clock, sources, interval, runs]
  refine ⟨fun i => ?_, running, rfl, rfl, ?_⟩
  · rw [b.sources, (Source.blockStart_keeps _).1]
    exact b.taken i
  · rw [b.finds quiet rfl]
    simp [Radio.finds, Standby.finds, Protection.finds, Source.finds, Lane.finds]

end Sys2Proof.Machine
end

section
/-! SUPPORT. The records of a source and of a zone after an output block start at which no intake change waits (O30). -/

namespace Sys2Proof.Machine

/-! ### A source -/

/-- R14: the record of a source that has been examined and makes no correction. -/
def Source.examined (x : Source) : Source :=
  { x with
    arrival := false
    absence := if x.state = .absent ∨ x.arrival = true then 0 else min 8 (x.absence + 1)
    repeatHead := false }

theorem Source.examineAbsence_eq (x : Source) : { x.examineAbsence with repeatHead := false } = x.examined := by
  unfold Source.examineAbsence Source.examined
  by_cases absent : x.state = .absent <;> simp [absent]

/-- R14: a source in RUNNING stays where its absence count does not come to 8. -/
theorem Source.examineAbsence_stays {x : Source} (running : x.state = .running) :
    x.examineAbsence.absence < 8 ↔ x.arrival = true ∨ x.absence < 7 := by
  unfold Source.examineAbsence
  cases x.arrival <;> simp [running]

theorem Source.blockStart_of_idle {x : Source} (idle : x.state ≠ .running ∨ ¬ (x.arrival = true ∨ x.absence < 7)) :
    x.blockStart = x.examined := by
  have skips : (x.examineAbsence.isRunning && decide (x.examineAbsence.absence < 8)) = false := by
    by_cases running : x.state = .running
    · have leaves : ¬ x.examineAbsence.absence < 8 := fun stays =>
        idle.resolve_left (fun n => n running) ((Source.examineAbsence_stays running).1 stays)
      rw [decide_eq_false leaves, Bool.and_false]
    · have off : x.examineAbsence.isRunning = false := Source.not_isRunning_iff.2 running
      rw [off, Bool.false_and]
  unfold Source.blockStart
  dsimp only
  rw [skips]
  exact x.examineAbsence_eq

/-- R12: the correction of a source in RUNNING. -/
theorem Source.blockStart_of_running {x : Source} (running : x.state = .running)
    (stays : x.arrival = true ∨ x.absence < 7) :
    x.blockStart =
      { x.examined with
        repeatHead := decide (x.buffer.length ≤ 3)
        buffer := if 61 ≤ x.buffer.length then x.buffer.drop 1 else x.buffer
        counters :=
          if x.buffer.length ≤ 3 ∨ 61 ≤ x.buffer.length then { x.counters with slips := bump x.counters.slips }
          else x.counters
        corrections := if x.buffer.length ≤ 3 ∨ 61 ≤ x.buffer.length then min 24 (x.corrections + 1) else 0 } := by
  have on : x.examineAbsence.isRunning = true := Source.isRunning_iff.2 running
  have corrects : (x.examineAbsence.isRunning && decide (x.examineAbsence.absence < 8)) = true := by
    rw [on, decide_eq_true ((Source.examineAbsence_stays running).2 stays)]
    rfl
  unfold Source.blockStart
  dsimp only
  rw [corrects, if_pos rfl]
  unfold Source.slip Source.fill
  change (if x.buffer.length ≤ 3 then _ else if 61 ≤ x.buffer.length then _ else _) = _
  by_cases low : x.buffer.length ≤ 3
  · have high : ¬ 61 ≤ x.buffer.length := by omega
    simp only [low, high, if_true, if_false, true_or, decide_true]
    rw [← Source.examineAbsence_eq]
    rfl
  · by_cases high : 61 ≤ x.buffer.length
    · simp only [low, high, if_true, if_false, or_true, decide_false]
      rw [← Source.examineAbsence_eq]
      rfl
    · simp only [low, high, if_false, or_self, decide_false]
      rw [← Source.examineAbsence_eq]
      rfl

theorem Source.blockStart_state (x : Source) : x.blockStart.state = x.state := by
  unfold Source.blockStart Source.slip Source.examineAbsence
  dsimp only
  repeat' split
  all_goals rfl

theorem Source.blockStart_absence (x : Source) : x.blockStart.absence = x.examined.absence := by
  by_cases stays : x.state = .running ∧ (x.arrival = true ∨ x.absence < 7)
  · rw [Source.blockStart_of_running stays.1 stays.2]
  · rw [Source.blockStart_of_idle (not_and_or.1 stays)]

/-- R13, R14: the events that the block start of a source finds. -/
theorem Source.finds_iff (x : Source) (i : SourceId) :
    (x.finds i (.sourceAbsent i) ↔ x.state ≠ .absent ∧ ¬ (x.arrival = true ∨ x.absence < 7)) ∧
      (x.state ≠ .running → ¬ x.finds i (.slipRestart i)) ∧
      (x.state = .running → (x.arrival = true ∨ x.absence < 7) →
        (x.finds i (.slipRestart i) ↔ (x.buffer.length ≤ 3 ∨ 61 ≤ x.buffer.length) ∧ 23 ≤ x.corrections)) := by
  simp only [Source.finds, true_and, Source.blockStart_state, Source.blockStart_absence]
  refine ⟨and_congr_right fun present => ?_, fun off found => off found.1, fun running stays => ?_⟩
  · unfold Source.examined
    cases x.arrival <;> simp [present]
  · rw [Source.blockStart_of_running running stays]
    by_cases corrects : x.buffer.length ≤ 3 ∨ 61 ≤ x.buffer.length
    · simp only [running, corrects, if_true, true_and]
      omega
    · simp [corrects]

/-! ### A zone -/

/-- R42 to R44, R57: the record of a zone after a block start. -/
theorem Zone.blockStart_cases (x : Zone) :
    ((∃ k, x.state = .fadingOut k) → x.blockStart = { x with gain := max (-1) (x.gain - 4) }) ∧
      (x.state = .fadingIn → x.blockStart = { x with gain := stepTowards 4 x.gain x.target }) ∧
      (x.state = .playing →
        x.blockStart =
          { x with
            gain := stepTowards (if x.fast then 4 else 1) x.gain x.target
            fast := x.fast && decide (stepTowards (if x.fast then 4 else 1) x.gain x.target ≠ x.target) }) ∧
      (x.state = .waiting → x.blockStart = { x with noSignal := min 3000 (x.noSignal + 1) }) ∧
      (x.state = .off → x.blockStart = x) := by
  unfold Zone.blockStart
  refine ⟨?_, ?_, ?_, ?_, ?_⟩
  · rintro ⟨k, state⟩
    rw [state]
  all_goals
    intro state
    rw [state]

end Sys2Proof.Machine
end

section
/-! SUPPORT. The output block start block by block, in the words of O30. -/

namespace Sys2Proof.Machine

variable {s m g : State}

/-! ### What counts at every block start -/

theorem Lane.blockStart_eq (x : Lane) :
    x.blockStart =
      { x with
        timer :=
          match x.relay with
          | .closing => min 50 (x.timer + 1)
          | .opening => min 20 (x.timer + 1)
          | .open | .closed => x.timer
        ramp := x.ramp.map fun k => min 9 (k + 1)
        retryTimer := if x.fault = .retry then min 2000 (x.retryTimer + 1) else x.retryTimer
        trips := x.trips.map fun age => min 60000 (age + 1) } := by
  unfold Lane.blockStart
  cases x.relay <;> rfl

theorem State.begins.protection_due (b : s.begins m g) (quiet : s.hub.due = []) :
    (Due.temperature ∈ s.blockStart.hub.due ↔ 99 ≤ s.hub.protection.thermal.updateCount) ∧
      (Due.fanWindow ∈ s.blockStart.hub.due ↔ 999 ≤ s.hub.protection.fan.windowPos) := by
  rw [b.finds quiet rfl, b.finds quiet rfl]
  simp [Radio.finds, Standby.finds, Protection.finds, Source.finds, Lane.finds]

theorem State.begins.standby_due (b : s.begins m g) (quiet : s.hub.due = []) :
    (Due.active ∈ s.blockStart.hub.due ↔ s.hub.standby.power = .waking ∧ 99 ≤ s.hub.standby.wakingCount) ∧
      (Due.powerOnDelayEnd ∈ s.blockStart.hub.due ↔
        s.hub.standby.power = .active ∧ ∃ n, s.hub.standby.delay = .running n ∧ 1999 ≤ n) := by
  rw [b.finds quiet rfl, b.finds quiet rfl]
  simp [Radio.finds, Standby.finds, Protection.finds, Source.finds, Lane.finds]

theorem State.begins.radio_due (b : s.begins m g) (quiet : s.hub.due = []) {e : Due}
    (own : e = .settleEnd ∨ e = .followSettleEnd ∨ e = .followWaitEnd ∨ e = .dataPoll ∨ e = .qualityPoll ∨
      e = .linkProbe) : e ∈ s.blockStart.hub.due ↔ s.hub.radio.finds e := by
  rcases own with rfl | rfl | rfl | rfl | rfl | rfl <;> rw [b.finds quiet rfl] <;>
    simp [Standby.finds, Protection.finds, Source.finds, Lane.finds]

theorem State.begins.trigger_due (b : s.begins m g) (quiet : s.hub.due = []) :
    Due.followTrigger ∈ s.blockStart.hub.due ↔ s.hub.station.triggers s.hub.radio := by
  rw [b.finds quiet rfl]
  simp [Radio.finds, Standby.finds, Protection.finds, Source.finds, Lane.finds]

theorem Radio.polls_iff (r : Radio) : r.polls = true ↔ r.state = .idle ∧ r.held.band = .fm ∧ r.online = true := by
  simp [Radio.polls, and_assoc]

/-- R136, R138: the settle of an operation that is no follow. -/
theorem Radio.settleLength_apart (r : Radio) (k : OpKind) (apart : k.settleEvent = .settleEnd) :
    r.settleLength k = if (r.target k).band = .fm then 30 else 60 := by
  cases k with
  | follow => simp [OpKind.settleEvent] at apart
  | _ => simp only [Radio.settleLength]; split <;> simp_all

theorem OpKind.settleEvent_iff (k : OpKind) :
    (k.settleEvent = .followSettleEnd ↔
      ∃ level candidates position code asked, k = .follow level candidates position code asked) ∧
    (k.settleEvent = .settleEnd ↔
      ¬ ∃ level candidates position code asked, k = .follow level candidates position code asked) := by
  cases k <;> simp [OpKind.settleEvent]

/-! ### What follows where no intake change waits -/

/-- With no intake change waiting the block start begins with the part as it stands. -/
theorem State.begins.blocks_of_none (b : s.begins m g) (unasked : ∀ i : SourceId, s.sources[i].change = none) :
    s.blockStart.hub.outbox = s.hub.outbox ∧
      s.blockStart.hub.clock =
        { s.hub.clock with
          blockPos := 0
          intervalPos := if 15 ≤ s.hub.clock.intervalPos then 0 else s.hub.clock.intervalPos + 1 } ∧
      (∀ i : SourceId, s.blockStart.sources[i] = s.sources[i].blockStart) ∧
      ∀ z : ZoneId, s.blockStart.hub.zone z = (s.hub.zone z).blockStart := by
  have same := b.unchanged unasked
  subst same
  obtain ⟨zones, -, -, -, -, -, -, -, outbox⟩ := b.kept
  obtain ⟨zones', -, -, -, -, -, -, outbox'⟩ := Hub.blockStart_kept g.sources g.hub
  obtain ⟨-, -, -, -, -, -, outbox'', -⟩ := g.hub.countsBlockStart_blocks
  rw [b.result, (State.onHub_parts _ g).1, (State.onHub_parts _ g).2]
  refine ⟨?_, ?_, b.sources, fun z => ?_⟩
  · rw [outbox', outbox'', outbox]
  · rw [Hub.blockStart_frame, b.clock]
  · have zone : g.hub.zone z = m.hub.zone z := by unfold Hub.zone; rw [zones]
    have after : (g.hub.blockStart g.sources).zone z = g.hub.countsBlockStart.zone z := by unfold Hub.zone; rw [zones']
    rw [after, Hub.countsBlockStart_zone, zone]

theorem State.begins.source_due (b : s.begins m g) (quiet : s.hub.due = [])
    (unasked : ∀ i : SourceId, s.sources[i].change = none) (i : SourceId) :
    (Due.sourceAbsent i ∈ s.blockStart.hub.due ↔ (s.sources[i]).finds i (.sourceAbsent i)) ∧
      (Due.slipRestart i ∈ s.blockStart.hub.due ↔ (s.sources[i]).finds i (.slipRestart i)) ∧
      (Due.faultLayout ∈ s.blockStart.hub.due ↔ s.hub.renderer.faultAdoption = true) := by
  have same := b.unchanged unasked
  subst same
  rw [b.finds quiet rfl, b.finds quiet rfl, b.finds quiet rfl]
  simp [Radio.finds, Standby.finds, Protection.finds, Source.finds, Lane.finds]

theorem State.begins.zone_due (b : s.begins m g) (quiet : s.hub.due = [])
    (unasked : ∀ i : SourceId, s.sources[i].change = none) (z : ZoneId) {e : Due}
    (own : e = .fadeOutEnd z ∨ e = .fadeInEnd z ∨ e = .noSignal z) :
    e ∈ s.blockStart.hub.due ↔ (s.hub.zone z).finds z e := by
  have same := b.unchanged unasked
  subst same
  rw [b.mem_due, quiet]
  rcases own with rfl | rfl | rfl <;>
    simp [Radio.finds, Standby.finds, Protection.finds, Source.finds, Lane.finds, Zone.finds]

/-- R74, R78, R79: the decoder for the block that begins. -/
theorem State.begins.decoder (b : s.begins m g) (unasked : ∀ i : SourceId, s.sources[i].change = none) :
    s.blockStart.hub.decoder =
      { s.hub.decoder.blockStart with
        backfillL :=
          backfill s.hub.decoder.active.mode (s.hub.decodeChannels s.sources) (s.hub.renderer.inForce.present.getLsbD 5)
        backfillR :=
          backfill s.hub.decoder.active.mode (s.hub.decodeChannels s.sources)
            (s.hub.renderer.inForce.present.getLsbD 6) } := by
  have same := b.unchanged unasked
  subst same
  obtain ⟨-, decoder, renderer, -⟩ := b.kept
  have decided := Hub.blockStart_decoder g.sources g.hub
  have channels : g.hub.decodeChannels g.sources = m.hub.decodeChannels m.sources := by
    unfold Hub.decodeChannels
    rw [decoder]
    cases m.hub.decoder.source with
    | none => rfl
    | some i => exact (congrArg Source.channels (b.sources i)).trans (Source.blockStart_keeps _).2
  dsimp only at decided
  rw [channels, decoder, renderer] at decided
  rw [b.result, (State.onHub_parts _ g).1]
  exact decided

/-- R93: the output stage for the block that begins. -/
theorem State.begins.renderer (b : s.begins m g) (unasked : ∀ i : SourceId, s.sources[i].change = none) :
    s.blockStart.hub.renderer =
      { s.hub.renderer with
        governing := s.hub.renderer.inForce
        laneDrives := s.blockStart.hub.renderer.laneDrives
        lineIndex :=
          ⟨effectiveIndex s.blockStart.hub.zones.main.gain s.hub.renderer.sub.trim none,
            effectiveIndex s.blockStart.hub.zones.z2.gain s.hub.renderer.trimZ2 none,
            effectiveIndex s.blockStart.hub.zones.z2.gain s.hub.renderer.trimZ2 none,
            effectiveIndex s.blockStart.hub.zones.z3.gain s.hub.renderer.trimZ3 none,
            effectiveIndex s.blockStart.hub.zones.z3.gain s.hub.renderer.trimZ3 none⟩ } ∧
      ∀ l : LaneId, s.blockStart.hub.renderer.laneDrives[l] =
        ⟨s.hub.lanes[l].assignment,
          effectiveIndex (s.blockStart.hub.gainOfTarget s.hub.lanes[l].assignment)
            (s.hub.renderer.trimOf s.hub.lanes[l].assignment) (some s.blockStart.hub.protection.thermal.ceiling)⟩ := by
  have same := b.unchanged unasked
  subst same
  obtain ⟨-, -, renderer, lanes, -⟩ := b.kept
  obtain ⟨whole, drives⟩ := Hub.blockStart_renderer g.sources g.hub
  obtain ⟨-, kept, -⟩ := Hub.blockStart_kept g.sources g.hub
  have assignment (l : LaneId) : (g.hub.blockStart g.sources).lanes[l].assignment = m.hub.lanes[l].assignment := by
    rw [kept, Hub.countsBlockStart_lane, lanes]
    rfl
  rw [b.result, (State.onHub_parts _ g).1]
  rw [renderer] at whole drives
  generalize g.hub.blockStart g.sources = k at *
  refine ⟨whole, fun l => ?_⟩
  rw [drives l, assignment l]

end Sys2Proof.Machine
end

section
/-! PROOFS. An output block start (O30). -/

namespace Sys2Proof.Machine

theorem State.blockStart_of_stopped {s : State} (stopped : s.hub.clock.running = false) : s.blockStart = s := by
  unfold State.blockStart
  rw [stopped]
  rfl

theorem Radio.blockStart_of_polls {r : Radio} {polls : Prop} [Decidable polls] (same : r.polls = true ↔ polls) (n : Nat) :
    r.blockStart n =
      { r with
        op := r.op.map r.countOperation
        dataCount := if polls then (if 39 ≤ r.dataCount then 0 else r.dataCount + 1) else r.dataCount
        qualityCount := if polls then (if 199 ≤ r.qualityCount then 0 else r.qualityCount + 1) else r.qualityCount
        probeCount := n } := by
  unfold Radio.blockStart
  simp only [same]

theorem Station.blockStart_of_idle {idle : Prop} [Decidable idle] (x : Station) :
    x.blockStart (decide idle) =
      { x with
        backOff := x.backOff - 1
        weakRun := if idle then x.weakRun.map fun n => min 2000 (n + 1) else x.weakRun } := by
  unfold Station.blockStart
  simp only [decide_eq_true_eq]

/-- R93: the effective index of a lane by its target. -/
theorem Hub.driveIndex_eq (h : Hub) (w : Renderer) (t : Fin 12) (ceiling : Nat) :
    effectiveIndex (h.gainOfTarget t) (w.trimOf t) (some ceiling) =
      match targetZone t with
      | none => -1
      | some .main => effectiveIndex h.zones.main.gain (w.trimOf t) (some ceiling)
      | some .z2 => effectiveIndex h.zones.z2.gain w.trimZ2 (some ceiling)
      | some .z3 => effectiveIndex h.zones.z3.gain w.trimZ3 (some ceiling) := by
  obtain ⟨second, third⟩ := w.trimOf_zone t
  unfold Hub.gainOfTarget
  rcases zone : targetZone t with _ | _ | _ | _
  · rfl
  · rfl
  · rw [second zone]
    rfl
  · rw [third zone]
    rfl

/-- Settles O30: the part as it stands with OUTPUT_BLOCK_START dropped is settled, so the step is `State.blockStart`; that
begins with the intake changes, which leave the counting blocks and every event but a zone's, and each block then takes its
own turn. -/
theorem blockStartAdvancesEveryCount : Obligations.BlockStartAdvancesEveryCount := by
  intro s ready settled r x heat fan polls probes settle follows
  obtain ⟨delivered, awake⟩ := ready
  let u := s.onHub (Hub.dropDue .blockStart)
  have quiet : u.hub.due = [] := settled.1
  have still : u.settle = u := State.settle_of_settled settled
  obtain ⟨ports, index, pending, settings, tables⟩ := u.blockStart_frame
  obtain ⟨t, run, tells, sources, hub⟩ := event_tells
    (f := fun t : State => (t.onHub (Hub.dropDue .blockStart)).settle.blockStart) awake
    ((congrArg (fun v : State => v.blockStart.ports) still).trans ports)
    ((congrArg (fun v : State => v.blockStart.freeIndex) still).trans index)
    ((congrArg (fun v : State => v.blockStart.pending) still).trans pending)
  change s.tells t u.settle.blockStart.hub.outbox at tells
  change t.sources = u.settle.blockStart.sources at sources
  change t.hub = { u.settle.blockStart.hub with outbox := [] } at hub
  rw [still] at tells sources hub
  refine ⟨t, _, run, tells, fun stopped => ?_, fun running => ?_⟩
  · rw [State.blockStart_of_stopped (s := u) stopped] at sources hub ⊢
    refine ⟨delivered, sources, hub.trans ?_⟩
    change { s.hub with due := u.hub.due, outbox := [] } = _
    rw [quiet, ← show s.hub.outbox = [] from delivered]
  obtain ⟨m, g, b⟩ := State.begins_of_running (s := u) running
  obtain ⟨taken, runs, blockPos, intervalPos, interval⟩ := b.course running quiet
  obtain ⟨protection, standby, station, probed, unprobed⟩ := b.counts
  obtain ⟨temperature, window⟩ := b.protection_due quiet
  obtain ⟨active, delayEnd⟩ := b.standby_due quiet
  have lane := b.lane quiet
  have radioDue {e : Due} := b.radio_due quiet (e := e)
  have trigger := b.trigger_due quiet
  have unasked := b.blocks_of_none
  have sourceDue := b.source_due quiet
  have zoneDue := b.zone_due quiet
  have decoder := b.decoder
  have renderer := b.renderer
  rw [sources, hub]
  clear b still sources hub run tells
  generalize u.blockStart = v at *
  have pollsIff : s.hub.radio.polls = true ↔ polls := s.hub.radio.polls_iff
  have length (k : OpKind) : r.settleLength k = settle k := by
    cases k with
    | follow => rfl
    | _ => exact Radio.settleLength_apart r _ rfl
  have counted : s.hub.radio.op.map s.hub.radio.countOperation = r.op.map fun o =>
      match o.phase with
      | .settle => { o with count := min (settle o.kind) (o.count + 1) }
      | .wait => { o with count := min 30 (o.count + 1) }
      | .status | .blend | .set | .measure | .data => o := by
    refine congrArg (r.op.map ·) (funext fun o => ?_)
    unfold Radio.countOperation
    rw [length] <;> rfl
  refine ⟨taken, runs, blockPos, intervalPos, interval, fun l => ?_, protection, temperature, window, standby, active,
    delayEnd, ?_, ?_, ?_, ?_, ?_, ?_, ?_, station.trans ?_, ?_, settings, tables, fun none => ?_⟩
  · obtain ⟨own, found⟩ := lane l
    refine ⟨own.trans (Lane.blockStart_eq _), ?_, ?_, ?_, ?_, ?_⟩
    all_goals
      refine (found _ ?_).trans ?_
      · simp
      · simp only [Lane.finds, true_and]
        rfl
  · by_cases asks : r.probes
    · refine (probed asks).trans ((Radio.blockStart_of_polls pollsIff _).trans ?_)
      rw [counted, if_pos (show probes from asks)]
      rfl
    · refine (unprobed asks).trans ((Radio.blockStart_of_polls pollsIff _).trans ?_)
      rw [counted, if_neg (show ¬ probes from asks)]
      rfl
  · refine (radioDue (by simp)).trans (exists_congr fun k => exists_congr fun n => ?_)
    rw [(OpKind.settleEvent_iff k).2]
    exact and_congr_right fun _ => and_congr_right fun _ => by rw [← length]; rfl
  · refine (radioDue (by simp)).trans (exists_congr fun k => exists_congr fun n => ?_)
    rw [(OpKind.settleEvent_iff k).1]
    refine and_congr_right fun _ => and_congr_right fun follow => ?_
    obtain ⟨level, candidates, position, code, asked, rfl⟩ := follow
    exact Nat.succ_le_succ_iff
  · exact radioDue (by simp)
  · exact (radioDue (by simp)).trans (and_congr_left' pollsIff)
  · exact (radioDue (by simp)).trans (and_congr_left' pollsIff)
  · exact radioDue (by simp)
  · exact Station.blockStart_of_idle _
  · exact trigger.trans (and_congr_left' pollsIff)
  obtain ⟨outbox, clock, source, zone⟩ := unasked none
  obtain ⟨renderer, drive⟩ := renderer none
  refine ⟨outbox.trans delivered, clock, fun i => ?_, fun z => ?_, (sourceDue none 0).2.2, ?_, ?_, fun l => ?_⟩
  · obtain ⟨absent, slip, -⟩ := sourceDue none i
    obtain ⟨absent', unslipped, slip'⟩ := (s.sources[i]).finds_iff i
    refine ⟨fun idle => (source i).trans (Source.blockStart_of_idle idle),
      fun running stays => (source i).trans (Source.blockStart_of_running running stays), absent.trans absent',
      fun off found => unslipped off (slip.1 found), fun running stays => slip.trans (slip' running stays)⟩
  · obtain ⟨out, fadesIn, playing, waiting, off⟩ := (s.hub.zone z).blockStart_cases
    refine ⟨fun fades => (zone z).trans (out fades), (zoneDue none z (by simp)).trans ?_,
      fun fades => (zone z).trans (fadesIn fades), (zoneDue none z (by simp)).trans ?_,
      fun plays => (zone z).trans (playing plays), fun waits => (zone z).trans (waiting waits),
      (zoneDue none z (by simp)).trans ?_, fun silent => (zone z).trans (off silent)⟩
    all_goals simp only [Zone.finds, true_and]
    all_goals rfl
  · have decided := decoder none
    rw [backfill_eq, backfill_eq] at decided
    refine ⟨fun apart => decided.trans ?_, fun matrix old => decided.trans ?_⟩
    · rw [Decoder.blockStart_of_apart (d := u.hub.decoder) apart]
      rfl
    · rw [Decoder.blockStart_of_matrix (d := u.hub.decoder) matrix old, Decoder.steer, steeringOf_eq]
      rfl
  · simp only [effectiveIndex_none] at renderer
    exact renderer
  · have fixed := drive l
    refine ⟨congrArg LaneDrive.target fixed, (congrArg LaneDrive.index fixed).trans ?_⟩
    dsimp only
    rw [Hub.driveIndex_eq]
    rfl

end Sys2Proof.Machine
end

section
/-! SUPPORT. One sample through the part (O29): the delay lines, the folding, bass management and the output stage, each as
one expression. -/

namespace Sys2Proof.Machine

/-! ### Delay lines and products -/

theorem pushLine_eq {α : Type} (x d : α) (l : List α) : pushLine x l = ((l ++ [x]).drop 1, (l ++ [x]).headD d) := by
  cases l <;> rfl

theorem roundedProduct_one (x : Int) : roundedProduct x 32768 = x := by
  unfold roundedProduct
  omega

theorem magnitude_eq (x : Int) : magnitude x = x.natAbs := by
  unfold magnitude
  split <;> omega

theorem saturate_range (x : Int) : inSampleRange (saturate x) := by
  unfold inSampleRange saturate
  omega

/-! ### Folding (R89) -/

/-- R89: the front left bus before the last pass. -/
def Layout.leftBus (l : Layout) (f : Frame) : Int :=
  f.fl +
        (if l.present.getLsbD 3 then 0
        else roundedProduct f.sl 23170 + if l.present.getLsbD 5 then 0 else roundedProduct f.bl 23170) +
      (if l.present.getLsbD 2 then 0 else roundedProduct f.c 23170) +
    if l.sub then 0 else roundedProduct f.lfe 23170

/-- R89: the front right bus before the last pass. -/
def Layout.rightBus (l : Layout) (f : Frame) : Int :=
  f.fr +
        (if l.present.getLsbD 4 then 0
        else roundedProduct f.sr 23170 + if l.present.getLsbD 6 then 0 else roundedProduct f.br 23170) +
      (if l.present.getLsbD 2 then 0 else roundedProduct f.c 23170) +
    if l.sub then 0 else roundedProduct f.lfe 23170

/-- R89: the buses of the seven positions; that of a position which is not present is of no account. -/
def Layout.buses (l : Layout) (f : Frame) : Vector Int 7 :=
  #v[if l.present.getLsbD 1 then l.leftBus f else l.leftBus f + roundedProduct (l.rightBus f) 23170,
    if l.present.getLsbD 0 then l.rightBus f else l.rightBus f + roundedProduct (l.leftBus f) 23170, f.c,
    f.sl + (if l.present.getLsbD 5 then 0 else f.bl), f.sr + (if l.present.getLsbD 6 then 0 else f.br), f.bl, f.br]

theorem Buses.sidePasses (l : Layout) (b : Buses) :
    (b.pass1 l).pass2 l =
      { b with
        fl := b.fl +
          (if l.present.getLsbD 3 then 0
          else roundedProduct b.sl 23170 + if l.present.getLsbD 5 then 0 else roundedProduct b.bl 23170)
        fr := b.fr +
          (if l.present.getLsbD 4 then 0
          else roundedProduct b.sr 23170 + if l.present.getLsbD 6 then 0 else roundedProduct b.br 23170)
        sl := b.sl + if l.present.getLsbD 5 then 0 else if l.present.getLsbD 3 then b.bl else 0
        sr := b.sr + if l.present.getLsbD 6 then 0 else if l.present.getLsbD 4 then b.br else 0 } := by
  unfold Buses.pass1 Buses.pass2
  simp only [roundedProduct_one]
  cases l.present.getLsbD 5 <;> cases l.present.getLsbD 3 <;> cases l.present.getLsbD 6 <;>
    cases l.present.getLsbD 4 <;> simp [add_comm, add_left_comm]

theorem Buses.centrePass (l : Layout) (b : Buses) :
    b.pass3 l =
      { b with
        fl := b.fl + if l.present.getLsbD 2 then 0 else roundedProduct b.c 23170
        fr := b.fr + if l.present.getLsbD 2 then 0 else roundedProduct b.c 23170 } := by
  unfold Buses.pass3
  split <;> simp

theorem Buses.lfePass (l : Layout) (lfe : Sample) (b : Buses) :
    b.pass4 l lfe =
      { b with
        fl := b.fl + if l.sub then 0 else roundedProduct lfe 23170
        fr := b.fr + if l.sub then 0 else roundedProduct lfe 23170
        sub := b.sub + if l.sub then lfe else 0 } := by
  unfold Buses.pass4
  rw [roundedProduct_one]
  split <;> simp

/-- R89: the last pass, which folds a front position that is absent onto the other. -/
theorem Buses.frontPass (l : Layout) (b : Buses) :
    b.pass5 l =
      { b with
        fl :=
          if l.present.getLsbD 1 then b.fl
          else if l.present.getLsbD 0 then b.fl + roundedProduct b.fr 23170 else b.fl
        fr :=
          if l.present.getLsbD 0 then b.fr
          else if l.present.getLsbD 1 then b.fr + roundedProduct b.fl 23170 else b.fr } := by
  unfold Buses.pass5
  cases l.present.getLsbD 0 <;> cases l.present.getLsbD 1 <;> simp

theorem foldBuses_eq (l : Layout) (f : Frame) :
    foldBuses l f =
      Buses.pass5 l
        ⟨l.leftBus f, l.rightBus f, f.c, f.sl + (if l.present.getLsbD 5 then 0 else if l.present.getLsbD 3 then f.bl else 0),
          f.sr + (if l.present.getLsbD 6 then 0 else if l.present.getLsbD 4 then f.br else 0), f.bl, f.br,
          if l.sub then f.lfe else 0⟩ := by
  unfold foldBuses
  rw [Buses.sidePasses, Buses.centrePass, Buses.lfePass]
  simp [Layout.leftBus, Layout.rightBus]

theorem foldBuses_get (l : Layout) (f : Frame) (p : Position) (present : l.present.getLsbD p.val = true) :
    (foldBuses l f).get p = (l.buses f)[p] := by
  rw [foldBuses_eq, Buses.frontPass]
  unfold Buses.get Layout.buses
  match p with
  | 0 =>
    have here : l.present.getLsbD 0 = true := present
    simp only [here, if_true]
    rfl
  | 1 =>
    have here : l.present.getLsbD 1 = true := present
    simp only [here, if_true]
    rfl
  | 3 =>
    have here : l.present.getLsbD 3 = true := present
    simp only [here, if_true]
    rfl
  | 4 =>
    have here : l.present.getLsbD 4 = true := present
    simp only [here, if_true]
    rfl
  | 2 | 5 | 6 => rfl

/-- R89, R92: the sample of a position and the SUB bus after folding. -/
theorem folded_eq (l : Layout) (f : Frame) :
    (∀ p : Position,
      (folded l f).1[p] = if l.valid && l.present.getLsbD p.val then saturate (l.buses f)[p] else 0) ∧
      (folded l f).2 = if l.valid then (if l.sub then f.lfe else 0) else 0 := by
  have sub : (foldBuses l f).sub = if l.sub then f.lfe else 0 := by
    rw [foldBuses_eq, Buses.frontPass]
  unfold folded
  cases l.valid
  · simp
  · refine ⟨fun p => ?_, sub⟩
    by_cases present : l.present.getLsbD p.val = true
    · simp [present, ← foldBuses_get l f p present]
    · have off : l.present[p.val] = false := by simpa using present
      simp [off]

/-! ### Bass management and the distance delays (R90 to R92) -/

/-- R90: the new filter state of a position. -/
def Renderer.low (r : Renderer) (f : Frame) (p : Position) : Int :=
  let l := r.governing
  if l.bass.getLsbD p.val then lowPass l.coefficient r.filters[p] (folded l f).1[p] else r.filters[p]

/-- R90, R92: what the delay line of a position takes. -/
def Renderer.managed (r : Renderer) (f : Frame) (p : Position) : Int :=
  let l := r.governing
  if l.valid = false then 0
  else if l.bass.getLsbD p.val then saturate ((folded l f).1[p] - r.low f p) else (folded l f).1[p]

/-- R90, R92: what the delay line of the SUB output takes. -/
def Renderer.subManaged (r : Renderer) (f : Frame) : Int :=
  let l := r.governing
  if l.valid then
    saturate ((folded l f).2 + ((List.finRange 7).map fun p => if l.bass.getLsbD p.val then r.low f p else 0).sum)
  else 0

theorem bassManaged_low (r : Renderer) (f : Frame) (p : Position) :
    (bassManaged r.governing r.filters (folded r.governing f).1 (folded r.governing f).2).1[p] = r.low f p := by
  simp [bassManaged, Renderer.low]

theorem bassManaged_gated (r : Renderer) (f : Frame) :
    let b := bassManaged r.governing r.filters (folded r.governing f).1 (folded r.governing f).2
    (∀ p : Position, gated r.governing b.2.1[p] = r.managed f p) ∧ gated r.governing b.2.2 = r.subManaged f := by
  intro b
  constructor
  · intro p
    unfold gated Renderer.managed
    cases valid : r.governing.valid <;> simp [b, bassManaged, Renderer.low, valid]
  · unfold gated Renderer.subManaged
    cases valid : r.governing.valid <;> simp [b, bassManaged, Renderer.low, valid]

/-- R89 to R92: the renderer after a frame, and what leaves it. -/
theorem Renderer.render_eq (r : Renderer) (f : Frame) :
    let g := r.render f
    let l := r.governing
    (∀ p : Position, g.1.filters[p] = r.low f p ∧ g.1.lines[p] = (r.lines[p] ++ [r.managed f p]).drop 1 ∧
      g.2.1[p] = if l.valid then (r.lines[p] ++ [r.managed f p]).headD 0 else 0) ∧
      g.1.subLine = (r.subLine ++ [r.subManaged f]).drop 1 ∧
      (g.2.2 = if l.valid then (r.subLine ++ [r.subManaged f]).headD 0 else 0) ∧
      g.1 = { r with filters := g.1.filters, lines := g.1.lines, subLine := g.1.subLine } := by
  intro g l
  obtain ⟨managed, sub⟩ := bassManaged_gated r f
  have line (p : Position) :
      g.1.filters[p] = r.low f p ∧ g.1.lines[p] = (pushLine (r.managed f p) r.lines[p]).1 ∧
        g.2.1[p] = gated l (pushLine (r.managed f p) r.lines[p]).2 := by
    rw [← managed p, ← bassManaged_low]
    simp [g, l, Renderer.render]
  have subLine : g.1.subLine = (pushLine (r.subManaged f) r.subLine).1 ∧
      g.2.2 = gated l (pushLine (r.subManaged f) r.subLine).2 := by
    rw [← sub]
    exact ⟨rfl, rfl⟩
  simp only [pushLine_eq _ (0 : Int)] at line subLine
  exact ⟨line, subLine.1, subLine.2, rfl⟩

/-- 5.1: the coefficient of the crossover that is in force. -/
theorem Layout.coefficient_eq (l : Layout) :
    l.coefficient = match l.crossover with | none => 0 | some c => ([256, 341, 426, 511, 637] : List Int).getD c 0 := by
  unfold Layout.coefficient crossoverCoefficient
  cases l.crossover with
  | none => rfl
  | some c =>
    match c with
    | 0 | 1 | 2 | 3 | 4 => rfl
    | n + 5 => rfl

end Sys2Proof.Machine
end

section
/-! SUPPORT. An output sample period (O29): the sources read, the zones' lines, the decoder, the outputs, and its end. -/

namespace Sys2Proof.Machine

/-! ### The sources (R2, R11, R12) -/

theorem Source.read_of_off {x : Source} (off : x.state ≠ .running) : x.read = ({ x with repeatHead := false }, Frame.zero) := by
  unfold Source.read
  rw [Source.not_isRunning_iff.2 off]
  rfl

theorem Source.read_of_empty {x : Source} (running : x.state = .running) (empty : x.buffer = []) :
    x.read =
      ({ x with
          repeatHead := false
          counters := { x.counters with underruns := bump x.counters.underruns } },
        x.lastRead.getD (unreadFrame x.counters.underruns x.channels)) := by
  unfold Source.read
  rw [Source.isRunning_iff.2 running, if_pos rfl]
  simp only [empty]

theorem Source.read_of_head {x : Source} {f : Frame} {rest : List Frame} (running : x.state = .running)
    (head : x.buffer = f :: rest) :
    x.read =
      ({ x with
          buffer := if x.repeatHead then f :: rest else rest
          repeatHead := false
          lastRead := some f }, f) := by
  unfold Source.read
  rw [Source.isRunning_iff.2 running, if_pos rfl]
  simp only [head]

/-- R2, R20: what source `i` hands the zones. -/
theorem handed_cases (i : SourceId) (mute : Bool) (x : Source) :
    (x.state ≠ .running ∨ (i.val = 6 ∧ mute = true) → handed i mute x = Frame.zero) ∧
      (x.state = .running → ¬ (i.val = 6 ∧ mute = true) →
        (∀ f rest, x.buffer = f :: rest → handed i mute x = f) ∧
          ∀ f, x.buffer = [] → x.lastRead = some f → handed i mute x = f) := by
  have tuner : (i = tunerId ∧ mute = true) ↔ (i.val = 6 ∧ mute = true) := and_congr_left' Fin.ext_iff
  unfold handed
  simp only [tuner]
  refine ⟨fun silent => ?_, fun running heard => ?_⟩
  · by_cases muted : i.val = 6 ∧ mute = true
    · rw [if_pos muted]
    · rw [if_neg muted, Source.read_of_off (silent.resolve_right muted)]
  · rw [if_neg heard]
    refine ⟨fun f rest head => ?_, fun f empty last => ?_⟩
    · rw [Source.read_of_head running head]
    · rw [Source.read_of_empty running empty, last]
      rfl

/-! ### The zones' lines (R40, R76) -/

/-- R40, R76: what the line of a zone takes. -/
def Hub.draws (src : Vector Source 8) (heard : SourceId → Frame) (h : Hub) (z : ZoneId) : Frame :=
  match z with
  | .main => drawn heard h.zones.main
  | .z2 => (formOf src h.zones.z2).reduce (drawn heard h.zones.z2)
  | .z3 => (formOf src h.zones.z3).reduce (drawn heard h.zones.z3)

/-- R40: what leaves the line of a zone. -/
def Hub.plays (src : Vector Source 8) (heard : SourceId → Frame) (h : Hub) (z : ZoneId) : Frame :=
  ((h.zone z).line ++ [h.draws src heard z]).headD Frame.zero

/-- R76: the pair of a frame for Zone 2 or 3. -/
theorem reduce_eq (src : Vector Source 8) (heard : SourceId → Frame) (x : Zone) :
    (formOf src x).reduce (drawn heard x) =
      match x.current with
      | none => Frame.zero
      | some i =>
        if src[i].channels &&& 0xFC = 0 then Frame.pair ((heard i).fl, (heard i).fr) else Frame.pair (foldPair (heard i)) := by
  unfold formOf drawn
  cases x.current with
  | none => rfl
  | some i =>
    dsimp only
    generalize src[i].channels = set
    unfold multichannel
    by_cases stereo : set &&& 0xFC = 0
    · rw [decide_eq_false (not_not.2 stereo), if_pos stereo]
      rfl
    · rw [decide_eq_true stereo, if_neg stereo]
      rfl

/-! ### The decoder (R77) -/

theorem Decoder.listen_eq (d : Decoder) (f : Frame) :
    d.listen f =
      { d with
        newMode := false
        sums :=
          if d.active.mode = .matrix then
            ⟨d.sums.sumL + f.fl.natAbs, d.sums.sumR + f.fr.natAbs, d.sums.sumC + (f.fl + f.fr).natAbs,
              d.sums.sumS + (f.fl - f.fr).natAbs⟩
          else d.sums } := by
  unfold Decoder.listen BlockSums.add
  simp only [magnitude_eq]
  cases mode : d.active.mode <;> simp

/-! ### The outputs (R94, R112) -/

/-- R94: the result of an output before it is saturated. -/
def gainedSample (gain index x : Int) : Int := applyGain x (gainOf (indexNow gain index))

theorem outputResult_now (gain index x : Int) :
    outputResult (indexNow gain index) x = saturate (gainedSample gain index x) := rfl

/-- R94: a saturation is counted. -/
theorem countClip_now (gain index x : Int) (n : Nat) :
    countClip (outputClips (indexNow gain index) x) n =
      if saturate (gainedSample gain index x) = gainedSample gain index x then n else bump n := by
  change (if decide (saturate (gainedSample gain index x) ≠ gainedSample gain index x) = true then bump n else n) = _
  by_cases fits : saturate (gainedSample gain index x) = gainedSample gain index x
  · rw [if_pos fits, decide_eq_false (not_not.2 fits)]
    rfl
  · rw [if_neg fits, decide_eq_true fits]
    rfl

/-- R94: what a lane of a target takes. -/
theorem Feeds.of_eq (x : Feeds) (l : Layout) (t : Fin 12) :
    x.of l t =
      if h : 1 ≤ t.val ∧ t.val ≤ 7 then
        if l.present.getLsbD (t.val - 1) then x.positions[(⟨t.val - 1, by omega⟩ : Position)] else 0
      else
        match t.val with
        | 8 => x.z2.fl
        | 9 => x.z2.fr
        | 10 => x.z3.fl
        | 11 => x.z3.fr
        | _ => 0 := by
  unfold Feeds.of positionOf
  by_cases inside : 1 ≤ t.val ∧ t.val ≤ 7
  · rw [dif_pos inside, dif_pos inside]
  · rw [dif_neg inside, dif_neg inside]
    match t with
    | 0 | 8 | 9 | 10 | 11 => rfl
    | 1 | 2 | 3 | 4 | 5 | 6 | 7 => exact absurd (by decide) inside

theorem gainOfTarget_now (h : Hub) (t : Fin 12) (index : Int) (x : Feeds) (l : Layout) :
    gainedSample (h.gainOfTarget t) index (x.of l t) =
      if t = 0 then 0
      else
        gainedSample (h.zone (if t.val ≤ 7 then .main else if t.val ≤ 9 then .z2 else .z3)).gain index (x.of l t) := by
  by_cases free : t = 0
  · subst free
    rw [if_pos rfl]
    rfl
  · have assigned : t.val ≠ 0 := fun zero => free (Fin.ext zero)
    rw [if_neg free]
    unfold Hub.gainOfTarget targetZone
    rw [if_neg assigned]
    repeat' split
    all_goals simp_all

/-- R112: what a lane delivers. -/
theorem Lane.deliver_cases (x : Lane) (y : Int) :
    (x.relay ≠ .closed → x.deliver y = 0) ∧
      (x.relay = .closed →
        (x.ramp = none ∨ x.ramp = some 0 → x.deliver y = y) ∧
          ∀ n, x.ramp = some (n + 1) → x.deliver y = roundedProduct y ((7 - n : Nat) * 4096)) := by
  unfold Lane.deliver
  refine ⟨fun unclosed => ?_, fun closed => ⟨?_, fun n ramp => ?_⟩⟩
  · split <;> simp_all
  · rintro (ramp | ramp)
    · rw [closed, ramp]
    · rw [closed, ramp]
      rfl
  · have left : 8 - (n + 1) = 7 - n := by omega
    rw [closed, ramp]
    simp only [left]

theorem Lane.deliver_range (x : Lane) {y : Int} (range : inSampleRange y) : inSampleRange (x.deliver y) := by
  obtain ⟨low, high⟩ := range
  unfold Lane.deliver
  split
  · exact ⟨low, high⟩
  · exact ⟨low, high⟩
  · next k _ _ _ =>
    unfold inSampleRange roundedProduct
    have part : (8 - k : Nat) ≤ 8 := Nat.sub_le 8 k
    generalize 8 - k = n at part
    interval_cases n <;> omega
  · exact ⟨by decide, by decide⟩

/-! ### The end of the period (R28, R123) -/

theorem Fan.advance_eq (n : Nat) (f : Fan) :
    f.advance n = { f with pwm := (f.advance n).pwm, rising := (f.advance n).rising } ∧
      (f.advance n).position = (f.position + n) % 2046 ∧ (f.advance n).pwm ≤ 1023 := by
  have small : (f.position + n) % 2046 < 2046 := Nat.mod_lt _ (by decide)
  unfold Fan.advance
  generalize (f.position + n) % 2046 = p at small
  dsimp only
  split
  · next low => exact ⟨rfl, rfl, low⟩
  · next high =>
    refine ⟨rfl, ?_, ?_⟩
    · unfold Fan.position
      simp
      omega
    · dsimp only
      omega

theorem Hub.endPeriod_due (h : Hub) (e : Due) :
    e ∈ h.endPeriod.due ↔
      (e = .blockStart ∧ 47 ≤ h.clock.blockPos) ∨
        (e = .fanDuty ∧ 2046 ≤ h.protection.fan.position + h.clock.crystalPeriods ∧
          h.protection.fan.requested ≠ h.protection.fan.duty) ∨ e ∈ h.due := by
  unfold Hub.endPeriod Fan.reachesZero
  dsimp only
  rw [Hub.mem_addDueIf, Hub.mem_addDueIf]
  simp

theorem Hub.endPeriod_blocks (h : Hub) :
    h.endPeriod.clock =
        { h.clock with
          phase := h.clock.phase + h.clock.crystalPeriods * 65536 - h.clock.period
          blockPos := if 47 ≤ h.clock.blockPos then 0 else h.clock.blockPos + 1 } ∧
      h.endPeriod.protection =
        { h.protection with fan := h.protection.fan.advance h.clock.crystalPeriods } := by
  unfold Hub.endPeriod
  simp

end Sys2Proof.Machine
end

section
/-! SUPPORT. The audio path of an output sample period put together (O29). -/

namespace Sys2Proof.Machine

/-! ### The outputs of a hub -/

/-- R94: the result of a lane before it is saturated. -/
def Hub.laneSample (x : Feeds) (h : Hub) (l : LaneId) : Int :=
  let g := h.renderer.laneDrives[l]
  gainedSample (h.gainOfTarget g.target) g.index (x.of h.renderer.governing g.target)

/-- R94: a clip counter after a result. -/
def clipCount (y : Int) (n : Nat) : Nat := if saturate y = y then n else bump n

theorem Hub.driveLanes_eq (x : Feeds) (h : Hub) (l : LaneId) :
    (h.driveLanes x).lanes[l] = { h.lanes[l] with clips := clipCount (h.laneSample x l) h.lanes[l].clips } ∧
      (h.driveLanes x).renderer.laneOut[l] = h.lanes[l].deliver (saturate (h.laneSample x l)) := by
  have counted := countClip_now (h.gainOfTarget h.renderer.laneDrives[l].target) h.renderer.laneDrives[l].index
    (x.of h.renderer.governing h.renderer.laneDrives[l].target) h.lanes[l].clips
  constructor
  · refine Eq.trans ?_ (congrArg (fun n => { h.lanes[l] with clips := n }) counted)
    simp [Hub.driveLanes]
  · simp [Hub.driveLanes, Hub.laneSample, outputResult_now]

/-- R94: the results of the line outputs before they are saturated. -/
def Hub.lineSamples (x : Feeds) (h : Hub) : PerLine Int :=
  let r := h.renderer
  ⟨gainedSample h.zones.main.gain r.lineIndex.sub x.sub, gainedSample h.zones.z2.gain r.lineIndex.z2l x.z2.fl,
    gainedSample h.zones.z2.gain r.lineIndex.z2r x.z2.fr, gainedSample h.zones.z3.gain r.lineIndex.z3l x.z3.fl,
    gainedSample h.zones.z3.gain r.lineIndex.z3r x.z3.fr⟩

theorem Hub.driveLines_eq (x : Feeds) (h : Hub) :
    let y := h.lineSamples x
    (h.driveLines x).renderer =
      { h.renderer with
        clips :=
          ⟨clipCount y.sub h.renderer.clips.sub, clipCount y.z2l h.renderer.clips.z2l,
            clipCount y.z2r h.renderer.clips.z2r, clipCount y.z3l h.renderer.clips.z3l,
            clipCount y.z3r h.renderer.clips.z3r⟩
        lineOut := ⟨saturate y.sub, saturate y.z2l, saturate y.z2r, saturate y.z3l, saturate y.z3r⟩ } := by
  intro y
  unfold Hub.driveLines PerLine.zip
  dsimp only
  simp only [countClip_now, outputResult_now]
  rfl

/-! ### The audio path -/

variable (src : Vector Source 8) (heard : SourceId → Frame) (h : Hub)

/-- R73 to R80: what the decoder hands the renderer. -/
def Hub.decoded : Frame := h.decoder.decode (h.plays src heard .main)

/-- R92: what the outputs are handed. -/
def Hub.feeds : Feeds :=
  let r := h.renderer.render (h.decoded src heard)
  ⟨r.2.1, r.2.2, h.plays src heard .z2, h.plays src heard .z3⟩

/-- The zones, the decoder and the renderer of a sample period, as the output stage takes them. -/
def Hub.rendered : Hub :=
  { h with
    zones :=
      ⟨{ h.zones.main with line := (h.zones.main.line ++ [h.draws src heard .main]).drop 1 },
        { h.zones.z2 with line := (h.zones.z2.line ++ [h.draws src heard .z2]).drop 1 },
        { h.zones.z3 with line := (h.zones.z3.line ++ [h.draws src heard .z3]).drop 1 }⟩
    decoder := h.decoder.listen (h.plays src heard .main)
    renderer := (h.renderer.render (h.decoded src heard)).1 }

theorem Hub.playPeriod_eq :
    h.playPeriod src heard =
      Hub.driveLines (h.feeds src heard) (Hub.driveLanes (h.feeds src heard) (h.rendered src heard)) := by
  have push (x : Zone) (f : Frame) :
      x.push f = ({ x with line := (x.line ++ [f]).drop 1 }, (x.line ++ [f]).headD Frame.zero) := by
    unfold Zone.push
    rw [pushLine_eq f Frame.zero]
  have main : h.zones.main.push (drawn heard h.zones.main) =
      ({ h.zones.main with line := (h.zones.main.line ++ [h.draws src heard .main]).drop 1 }, h.plays src heard .main) :=
    push _ _
  have second : h.zones.z2.push ((formOf src h.zones.z2).reduce (drawn heard h.zones.z2)) =
      ({ h.zones.z2 with line := (h.zones.z2.line ++ [h.draws src heard .z2]).drop 1 }, h.plays src heard .z2) :=
    push _ _
  have third : h.zones.z3.push ((formOf src h.zones.z3).reduce (drawn heard h.zones.z3)) =
      ({ h.zones.z3 with line := (h.zones.z3.line ++ [h.draws src heard .z3]).drop 1 }, h.plays src heard .z3) :=
    push _ _
  unfold Hub.playPeriod Hub.feeds Hub.rendered Hub.decoded
  simp only [main, second, third]

theorem Hub.rendered_zone (z : ZoneId) :
    (h.rendered src heard).zone z = { h.zone z with line := ((h.zone z).line ++ [h.draws src heard z]).drop 1 } := by
  cases z <;> rfl

theorem Hub.rendered_gain (t : Fin 12) : (h.rendered src heard).gainOfTarget t = h.gainOfTarget t := by
  unfold Hub.gainOfTarget
  split
  · rfl
  · rw [Hub.rendered_zone]

end Sys2Proof.Machine
end

section
/-! SUPPORT. What a sample period makes of the zones, the decoder, the renderer and the lanes (O29). -/

namespace Sys2Proof.Machine

variable (src : Vector Source 8) (heard : SourceId → Frame) (h : Hub)

theorem Hub.rendered_renderer :
    let r := h.renderer
    let f := h.decoded src heard
    let g := (h.rendered src heard).renderer
    (∀ p : Position, g.filters[p] = r.low f p ∧ g.lines[p] = (r.lines[p] ++ [r.managed f p]).drop 1) ∧
      g.subLine = (r.subLine ++ [r.subManaged f]).drop 1 ∧
      g = { r with filters := g.filters, lines := g.lines, subLine := g.subLine } := by
  obtain ⟨lines, subLine, -, same⟩ := h.renderer.render_eq (h.decoded src heard)
  exact ⟨fun p => ⟨(lines p).1, (lines p).2.1⟩, subLine, same⟩

theorem Hub.rendered_samples (x : Feeds) :
    (∀ l, (h.rendered src heard).laneSample x l = h.laneSample x l) ∧
      (h.rendered src heard).lineSamples x = h.lineSamples x := by
  obtain ⟨-, -, same⟩ := h.rendered_renderer src heard
  have drives := congrArg Renderer.laneDrives same
  have governing := congrArg Renderer.governing same
  have index := congrArg Renderer.lineIndex same
  dsimp only at drives governing index
  refine ⟨fun l => ?_, ?_⟩
  · unfold Hub.laneSample
    dsimp only
    rw [drives, governing, Hub.rendered_gain]
  · unfold Hub.lineSamples
    dsimp only
    rw [index]
    rfl

/-- R40, R73 to R92: the zones, the decoder and the lines of the renderer. -/
theorem Hub.playPeriod_path :
    let g := h.playPeriod src heard
    let r := h.renderer
    let f := h.decoded src heard
    (∀ z, g.zone z = { h.zone z with line := ((h.zone z).line ++ [h.draws src heard z]).drop 1 }) ∧
      g.decoder = h.decoder.listen (h.plays src heard .main) ∧
      (∀ p : Position, g.renderer.filters[p] = r.low f p ∧
        g.renderer.lines[p] = (r.lines[p] ++ [r.managed f p]).drop 1) ∧
      g.renderer.subLine = (r.subLine ++ [r.subManaged f]).drop 1 ∧
      g.renderer.inForce = r.inForce ∧ g.renderer.derived = r.derived := by
  obtain ⟨lines, subLine, same⟩ := h.rendered_renderer src heard
  have inForce := congrArg Renderer.inForce same
  have derived := congrArg Renderer.derived same
  have zone := h.rendered_zone src heard
  have decoder : (h.rendered src heard).decoder = h.decoder.listen (h.plays src heard .main) := rfl
  dsimp only at inForce derived
  rw [Hub.playPeriod_eq]
  generalize h.rendered src heard = k at *
  exact ⟨zone, decoder, lines, subLine, inForce, derived⟩

/-- R94, R112: the outputs. -/
theorem Hub.playPeriod_outputs :
    let g := h.playPeriod src heard
    let x := h.feeds src heard
    let y := h.lineSamples x
    (∀ l : LaneId,
      g.lanes[l] = { h.lanes[l] with clips := clipCount (h.laneSample x l) h.lanes[l].clips } ∧
        g.renderer.laneOut[l] = h.lanes[l].deliver (saturate (h.laneSample x l))) ∧
      g.renderer.lineOut = ⟨saturate y.sub, saturate y.z2l, saturate y.z2r, saturate y.z3l, saturate y.z3r⟩ ∧
      g.renderer.clips =
        ⟨clipCount y.sub h.renderer.clips.sub, clipCount y.z2l h.renderer.clips.z2l,
          clipCount y.z2r h.renderer.clips.z2r, clipCount y.z3l h.renderer.clips.z3l,
          clipCount y.z3r h.renderer.clips.z3r⟩ := by
  intro g x y
  obtain ⟨-, -, same⟩ := h.rendered_renderer src heard
  obtain ⟨lanes, lines⟩ := h.rendered_samples src heard x
  have clips := congrArg Renderer.clips same
  have own (l : LaneId) : (h.rendered src heard).lanes[l] = h.lanes[l] := rfl
  have split : g = Hub.driveLines x (Hub.driveLanes x (h.rendered src heard)) := h.playPeriod_eq src heard
  dsimp only at clips
  generalize h.rendered src heard = k at *
  have drives := k.driveLanes_eq x
  have path := (k.driveLanes x).driveLines_eq x
  have again : (k.driveLanes x).lineSamples x = y := by
    rw [← show k.lineSamples x = y from lines]
    rfl
  have clips' : (k.driveLanes x).renderer.clips = h.renderer.clips := clips
  dsimp only at path
  rw [again, clips'] at path
  refine ⟨fun l => ?_, ?_, ?_⟩
  · obtain ⟨lane, out⟩ := drives l
    rw [lanes, own] at lane out
    rw [split]
    refine ⟨lane, ?_⟩
    rw [path]
    exact out
  · rw [split, path]
  · rw [split, path]

theorem State.samplePeriod_hub (s : State) :
    s.samplePeriod.hub =
      (Hub.playPeriod s.sources (fun i => handed i s.hub.radio.mute s.sources[i]) s.hub).endPeriod := by
  unfold State.samplePeriod
  have frames : (fun i : SourceId =>
      (Vector.ofFn fun j : SourceId => handed j s.hub.radio.mute s.sources[j] : Vector Frame 8)[i]) =
      fun i => handed i s.hub.radio.mute s.sources[i] := by
    funext i
    simp
  dsimp only
  rw [frames]

theorem State.samplePeriod_source (s : State) (i : SourceId) : s.samplePeriod.sources[i] = s.sources[i].read.1 := by
  simp [State.samplePeriod]

end Sys2Proof.Machine
end

section
/-! PROOFS. An output sample period (O29). -/

namespace Sys2Proof.Machine

/-! ### The step -/

theorem outputSamplePeriod_of_stopped {s : State} (ready : s.ready) (settled : s.settled)
    (stopped : s.hub.clock.running = false) :
    ∃ t, exec .outputSamplePeriod s = .next t ∧ s.tells t [] ∧ t.sources = s.sources ∧ t.hub = s.hub := by
  obtain ⟨delivered, awake⟩ := ready
  let step : State → State := fun t =>
    let u := t.settle
    if u.hub.clock.running then u.samplePeriod else u
  have same : step s = s := by
    change (if s.settle.hub.clock.running then s.settle.samplePeriod else s.settle) = s
    rw [State.settle_of_settled settled, stopped]
    rfl
  obtain ⟨t, run, tells, sources, hub⟩ := event_tells (f := step) awake (by rw [same]) (by rw [same]) (by rw [same])
  rw [same] at tells sources hub
  rw [show s.hub.outbox = [] from delivered] at tells
  exact ⟨t, run, tells, sources, hub.trans (State.hub_of_delivered delivered)⟩

/-- The hub after a sample period in which the sources hand out the frames `heard`. -/
def Hub.afterPeriod (src : Vector Source 8) (heard : SourceId → Frame) (h : Hub) : Hub :=
  (Hub.playPeriod src heard h).endPeriod

theorem outputSamplePeriod_of_running {s : State} (ready : s.ready) (settled : s.settled)
    (running : s.hub.clock.running = true) :
    ∃ t, exec .outputSamplePeriod s = .next t ∧ s.tells t [] ∧ (∀ i : SourceId, t.sources[i] = s.sources[i].read.1) ∧
      t.hub = s.hub.afterPeriod s.sources fun i => handed i s.hub.radio.mute s.sources[i] := by
  obtain ⟨delivered, awake⟩ := ready
  let step : State → State := fun t =>
    let u := t.settle
    if u.hub.clock.running then u.samplePeriod else u
  have same : step s = s.samplePeriod := by
    change (if s.settle.hub.clock.running then s.settle.samplePeriod else s.settle) = _
    rw [State.settle_of_settled settled, running]
    rfl
  obtain ⟨ports, index, pending, -⟩ := s.samplePeriod_frame
  obtain ⟨t, run, tells, sources, hub⟩ :=
    event_tells (f := step) awake (by rw [same, ports]) (by rw [same, index]) (by rw [same, pending])
  rw [same] at tells sources hub
  have empty : s.samplePeriod.hub.outbox = [] := by
    rw [State.samplePeriod_hub]
    obtain ⟨-, -, -, -, -, -, -, ended⟩ := Hub.endPeriod_frame
      (Hub.playPeriod s.sources (fun i => handed i s.hub.radio.mute s.sources[i]) s.hub)
    obtain ⟨-, -, -, -, -, -, played⟩ :=
      Hub.playPeriod_frame s.sources (fun i => handed i s.hub.radio.mute s.sources[i]) s.hub
    rw [ended, played]
    exact delivered
  rw [empty] at tells
  refine ⟨t, run, tells, fun i => ?_, ?_⟩
  · rw [sources]
    exact s.samplePeriod_source i
  · rw [hub, State.hub_of_delivered (s := s.samplePeriod) empty]
    exact s.samplePeriod_hub

section
variable (src : Vector Source 8) (heard : SourceId → Frame) (h : Hub)

theorem Hub.afterPeriod_kept :
    let g := h.afterPeriod src heard
    g.renderer.inForce = h.renderer.inForce ∧ g.renderer.derived = h.renderer.derived ∧
      g.renderer.tables = h.renderer.tables ∧ g.radio = h.radio ∧ g.station = h.station ∧ g.standby = h.standby := by
  obtain ⟨-, -, -, -, inForce, derived⟩ := h.playPeriod_path src heard
  have tables := Hub.playPeriod_tables src heard h
  obtain ⟨-, -, radio', station', standby', -⟩ := h.playPeriod_frame src heard
  obtain ⟨-, -, renderer, -, radio, station, standby, -⟩ := (h.playPeriod src heard).endPeriod_frame
  unfold Hub.afterPeriod
  dsimp only
  rw [renderer, radio, station, standby]
  exact ⟨inForce, derived, tables, radio', station', standby'⟩

/-- R28, R123: the clock, the fan drive, and the events that the end of the period finds. -/
theorem Hub.afterPeriod_time (quiet : h.due = []) :
    let g := h.afterPeriod src heard
    let n := h.clock.crystalPeriods
    g.clock =
        { h.clock with
          phase := h.clock.phase + n * 65536 - h.clock.period
          blockPos := if 47 ≤ h.clock.blockPos then 0 else h.clock.blockPos + 1 } ∧
      (47 ≤ h.clock.blockPos ↔ Due.blockStart ∈ g.due) ∧
      g.protection = { h.protection with fan := h.protection.fan.advance n } ∧
      (2046 ≤ h.protection.fan.position + n ∧ h.protection.fan.requested ≠ h.protection.fan.duty ↔
        Due.fanDuty ∈ g.due) := by
  obtain ⟨clock', protection', -, -, -, due', -⟩ := h.playPeriod_frame src heard
  obtain ⟨clock, protection⟩ := (h.playPeriod src heard).endPeriod_blocks
  have due := (h.playPeriod src heard).endPeriod_due
  rw [clock'] at clock protection
  rw [protection'] at protection
  simp only [clock', protection', due', quiet] at due
  unfold Hub.afterPeriod
  exact ⟨clock, by rw [due]; simp, protection, by rw [due]; simp⟩

/-- R40 to R94: the records of the audio path. -/
theorem Hub.afterPeriod_path :
    let g := h.afterPeriod src heard
    let r := h.renderer
    let f := h.decoded src heard
    let x := h.feeds src heard
    let y := h.lineSamples x
    (∀ z, g.zone z = { h.zone z with line := ((h.zone z).line ++ [h.draws src heard z]).drop 1 }) ∧
      g.decoder = h.decoder.listen (h.plays src heard .main) ∧
      (∀ p : Position, g.renderer.filters[p] = r.low f p ∧
        g.renderer.lines[p] = (r.lines[p] ++ [r.managed f p]).drop 1) ∧
      g.renderer.subLine = (r.subLine ++ [r.subManaged f]).drop 1 ∧
      (∀ l : LaneId,
        g.lanes[l] = { h.lanes[l] with clips := clipCount (h.laneSample x l) h.lanes[l].clips } ∧
          g.renderer.laneOut[l] = h.lanes[l].deliver (saturate (h.laneSample x l))) ∧
      g.renderer.lineOut = ⟨saturate y.sub, saturate y.z2l, saturate y.z2r, saturate y.z3l, saturate y.z3r⟩ ∧
      g.renderer.clips =
        ⟨clipCount y.sub r.clips.sub, clipCount y.z2l r.clips.z2l, clipCount y.z2r r.clips.z2r,
          clipCount y.z3l r.clips.z3l, clipCount y.z3r r.clips.z3r⟩ := by
  obtain ⟨zone, decoder, lines, subLine, -, -⟩ := h.playPeriod_path src heard
  obtain ⟨lanes, lineOut, clips⟩ := h.playPeriod_outputs src heard
  obtain ⟨zones', decoder', renderer', lanes', -⟩ := (h.playPeriod src heard).endPeriod_frame
  unfold Hub.afterPeriod
  generalize h.playPeriod src heard = g at *
  have zone' (z : ZoneId) : g.endPeriod.zone z = g.zone z := by unfold Hub.zone; rw [zones']
  dsimp only
  rw [decoder', renderer', lanes']
  simp only [zone']
  exact ⟨zone, decoder, lines, subLine, lanes, lineOut, clips⟩

/-- R94: what every output delivers is a sample. -/
theorem Hub.afterPeriod_range :
    let g := h.afterPeriod src heard
    (∀ l : LaneId, inSampleRange g.renderer.laneOut[l]) ∧
      inSampleRange g.renderer.lineOut.sub ∧ inSampleRange g.renderer.lineOut.z2l ∧
      inSampleRange g.renderer.lineOut.z2r ∧ inSampleRange g.renderer.lineOut.z3l ∧
      inSampleRange g.renderer.lineOut.z3r := by
  obtain ⟨-, -, -, -, lanes, lineOut, -⟩ := h.afterPeriod_path src heard
  generalize h.afterPeriod src heard = g at *
  refine ⟨fun l => ?_, ?_⟩
  · rw [(lanes l).2]
    exact Lane.deliver_range _ (saturate_range _)
  · rw [lineOut]
    exact ⟨saturate_range _, saturate_range _, saturate_range _, saturate_range _, saturate_range _⟩

end

end Sys2Proof.Machine
end

section
/-! PROOFS. An output sample period: O29 itself. -/

namespace Sys2Proof.Machine

/-- Settles O29: nothing waits, so the step is `State.samplePeriod` while the unit runs; each quantity that the statement
names is then a stage of the audio path that the model computes, from the zones' lines to the outputs. -/
theorem samplePeriodMovesEveryOutput : Obligations.SamplePeriodMovesEveryOutput := by
  intro s ready settled
  refine ⟨outputSamplePeriod_of_stopped ready settled, fun running => ?_⟩
  intro periods place product saturated folds pair
  obtain ⟨t, run, tells, source, hub⟩ := outputSamplePeriod_of_running ready settled running
  let heard : SourceId → Frame := fun i => handed i s.hub.radio.mute s.sources[i]
  obtain ⟨clock, blockStart, protection, fanDuty⟩ := s.hub.afterPeriod_time s.sources heard settled.1
  obtain ⟨inForce, derived, tables, radio, station, standby⟩ := s.hub.afterPeriod_kept s.sources heard
  obtain ⟨zone, decoder, lines, subLine, lanes, lineOut, clips⟩ := s.hub.afterPeriod_path s.sources heard
  obtain ⟨laneRange, lineRange⟩ := s.hub.afterPeriod_range s.sources heard
  change t.hub = s.hub.afterPeriod s.sources heard at hub
  generalize s.hub.afterPeriod s.sources heard = g at *
  subst hub
  obtain ⟨advances, position, bounded⟩ := s.hub.protection.fan.advance_eq s.hub.clock.crystalPeriods
  have fan := congrArg Protection.fan protection
  refine ⟨t, run, tells, clock, blockStart, ⟨?_, ?_, ?_, fanDuty⟩, fun i => ⟨fun off => ?_, fun on => ⟨fun empty => ?_,
    fun f rest head => ?_⟩⟩, ⟨heard, fun i => handed_cases i s.hub.radio.mute s.sources[i], ?_⟩, laneRange, lineRange.1,
    lineRange.2.1, lineRange.2.2.1, lineRange.2.2.2.1, lineRange.2.2.2.2, inForce, derived, tables, radio, station, standby⟩
  · rw [fan, protection]
    exact congrArg (fun f => { s.hub.protection with fan := f }) advances
  · rw [fan]
    exact position
  · rw [fan]
    exact bounded
  · rw [source, Source.read_of_off off]
  · rw [source, Source.read_of_empty on empty]
  · rw [source, Source.read_of_head on head]
  intro drawnBy leaves d m k made bl br r layout has left right bus foldedAt lowAt managed lows sub out outSub fed gained
    laneGained clipped
  let f : Frame := { made with bl := bl, br := br }
  let x := s.hub.feeds s.sources heard
  have hdrawn (z : ZoneId) : s.hub.draws s.sources heard z = drawnBy z := by
    cases z
    · rfl
    · exact reduce_eq s.sources heard s.hub.zones.z2
    · exact reduce_eq s.sources heard s.hub.zones.z3
  have hleaves (z : ZoneId) : s.hub.plays s.sources heard z = leaves z := by
    unfold Hub.plays
    rw [hdrawn]
  have hmade : s.hub.decoder.modePositions m = made := by
    unfold Decoder.modePositions
    simp only [made, d]
    cases s.hub.decoder.active.mode <;> rfl
  have hdecoded : s.hub.decoded s.sources heard = f := by
    unfold Hub.decoded Decoder.decode
    rw [hleaves]
    change s.hub.decoder.backfilled (s.hub.decoder.modePositions m) = f
    rw [hmade]
    rfl
  have hbus : layout.buses f = bus := rfl
  obtain ⟨hpositions, hsubBus⟩ := folded_eq layout f
  have hfolded (p : Position) : (folded layout f).1[p] = foldedAt p := by
    rw [hpositions, hbus]
    rfl
  have hlow (p : Position) : r.low f p = lowAt p := by
    change (if layout.bass.getLsbD p.val then
      saturate (r.filters[p] + roundedProduct ((folded layout f).1[p] - r.filters[p]) layout.coefficient)
      else r.filters[p]) = lowAt p
    rw [Layout.coefficient_eq, hfolded]
    rfl
  have hmanaged (p : Position) : r.managed f p = managed p := by
    change (if layout.valid = false then 0
      else if layout.bass.getLsbD p.val then saturate ((folded layout f).1[p] - r.low f p)
      else (folded layout f).1[p]) = managed p
    rw [hfolded, hlow]
    rfl
  have hsub : r.subManaged f = sub := by
    have hlows : ((List.finRange 7).map fun p => if layout.bass.getLsbD p.val then r.low f p else 0).sum = lows := by
      simp only [hlow]
      rfl
    unfold Renderer.subManaged
    change (if layout.valid then saturate ((folded layout f).2 +
      ((List.finRange 7).map fun p => if layout.bass.getLsbD p.val then r.low f p else 0).sum) else 0) = sub
    rw [hlows, hsubBus]
    by_cases valid : layout.valid = true
    · rw [if_pos valid, if_pos valid]
      exact (if_pos valid).symm
    · rw [if_neg valid]
      exact (if_neg valid).symm
  obtain ⟨hlines, -, hsubLine, -⟩ := r.render_eq f
  have hfeeds : x.z2 = leaves .z2 ∧ x.z3 = leaves .z3 ∧ x.sub = outSub ∧ ∀ p : Position, x.positions[p] = out p := by
    have rendered : (r.render f).2.2 = outSub ∧ ∀ p : Position, (r.render f).2.1[p] = out p := by
      refine ⟨?_, fun p => ?_⟩
      · rw [hsubLine, hsub]
      · rw [(hlines p).2.2, hmanaged]
    rw [← hdecoded] at rendered
    exact ⟨hleaves .z2, hleaves .z3, rendered⟩
  obtain ⟨second, third, subFeed, positions⟩ := hfeeds
  have hfed (target : Fin 12) : x.of layout target = fed target := by
    rw [Feeds.of_eq, second, third]
    simp only [positions]
    rfl
  have hlane (l : LaneId) : s.hub.laneSample x l = laneGained l := by
    change gainedSample (s.hub.gainOfTarget r.laneDrives[l].target) r.laneDrives[l].index
      (x.of layout r.laneDrives[l].target) = laneGained l
    rw [gainOfTarget_now, hfed]
    rfl
  have hlineSamples : s.hub.lineSamples x =
      ⟨gained .main r.lineIndex.sub outSub, gained .z2 r.lineIndex.z2l (leaves .z2).fl,
        gained .z2 r.lineIndex.z2r (leaves .z2).fr, gained .z3 r.lineIndex.z3l (leaves .z3).fl,
        gained .z3 r.lineIndex.z3r (leaves .z3).fr⟩ := by
    unfold Hub.lineSamples
    rw [second, third, subFeed]
    rfl
  rw [hdecoded] at lines subLine
  rw [hlineSamples] at lineOut clips
  rw [hleaves, Decoder.listen_eq] at decoder
  refine ⟨fun z => ?_, decoder, fun p => ⟨?_, ?_⟩, ?_, fun l => ⟨?_, fun unclosed => ?_, fun closed => ⟨fun free => ?_,
    fun n ramp => ?_⟩⟩, lineOut, clips⟩
  · rw [zone, hdrawn]
  · exact (lines p).1.trans (hlow p)
  · have entering : s.hub.renderer.managed f p = managed p := hmanaged p
    rw [(lines p).2, entering]
  · have entering : s.hub.renderer.subManaged f = sub := hsub
    rw [subLine, entering]
  · rw [(lanes l).1, hlane]
    rfl
  · rw [(lanes l).2]
    exact (Lane.deliver_cases _ _).1 unclosed
  · rw [(lanes l).2, hlane]
    exact ((Lane.deliver_cases _ _).2 closed).1 free
  · rw [(lanes l).2, hlane]
    exact ((Lane.deliver_cases _ _).2 closed).2 n ramp

end Sys2Proof.Machine
end

section
/-! SUPPORT. The bounds of the zones' settings over a whole step (R51, R58 to R60, O7). Few commands write a setting, and each of
them within its bounds; a reset puts every zone at its reset settings; every other command keeps the settings. -/

namespace Sys2Proof.Machine

/-- R51, R58 to R60: the settings of each zone within their bounds. -/
def Hub.settingsOk (h : Hub) : Prop := ∀ z, (h.zone z).settings.ok

theorem State.settingsOk_iff {s : State} : s.settingsOk ↔ s.hub.settingsOk :=
  ⟨fun ⟨main, z2, z3⟩ z => by cases z <;> assumption, fun ok => ⟨ok .main, ok .z2, ok .z3⟩⟩

/-- Where the settings stay, so do their bounds. -/
theorem Hub.settingsOk_of_eq {h g : Hub} (same : settingsOf g.zones = settingsOf h.zones) (ok : h.settingsOk) :
    g.settingsOk := fun z => by
  rw [Hub.zone, settingsOf_get same z]
  exact ok z

theorem Hub.setZone_settingsOk {z : ZoneId} {x : Zone} {h : Hub} (ok : h.settingsOk) (bounded : x.settings.ok) :
    (h.setZone z x).settingsOk := by
  intro w
  by_cases same : w = z
  · subst same
    rwa [Hub.zone_setZone_same]
  · rw [Hub.zone_setZone_other same]
    exact ok w

/-- An outcome that goes on goes on with the settings of each zone within their bounds. -/
def endsSettingsOk (o : Host.Outcome State Fault Refusal) : Prop := ∀ t, o = .next t → t.hub.settingsOk

theorem endsSettingsOk_next {s : State} : endsSettingsOk (.next s) ↔ s.hub.settingsOk :=
  ⟨fun h => h s rfl, fun h _ e => Host.Outcome.next.inj e ▸ h⟩

/-! ### The forms a command can take -/

theorem event_settingsOk {f : State → State} {s : State} (ok : s.hub.settingsOk) (keeps : (f s).hub.settingsOk) :
    endsSettingsOk (event f s) := by
  unfold event
  split
  · exact endsSettingsOk_next.mpr ok
  · exact endsSettingsOk_next.mpr keeps

/-- An event that keeps the settings of the zones. -/
theorem event_keepsSettings {f : State → State} {s : State} (ok : s.hub.settingsOk)
    (keeps : settingsOf (f s).hub.zones = settingsOf s.hub.zones) : endsSettingsOk (event f s) :=
  event_settingsOk ok (Hub.settingsOk_of_eq keeps ok)

/-- An event found and not yet taken writes no setting, whichever it is. -/
theorem eventStep_settingsOk (d : Due) {s : State} (ok : s.hub.settingsOk) :
    endsSettingsOk (event (State.eventStep d) s) :=
  event_keepsSettings ok (by simp)

theorem request_settingsOk {p : Port} {kind : Nat} {params : List Word} {rule : State → State × Answer} {s : State}
    (ok : s.hub.settingsOk) (keeps : ∀ u : State, u.hub.settingsOk → (rule u).1.hub.settingsOk) :
    endsSettingsOk (request p kind params rule s) := by
  unfold request
  split
  · exact endsSettingsOk_next.mpr ok
  · exact endsSettingsOk_next.mpr (keeps _ ok)

theorem request_onHub_settingsOk {p : Port} {kind : Nat} {params : List Word}
    {rule : Vector Source 8 → Hub → Hub × Answer} {s : State} (ok : s.hub.settingsOk)
    (keeps : ∀ src (h : Hub), h.settingsOk → (rule src h).1.settingsOk) :
    endsSettingsOk (request p kind params (onHub rule) s) :=
  request_settingsOk ok fun u => keeps u.sources u.hub

/-- A request whose rule keeps the settings of the zones. -/
theorem request_keepsSettings {p : Port} {kind : Nat} {params : List Word} {rule : State → State × Answer} {s : State}
    (ok : s.hub.settingsOk) (keeps : ∀ u : State, settingsOf (rule u).1.hub.zones = settingsOf u.hub.zones) :
    endsSettingsOk (request p kind params rule s) :=
  request_settingsOk ok fun u => Hub.settingsOk_of_eq (keeps u)

theorem request_readOnly_settingsOk {p : Port} {kind : Nat} {params : List Word} {read : State → ReplyData} {s : State}
    (ok : s.hub.settingsOk) : endsSettingsOk (request p kind params (readOnly read) s) :=
  request_keepsSettings ok fun _ => rfl

/-! ### Resets -/

/-- 3.1: the reset settings of the three zones lie within their bounds. -/
theorem State.reboot_settingsOk (c : ResetCause) (p : Option Port) (s : State) : (s.reboot c p).hub.settingsOk := by
  have zone (m : Nat) (low : 120 ≤ m) (high : m ≤ 184) : (Zone.reset m).settings.ok := ⟨low, high, Nat.zero_le _⟩
  intro z
  cases z
  · exact zone 184 (by decide) (by decide)
  · exact zone 160 (by decide) (by decide)
  · exact zone 160 (by decide) (by decide)

theorem execSoftReset_settingsOk (p : Port) {s : State} (ok : s.hub.settingsOk) : endsSettingsOk (execSoftReset p s) :=
  request_settingsOk ok fun u _ => State.reboot_settingsOk .request (some p) u

/-! ### The requests that write a setting -/

/-- R46: a zone turned on changes its power setting alone. -/
theorem Hub.zonePowerOn_settingsOk (src : Vector Source 8) (z : ZoneId) {h : Hub} (ok : h.settingsOk) :
    (h.zonePowerOn src z).settingsOk := by
  have on (x : Zone) (same : x.settings = { (h.zone z).settings with power := true }) : (h.setZone z x).settingsOk :=
    Hub.setZone_settingsOk ok (by rw [same]; exact ok z)
  unfold Hub.zonePowerOn
  dsimp only
  split
  · exact Hub.settingsOk_of_eq (by simp) (on { h.zone z with power := true } rfl)
  · exact Hub.settingsOk_of_eq (by simp) (on { h.zone z with power := true, state := .fadingOut .switch } rfl)
  · exact ok

/-- R47: a zone turned off changes its power setting alone. -/
theorem Hub.zonePowerOff_settingsOk (src : Vector Source 8) (z : ZoneId) {h : Hub} (ok : h.settingsOk) :
    (h.zonePowerOff src z).settingsOk := by
  have off (x : Zone) (same : x.settings = { (h.zone z).settings with power := false }) : (h.setZone z x).settingsOk :=
    Hub.setZone_settingsOk ok (by rw [same]; exact ok z)
  unfold Hub.zonePowerOff
  dsimp only
  split
  · exact Hub.settingsOk_of_eq (by simp) (off (Zone.fadeOut .powerOff { h.zone z with power := false }) rfl)
  · exact Hub.settingsOk_of_eq (by simp) (off (Zone.fadeOut .powerOff { h.zone z with power := false }) rfl)
  · exact Hub.settingsOk_of_eq (by simp) (off { h.zone z with power := false, state := .fadingOut .powerOff } rfl)
  · exact Hub.settingsOk_of_eq (by simp) (off { h.zone z with power := false } rfl)
  · exact off { h.zone z with power := false } rfl
  · exact ok

theorem Hub.turnOff_settingsOk (src : Vector Source 8) (z : ZoneId) {h : Hub} (ok : h.settingsOk) :
    (h.turnOff src z).settingsOk := by
  unfold Hub.turnOff
  split
  · exact Hub.settingsOk_of_eq (by simp) (Hub.zonePowerOff_settingsOk src z ok)
  · exact ok

theorem Hub.turnOn_settingsOk (src : Vector Source 8) (z : ZoneId) {h : Hub} (ok : h.settingsOk) :
    (h.turnOn src z).settingsOk := by
  unfold Hub.turnOn
  split
  · exact ok
  · exact Hub.settingsOk_of_eq (by simp) (Hub.zonePowerOn_settingsOk src z ok)

/-- R48, R49: a selection writes the selected source alone. -/
theorem Hub.selectSource_settingsOk (src : Vector Source 8) (z : ZoneId) (i : SourceId) {h : Hub} (ok : h.settingsOk) :
    (h.selectSource src z i).settingsOk := by
  have selects (x : Zone) (same : x.settings = { (h.zone z).settings with selected := i }) :
      (h.setZone z x).settingsOk :=
    Hub.setZone_settingsOk ok (by rw [same]; exact ok z)
  have kept := selects { h.zone z with selected := i } rfl
  have fades := selects (Zone.fadeOut .switch { h.zone z with selected := i }) rfl
  unfold Hub.selectSource
  dsimp only
  split
  · split
    · exact kept
    · exact Hub.settingsOk_of_eq (by simp) kept
  · split
    · exact ok
    · exact Hub.settingsOk_of_eq (by simp) fades
  · exact Hub.settingsOk_of_eq (by simp) fades
  · refine Hub.settingsOk_of_eq ?_ (selects { h.zone z with selected := i, state := .fadingOut .switch } rfl)
    split <;> simp
  · split
    · split
      · exact kept
      · exact Hub.settingsOk_of_eq (by simp) kept
    · refine Hub.settingsOk_of_eq ?_ kept
      simp [Hub.zone, settingsOf_set]

/-- R58 to R60: a volume within its maximum, and a maximum within 184. -/
theorem Hub.writeVolume_settingsOk {z : ZoneId} {v m : Nat} {h : Hub} (ok : h.settingsOk) (volume : v ≤ m)
    (maximum : m ≤ 184) : (h.writeVolume z v m).settingsOk := by
  obtain ⟨-, -, lip⟩ := ok z
  have written : (h.setZone z { h.zone z with volume := v, maxVolume := m }).settingsOk :=
    Hub.setZone_settingsOk ok ⟨volume, maximum, lip⟩
  exact Hub.settingsOk_of_eq (by simp [Hub.writeVolume]) written

theorem execSetVolume_settingsOk (p : Port) (zone index : Word) {s : State} (ok : s.hub.settingsOk) :
    endsSettingsOk (execSetVolume p zone index s) := by
  refine request_onHub_settingsOk ok fun _ h ok => ?_
  rcases zoneOf zone with _ | z
  · exact ok
  · obtain ⟨-, maximum, -⟩ := ok z
    exact Hub.writeVolume_settingsOk ok (Nat.min_le_right _ _) maximum

theorem execStepVolume_settingsOk (p : Port) (zone amount : Word) {s : State} (ok : s.hub.settingsOk) :
    endsSettingsOk (execStepVolume p zone amount s) := by
  refine request_onHub_settingsOk ok fun _ h ok => ?_
  rcases zoneOf zone with _ | z
  · exact ok
  · obtain ⟨-, maximum, -⟩ := ok z
    exact Hub.writeVolume_settingsOk ok (by unfold clampInt; omega) maximum

theorem execSetMaxVolume_settingsOk (p : Port) (zone index : Word) {s : State} (ok : s.hub.settingsOk) :
    endsSettingsOk (execSetMaxVolume p zone index s) := by
  refine request_onHub_settingsOk ok fun _ h ok => ?_
  rcases zoneOf zone with _ | z
  · exact ok
  · exact Hub.writeVolume_settingsOk ok (Nat.min_le_right _ _) (Nat.min_le_right _ _)

theorem execSetMute_settingsOk (p : Port) (zone code : Word) {s : State} (ok : s.hub.settingsOk) :
    endsSettingsOk (execSetMute p zone code s) := by
  refine request_onHub_settingsOk ok fun _ h ok => ?_
  rcases zoneOf zone with _ | z
  · exact ok
  · rcases flagOf code with _ | flag
    · exact ok
    · dsimp only
      split
      · exact ok
      · exact Hub.setZone_settingsOk
          (x := { h.zone z with mute := flag, fast := (h.zone z).fast || decide ((h.zone z).state = .playing) }) ok (ok z)

/-- R51: the request is brought to 500 ms, and the grants recomputed from it are no setting. -/
theorem execSetLipsync_settingsOk (p : Port) (zone ms : Word) {s : State} (ok : s.hub.settingsOk) :
    endsSettingsOk (execSetLipsync p zone ms s) := by
  refine request_onHub_settingsOk ok fun _ h ok => ?_
  rcases zoneOf zone with _ | z
  · exact ok
  · obtain ⟨volume, maximum, -⟩ := ok z
    dsimp only
    split
    · exact ok
    · exact Hub.settingsOk_of_eq (Hub.recompute_settings _)
        (Hub.setZone_settingsOk ok ⟨volume, maximum, Nat.min_le_right _ _⟩)

theorem execZonePowerOn_settingsOk (p : Port) (zone code : Word) {s : State} (ok : s.hub.settingsOk) :
    endsSettingsOk (execZonePowerOn p zone code s) := by
  refine request_onHub_settingsOk ok fun src h ok => ?_
  rcases zoneOf zone with _ | z
  · exact ok
  · dsimp only
    split
    · exact ok
    · split
      · exact ok
      · exact Hub.turnOn_settingsOk src z ok

theorem execZonePowerOff_settingsOk (p : Port) (zone : Word) {s : State} (ok : s.hub.settingsOk) :
    endsSettingsOk (execZonePowerOff p zone s) := by
  refine request_onHub_settingsOk ok fun src h ok => ?_
  rcases zoneOf zone with _ | z
  · exact ok
  · exact Hub.turnOff_settingsOk src z ok

theorem execSelectSource_settingsOk (p : Port) (zone source : Word) {s : State} (ok : s.hub.settingsOk) :
    endsSettingsOk (execSelectSource p zone source s) := by
  refine request_onHub_settingsOk ok fun src h ok => ?_
  rcases zoneOf zone with _ | z
  · exact ok
  · rcases sourceOf source with _ | i
    · exact ok
    · dsimp only
      split
      · exact ok
      · split
        · exact ok
        · exact Hub.settingsOk_of_eq (by simp) (Hub.selectSource_settingsOk src z i ok)

/-- R190: the zones are turned off one after another, and the entry to STANDBY itself writes no setting. -/
theorem execEnterStandby_settingsOk (p : Port) {s : State} (ok : s.hub.settingsOk) :
    endsSettingsOk (execEnterStandby p s) := by
  have begun (src : Vector Source 8) {h : Hub} (ok : h.settingsOk) : (h.beginStandby src p).settingsOk :=
    Hub.turnOff_settingsOk _ _ (Hub.turnOff_settingsOk _ _ (Hub.turnOff_settingsOk _ _
      (Hub.settingsOk_of_eq (by simp) ok)))
  refine request_settingsOk ok fun u ok => ?_
  have entered : ((u.onHub (Hub.beginStandby u.sources p)).takeStandbyEntry).hub.settingsOk :=
    Hub.settingsOk_of_eq (by simp) (begun u.sources ok)
  dsimp only
  split
  · exact ok
  · exact ok
  · exact entered
  · exact entered

/-! ### The requests that write no setting -/

theorem execGetZone_settingsOk (p : Port) (zone : Word) {s : State} (ok : s.hub.settingsOk) :
    endsSettingsOk (execGetZone p zone s) := by
  refine request_onHub_settingsOk ok fun _ h ok => ?_
  split <;> exact ok

theorem execGetLane_settingsOk (p : Port) (lane : Word) {s : State} (ok : s.hub.settingsOk) :
    endsSettingsOk (execGetLane p lane s) := by
  refine request_onHub_settingsOk ok fun _ h ok => ?_
  split <;> exact ok

theorem execGetPreset_settingsOk (p : Port) (index : Word) {s : State} (ok : s.hub.settingsOk) :
    endsSettingsOk (execGetPreset p index s) := by
  refine request_onHub_settingsOk ok fun _ h ok => ?_
  split <;> exact ok

theorem execGetStationList_settingsOk (p : Port) (first : Word) {s : State} (ok : s.hub.settingsOk) :
    endsSettingsOk (execGetStationList p first s) := by
  refine request_onHub_settingsOk ok fun _ h ok => ?_
  split <;> exact ok

theorem execSetWakeSense_settingsOk (p : Port) (set : Word) {s : State} (ok : s.hub.settingsOk) :
    endsSettingsOk (execSetWakeSense p set s) := by
  refine request_onHub_settingsOk ok fun _ h ok => ?_
  split <;> exact ok

theorem execStorePresetCurrent_settingsOk (p : Port) (index band high low : Word) {s : State} (ok : s.hub.settingsOk) :
    endsSettingsOk (execStorePresetCurrent p index band high low s) := by
  refine request_onHub_settingsOk ok fun _ h ok => ?_
  split <;> exact ok

theorem execClearPreset_settingsOk (p : Port) (index : Word) {s : State} (ok : s.hub.settingsOk) :
    endsSettingsOk (execClearPreset p index s) := by
  refine request_onHub_settingsOk ok fun _ h ok => ?_
  split <;> exact ok

theorem execSubscribe_settingsOk (p : Port) (set : Word) {s : State} (ok : s.hub.settingsOk) :
    endsSettingsOk (execSubscribe p set s) := by
  refine request_settingsOk ok fun u ok => ?_
  split <;> exact ok

theorem execGetSource_settingsOk (p : Port) (source : Word) {s : State} (ok : s.hub.settingsOk) :
    endsSettingsOk (execGetSource p source s) := by
  refine request_settingsOk ok fun u ok => ?_
  split <;> exact ok

theorem execClearSourceCounters_settingsOk (p : Port) (source : Word) {s : State} (ok : s.hub.settingsOk) :
    endsSettingsOk (execClearSourceCounters p source s) := by
  refine request_settingsOk ok fun u ok => ?_
  split <;> exact ok

theorem execReadNotices_settingsOk (p : Port) {s : State} (ok : s.hub.settingsOk) :
    endsSettingsOk (execReadNotices p s) :=
  request_settingsOk ok fun _ h => h

theorem execSetPrefill_settingsOk (p : Port) (source target : Word) {s : State} (ok : s.hub.settingsOk) :
    endsSettingsOk (execSetPrefill p source target s) := by
  refine request_keepsSettings ok fun u => ?_
  rcases sourceOf source with _ | i
  · rfl
  · dsimp only
    split
    · rfl
    · simp

theorem execSetGroups_settingsOk (p : Port) (source a b : Word) {s : State} (ok : s.hub.settingsOk) :
    endsSettingsOk (execSetGroups p source a b s) := by
  refine request_keepsSettings ok fun u => ?_
  rcases sourceOf source with _ | i
  · rfl
  · dsimp only
    repeat' split
    all_goals simp

@[simp] theorem Hub.changePlan_zones (plan : BandPlan) (h : Hub) : (h.changePlan plan).zones = h.zones := by
  have retunes (g : Hub) : g.retuneHeld.zones = g.zones := by
    unfold Hub.retuneHeld
    repeat' split
    all_goals simp
  unfold Hub.changePlan
  dsimp only
  repeat' split
  all_goals simp [retunes]

@[simp] theorem Hub.writeEntry_settings (i : Position) (e : PositionEntry) (h : Hub) :
    settingsOf (h.writeEntry i e).zones = settingsOf h.zones := by
  unfold Hub.writeEntry
  dsimp only
  repeat' split
  all_goals simp

@[simp] theorem Hub.rederive_settings (tell : Hub → Hub) (src : Vector Source 8) {h : Hub}
    (tells : ∀ g : Hub, (tell g).zones = g.zones) :
    settingsOf (h.rederive tell src).zones = settingsOf h.zones := by
  unfold Hub.rederive Hub.raiseItem
  dsimp only
  repeat' split
  all_goals simp [tells]

@[simp] theorem Hub.setPreset_zones (i : Fin 40) (x : Option Preset) (h : Hub) : (h.setPreset i x).zones = h.zones := rfl

theorem execWake_settingsOk (p : Port) {s : State} (ok : s.hub.settingsOk) :
    endsSettingsOk (execWake p s) := by
  refine request_keepsSettings ok fun u => ?_
  dsimp only [onHub]
  repeat' split
  all_goals simp

theorem execSetClockMode_settingsOk (p : Port) (mode : Word) {s : State} (ok : s.hub.settingsOk) :
    endsSettingsOk (execSetClockMode p mode s) := by
  refine request_keepsSettings ok fun u => ?_
  dsimp only [onHub]
  repeat' split
  all_goals simp

theorem execSetDecodeMode_settingsOk (p : Port) (mode option : Word) {s : State} (ok : s.hub.settingsOk) :
    endsSettingsOk (execSetDecodeMode p mode option s) := by
  refine request_keepsSettings ok fun u => ?_
  dsimp only [onHub]
  repeat' split
  all_goals simp

theorem execSetSpeaker_settingsOk (p : Port) (position present size distance trim : Word) {s : State} (ok : s.hub.settingsOk) :
    endsSettingsOk (execSetSpeaker p position present size distance trim s) := by
  refine request_keepsSettings ok fun u => ?_
  dsimp only [onHub]
  repeat' split
  all_goals simp

theorem execSetSub_settingsOk (p : Port) (present distance trim : Word) {s : State} (ok : s.hub.settingsOk) :
    endsSettingsOk (execSetSub p present distance trim s) := by
  refine request_keepsSettings ok fun u => ?_
  dsimp only [onHub]
  repeat' split
  all_goals simp

theorem execSetCrossover_settingsOk (p : Port) (setting : Word) {s : State} (ok : s.hub.settingsOk) :
    endsSettingsOk (execSetCrossover p setting s) := by
  refine request_keepsSettings ok fun u => ?_
  dsimp only [onHub]
  repeat' split
  all_goals simp

theorem execAssignLane_settingsOk (p : Port) (lane target : Word) {s : State} (ok : s.hub.settingsOk) :
    endsSettingsOk (execAssignLane p lane target s) := by
  refine request_keepsSettings ok fun u => ?_
  dsimp only [onHub]
  repeat' split
  all_goals simp

theorem execClearLaneFault_settingsOk (p : Port) (lane counters : Word) {s : State} (ok : s.hub.settingsOk) :
    endsSettingsOk (execClearLaneFault p lane counters s) := by
  refine request_keepsSettings ok fun u => ?_
  dsimp only [onHub]
  repeat' split
  all_goals simp

theorem execSetBandPlan_settingsOk (p : Port) (fm am : Word) {s : State} (ok : s.hub.settingsOk) :
    endsSettingsOk (execSetBandPlan p fm am s) := by
  refine request_keepsSettings ok fun u => ?_
  dsimp only [onHub]
  repeat' split
  all_goals simp

theorem execTune_settingsOk (p : Port) (zone band high low : Word) {s : State} (ok : s.hub.settingsOk) :
    endsSettingsOk (execTune p zone band high low s) := by
  refine request_keepsSettings ok fun u => ?_
  dsimp only [onHub]
  repeat' split
  all_goals simp

theorem execSeek_settingsOk (p : Port) (zone direction : Word) {s : State} (ok : s.hub.settingsOk) :
    endsSettingsOk (execSeek p zone direction s) := by
  refine request_keepsSettings ok fun u => ?_
  dsimp only [onHub]
  repeat' split
  all_goals simp

theorem execScan_settingsOk (p : Port) (zone band : Word) {s : State} (ok : s.hub.settingsOk) :
    endsSettingsOk (execScan p zone band s) := by
  refine request_keepsSettings ok fun u => ?_
  dsimp only [onHub]
  repeat' split
  all_goals simp

theorem execCancelRadio_settingsOk (p : Port) (zone : Word) {s : State} (ok : s.hub.settingsOk) :
    endsSettingsOk (execCancelRadio p zone s) := by
  refine request_keepsSettings ok fun u => ?_
  dsimp only [onHub]
  repeat' split
  all_goals simp

theorem execRecallPreset_settingsOk (p : Port) (zone index : Word) {s : State} (ok : s.hub.settingsOk) :
    endsSettingsOk (execRecallPreset p zone index s) := by
  refine request_keepsSettings ok fun u => ?_
  dsimp only [onHub]
  repeat' split
  all_goals simp

theorem execStorePresetExplicit_settingsOk (p : Port) (index mode band high low : Word) {s : State} (ok : s.hub.settingsOk) :
    endsSettingsOk (execStorePresetExplicit p index mode band high low s) := by
  refine request_keepsSettings ok fun u => ?_
  dsimp only [onHub]
  repeat' split
  all_goals simp

theorem execSetRadioOptions_settingsOk (p : Port) (follow mono fmLevel fmNoise amLevel turnaround : Word) {s : State}
    (ok : s.hub.settingsOk) :
    endsSettingsOk (execSetRadioOptions p follow mono fmLevel fmNoise amLevel turnaround s) := by
  refine request_keepsSettings ok fun u => ?_
  dsimp only [onHub]
  repeat' split
  all_goals simp

/-! ### The events -/

theorem Hub.tachPulse_zones (h : Hub) : h.tachPulse.zones = h.zones := by
  unfold Hub.tachPulse
  split <;> rfl

theorem State.fanDutyAdoption_settings (s : State) :
    settingsOf s.fanDutyAdoption.hub.zones = settingsOf s.hub.zones := by
  unfold State.fanDutyAdoption
  repeat' split
  · simp
  · rfl
  · rfl

theorem execOutputSamplePeriod_settingsOk {s : State} (ok : s.hub.settingsOk) :
    endsSettingsOk (execOutputSamplePeriod s) := by
  refine event_keepsSettings ok ?_
  dsimp only
  split <;> simp

theorem execBadRequest_settingsOk (p : Port) (kind declared : Byte) (params : List Word) {s : State}
    (ok : s.hub.settingsOk) : endsSettingsOk (execBadRequest p kind declared params s) := by
  unfold execBadRequest
  split <;> exact endsSettingsOk_next.mpr ok

theorem execFaultInputAsserted_settingsOk (l : LaneId) (level : Bool) {s : State} (ok : s.hub.settingsOk) :
    endsSettingsOk (execFaultInputAsserted l level s) := by
  unfold execFaultInputAsserted
  split
  · exact endsSettingsOk_next.mpr ok
  · exact event_keepsSettings ok (by simp)

/-! ### The replies of the tuner link -/

/-- A reply of the link moves the radio and the station data, and no zone. -/
theorem Hub.takeReply_zones (kind : Nat) (f : ExchangeUse → Hub → Hub) (keeps : ∀ use h, (f use h).zones = h.zones)
    (h : Hub) : (h.takeReply kind f).zones = h.zones := by
  unfold Hub.takeReply
  repeat' split
  all_goals simp [keeps]

theorem Hub.forStep_zones (use : ExchangeUse) (f : Operation → Hub → Hub) (keeps : ∀ op h, (f op h).zones = h.zones)
    (h : Hub) : (h.forStep use f).zones = h.zones := by
  unfold Hub.forStep
  repeat' split
  all_goals simp [keeps]

theorem Hub.takeReply_forStep_zones (kind : Nat) (f : Operation → Hub → Hub) (keeps : ∀ op h, (f op h).zones = h.zones)
    (h : Hub) : (h.takeReply kind fun use g => g.forStep use f).zones = h.zones :=
  Hub.takeReply_zones kind _ (fun use g => Hub.forStep_zones use f keeps g) h

/-- An event of the blocks behind Source Intake that moves no zone. -/
theorem event_onHub_settingsOk {f : Hub → Hub} {s : State} (ok : s.hub.settingsOk)
    (keeps : ∀ h : Hub, (f h).zones = h.zones) : endsSettingsOk (event (State.onHub f) s) :=
  event_keepsSettings ok (congrArg settingsOf (keeps s.hub))

theorem execGetQualityReply_settingsOk (level noise flags : Byte) {s : State} (ok : s.hub.settingsOk) :
    endsSettingsOk (execGetQualityReply level noise flags s) := by
  refine event_onHub_settingsOk ok fun h => Hub.takeReply_zones 2 _ (fun use g => ?_) h
  dsimp only
  split
  · simp
  · exact Hub.forStep_zones use _ (by simp) g

theorem execGetDataReply_settingsOk (words : List CodeWord) {s : State} (ok : s.hub.settingsOk) :
    endsSettingsOk (execGetDataReply words s) := by
  refine event_onHub_settingsOk ok fun h => ?_
  split
  · refine Hub.takeReply_zones 3 _ (fun use g => ?_) h
    repeat' split
    · simp
    · rfl
    · exact Hub.forStep_zones use _ (by simp) g
  · simp

/-! ### Every command -/

/-- R51, R58 to R60: every command keeps the settings of each zone within their bounds. -/
theorem exec_settingsOk (i : Instr) {s : State} (ok : s.hub.settingsOk) : endsSettingsOk (exec i s) := by
  cases i
  case powerOnReset => exact endsSettingsOk_next.mpr (State.reboot_settingsOk .powerOn none s)
  case resetPin asserted =>
    cases asserted
    · exact endsSettingsOk_next.mpr (State.reboot_settingsOk .pin none _)
    · exact endsSettingsOk_next.mpr ok
  case softReset => exact execSoftReset_settingsOk _ ok
  case selectLineAsserted | selectReleasedBeforeWord0 =>
    refine endsSettingsOk_next.mpr ?_
    exact ok
  case ignoringRelease | fetchFrame =>
    refine endsSettingsOk_next.mpr ?_
    split <;> exact ok
  case badRequest => exact execBadRequest_settingsOk _ _ _ _ ok
  case zonePowerOn => exact execZonePowerOn_settingsOk _ _ _ ok
  case zonePowerOff => exact execZonePowerOff_settingsOk _ _ ok
  case selectSource => exact execSelectSource_settingsOk _ _ _ ok
  case setVolume => exact execSetVolume_settingsOk _ _ _ ok
  case stepVolume => exact execStepVolume_settingsOk _ _ _ ok
  case setMaxVolume => exact execSetMaxVolume_settingsOk _ _ _ ok
  case setMute => exact execSetMute_settingsOk _ _ _ ok
  case setLipsync => exact execSetLipsync_settingsOk _ _ _ ok
  case enterStandby => exact execEnterStandby_settingsOk _ ok
  case setPrefill => exact execSetPrefill_settingsOk _ _ _ ok
  case setGroups => exact execSetGroups_settingsOk _ _ _ _ ok
  case wake => exact execWake_settingsOk _ ok
  case setClockMode => exact execSetClockMode_settingsOk _ _ ok
  case setDecodeMode => exact execSetDecodeMode_settingsOk _ _ _ ok
  case setSpeaker => exact execSetSpeaker_settingsOk _ _ _ _ _ _ ok
  case setSub => exact execSetSub_settingsOk _ _ _ _ ok
  case setCrossover => exact execSetCrossover_settingsOk _ _ ok
  case assignLane => exact execAssignLane_settingsOk _ _ _ ok
  case clearLaneFault => exact execClearLaneFault_settingsOk _ _ _ ok
  case setBandPlan => exact execSetBandPlan_settingsOk _ _ _ ok
  case tune => exact execTune_settingsOk _ _ _ _ _ ok
  case seek => exact execSeek_settingsOk _ _ _ ok
  case scan => exact execScan_settingsOk _ _ _ ok
  case cancelRadio => exact execCancelRadio_settingsOk _ _ ok
  case recallPreset => exact execRecallPreset_settingsOk _ _ _ ok
  case storePresetExplicit => exact execStorePresetExplicit_settingsOk _ _ _ _ _ _ ok
  case setRadioOptions => exact execSetRadioOptions_settingsOk _ _ _ _ _ _ _ ok
  case identify | getResetCause | getClock | getDecode | getLayout | getDelay | getThermal | getRadio | getStationData =>
    exact request_readOnly_settingsOk ok
  case readNotices => exact execReadNotices_settingsOk _ ok
  case subscribe => exact execSubscribe_settingsOk _ _ ok
  case getSource => exact execGetSource_settingsOk _ _ ok
  case clearSourceCounters => exact execClearSourceCounters_settingsOk _ _ ok
  case getZone => exact execGetZone_settingsOk _ _ ok
  case getLane => exact execGetLane_settingsOk _ _ ok
  case getPreset => exact execGetPreset_settingsOk _ _ ok
  case getStationList => exact execGetStationList_settingsOk _ _ ok
  case setWakeSense => exact execSetWakeSense_settingsOk _ _ ok
  case storePresetCurrent => exact execStorePresetCurrent_settingsOk _ _ _ _ _ ok
  case clearPreset => exact execClearPreset_settingsOk _ _ ok
  case packetArrival | serialFrameArrival | outputBlockStart | pendingIntakeChange | standbyEntry =>
    exact event_keepsSettings ok (by simp)
  case outputSamplePeriod => exact execOutputSamplePeriod_settingsOk ok
  case fanDutyAdoption => exact event_keepsSettings ok (State.fanDutyAdoption_settings s)
  case faultInputAsserted => exact execFaultInputAsserted_settingsOk _ _ ok
  case senseConversion c code => exact event_keepsSettings ok (Hub.conversion_settings c code s.hub)
  case fanTachPulse => exact event_onHub_settingsOk ok Hub.tachPulse_zones
  case linkMessageSend => exact event_onHub_settingsOk ok (by simp)
  case linkAttemptFailed => exact event_onHub_settingsOk ok (by simp)
  case setFreqReply => exact event_onHub_settingsOk ok (Hub.takeReply_forStep_zones 1 _ (by simp))
  case getQualityReply => exact execGetQualityReply_settingsOk _ _ _ ok
  case getDataReply => exact execGetDataReply_settingsOk _ ok
  case setBlendReply => exact event_onHub_settingsOk ok (Hub.takeReply_forStep_zones 4 _ (by simp))
  case statusReply => exact event_onHub_settingsOk ok (Hub.takeReply_zones 5 _ (by simp))
  all_goals exact eventStep_settingsOk _ ok

theorem State.idle_settings (s : State) : settingsOf s.idle.hub.zones = settingsOf s.hub.zones := by
  have tick (h : Hub) : h.crystalTick.zones = h.zones := by
    unfold Hub.crystalTick
    split <;> rfl
  unfold State.idle
  split
  · rfl
  · exact congrArg settingsOf (tick s.hub)

/-- Settles O7: a step is the idle step or a command, and every command keeps the settings within their bounds. -/
theorem everyStepKeepsZoneSettings : Obligations.EveryStepKeepsZoneSettings := by
  intro s t ok e
  rw [State.settingsOk_iff] at ok ⊢
  unfold step at e
  split at e
  · exact endsSettingsOk_next.mpr (Hub.settingsOk_of_eq s.idle_settings ok) t e
  · next c rest _ => exact exec_settingsOk c (s := { s with pending := rest }) ok t e

end Sys2Proof.Machine
end

section
/-! SUPPORT. The volume and mute requests (R58 to R61, O32): what each writes in the record of its zone, and what it posts. -/

namespace Sys2Proof.Machine

variable {p : Port} {kind : Nat} {params : List Word}

/-- R171, R172, R180: a request of the blocks behind Source Intake whose rule leaves the hub `g` and answers. -/
theorem request_onHub_leaves {s : State} {rule : Vector Source 8 → Hub → Hub × Answer} {g : Hub} {status : Status}
    {data : ReplyData} (listens : s.listens p) (leaves : rule s.sources s.hub = (g, ⟨status, data⟩)) :
    ∃ t, request p kind params (onHub rule) s = .next t ∧ s.answers t p (s.ports.get p) status data g.outbox ∧
      t.sources = s.sources ∧ t.hub = { g with outbox := [] } := by
  have run := request_onHub (p := p) (kind := kind) (params := params) rule listens
  rwa [leaves] at run

theorem flagOf_eq {w : Word} {flag : Bool} (e : (w = 0 ∧ flag = false) ∨ (w = 1 ∧ flag = true)) :
    flagOf w = some flag := by
  rcases e with ⟨rfl, rfl⟩ | ⟨rfl, rfl⟩ <;> rfl

/-- R58 to R60: the volume settings written, and nothing else but the notice. -/
theorem Hub.writeVolume_written (z : ZoneId) (v m : Nat) {h : Hub} (quiet : h.outbox = []) :
    { h.writeVolume z v m with outbox := [] } = h.setZone z { h.zone z with volume := v, maxVolume := m } := by
  unfold Hub.writeVolume postIf
  dsimp only
  split <;> simp [Hub.setZone, post, quiet]

/-- R58 to R60: one ZONE_VOLUME where a value changes. -/
theorem Hub.writeVolume_notices (z : ZoneId) (v m : Nat) {h : Hub} (quiet : h.outbox = []) :
    (h.writeVolume z v m).outbox =
      if v = (h.zone z).volume ∧ m = (h.zone z).maxVolume then []
      else [zoneVolumeNotice z { h.zone z with volume := v, maxVolume := m }] := by
  by_cases same : v = (h.zone z).volume ∧ m = (h.zone z).maxVolume
  · simp [Hub.writeVolume, postIf_outbox, quiet, same]
  · have changed : v ≠ (h.zone z).volume ∨ m ≠ (h.zone z).maxVolume := by omega
    simp [Hub.writeVolume, postIf_outbox, quiet, same, changed]

/-- R58 to R60: a request whose rule writes the volume settings of a zone. -/
theorem request_writesVolume {s : State} {rule : Vector Source 8 → Hub → Hub × Answer} {z : ZoneId} {v m : Nat}
    {status : Status} {data : ReplyData} (listens : s.listens p) (quiet : s.delivered)
    (writes : rule s.sources s.hub = (s.hub.writeVolume z v m, ⟨status, data⟩)) :
    let x := s.hub.zone z
    let y := { x with maxVolume := m, volume := v }
    ∃ t, request p kind params (onHub rule) s = .next t ∧
      s.answers t p (s.ports.get p) status data
        (if v = x.volume ∧ m = x.maxVolume then [] else [zoneVolumeNotice z y]) ∧
      t.sources = s.sources ∧ t.hub = s.hub.setZone z y := by
  obtain ⟨t, run, answered, sources, hub⟩ := request_onHub_leaves (kind := kind) (params := params) listens writes
  rw [Hub.writeVolume_notices z v m quiet] at answered
  exact ⟨t, run, answered, sources, hub.trans (Hub.writeVolume_written z v m quiet)⟩

/-- R58, R59: a request whose rule writes the volume index of a zone, its maximum standing as it is. -/
theorem request_writesIndex {s : State} {rule : Vector Source 8 → Hub → Hub × Answer} {z : ZoneId} {v : Nat}
    {status : Status} {data : ReplyData} (listens : s.listens p) (quiet : s.delivered)
    (writes : rule s.sources s.hub = (s.hub.writeVolume z v (s.hub.zone z).maxVolume, ⟨status, data⟩)) :
    let x := s.hub.zone z
    let y := { x with volume := v }
    ∃ t, request p kind params (onHub rule) s = .next t ∧
      s.answers t p (s.ports.get p) status data (if v = x.volume then [] else [zoneVolumeNotice z y]) ∧
      t.sources = s.sources ∧ t.hub = s.hub.setZone z y := by
  obtain ⟨t, run, answered, rest⟩ := request_writesVolume (kind := kind) (params := params) listens quiet writes
  simp only [and_true] at answered
  exact ⟨t, run, answered, rest⟩

/-- R61: the zone record with its mute flag written; in PLAYING the change sets the fast ramp flag. -/
def Zone.muted (flag : Bool) (x : Zone) : Zone :=
  { x with mute := flag, fast := x.fast || decide (x.state = .playing) }

/-- R61: a request whose rule writes the mute flag of a zone where it changes. -/
theorem request_writesMute {s : State} {rule : Vector Source 8 → Hub → Hub × Answer} {z : ZoneId} {flag : Bool}
    {status : Status} {data : ReplyData} (listens : s.listens p) (quiet : s.delivered)
    (writes : rule s.sources s.hub =
      (if flag = (s.hub.zone z).mute then s.hub
        else post (zoneMuteNotice z flag) (s.hub.setZone z ((s.hub.zone z).muted flag)), ⟨status, data⟩)) :
    ∃ t, request p kind params (onHub rule) s = .next t ∧
      s.answers t p (s.ports.get p) status data
        (if flag = (s.hub.zone z).mute then [] else [zoneMuteNotice z flag]) ∧
      t.sources = s.sources ∧
      t.hub = (if flag = (s.hub.zone z).mute then s.hub else s.hub.setZone z ((s.hub.zone z).muted flag)) := by
  have none : s.hub.outbox = [] := quiet
  obtain ⟨t, run, answered, sources, hub⟩ := request_onHub_leaves (kind := kind) (params := params) listens writes
  by_cases same : flag = (s.hub.zone z).mute
  · simp only [if_pos same] at answered hub ⊢
    exact ⟨t, run, none ▸ answered, sources, hub.trans (by rw [← none])⟩
  · simp only [if_neg same] at answered hub ⊢
    rw [show (post (zoneMuteNotice z flag) (s.hub.setZone z ((s.hub.zone z).muted flag))).outbox =
      [zoneMuteNotice z flag] by simp [none]] at answered
    exact ⟨t, run, answered, sources, hub.trans (by simp [post, Hub.setZone, none])⟩

/-- Settles O32: the volume requests write a zone's volume settings, SET_MUTE its mute flag. -/
theorem volumeAndMuteAreWritten : Obligations.VolumeAndMuteAreWritten := by
  refine ⟨fun s p w value z listens quiet e => ⟨?_, ?_, ?_⟩, fun s p w code z flag listens quiet e f => ?_⟩
  · exact request_writesIndex listens quiet (by simp [zoneOf_eq e, okOrClamped])
  · exact request_writesIndex listens quiet (by simp [zoneOf_eq e, okOrClamped, clampInt])
  · exact request_writesVolume listens quiet (by simp [zoneOf_eq e, okOrClamped])
  · exact request_writesMute listens quiet (by rw [zoneOf_eq e, flagOf_eq f]; dsimp only; split <;> rfl)

end Sys2Proof.Machine
end

section
/-! SUPPORT. The grants recomputed (R50, R52, R96 to R98, O33): what each turn of the recomputation makes of the record of a
zone, and the notices it posts. -/

namespace Sys2Proof.Machine

/-! ### An item held (R50) -/

/-- R50: the zone record with an item held: it joins the pending set, and an audible zone fades out. -/
def Zone.holds (join : Items → Items) (x : Zone) : Zone :=
  match x.state with
  | .off | .waiting => x
  | .playing | .fadingIn => Zone.fadeOut .reconfigure { x with pending := join x.pending }
  | .fadingOut _ => { x with pending := join x.pending }

theorem Zone.holds_silent {join : Items → Items} {x : Zone} (silent : x.state = .off ∨ x.state = .waiting) :
    x.holds join = x := by
  rcases silent with e | e <;> simp [Zone.holds, e]

theorem Zone.holds_audible {join : Items → Items} {x : Zone} (audible : x.state = .playing ∨ x.state = .fadingIn) :
    x.holds join = Zone.fadeOut .reconfigure { x with pending := join x.pending } := by
  rcases audible with e | e <;> simp [Zone.holds, e]

theorem Zone.holds_fading {join : Items → Items} {x : Zone} {k : Purpose} (fading : x.state = .fadingOut k) :
    x.holds join = { x with pending := join x.pending } := by
  simp [Zone.holds, fading]

/-- A zone is silent, audible or fading out. -/
theorem ZoneState.kinds (st : ZoneState) :
    (st = .off ∨ st = .waiting) ∨ (st = .playing ∨ st = .fadingIn) ∨ ∃ k, st = .fadingOut k := by
  cases st <;> simp

theorem Hub.holdItem_silent (join : Items → Items) {z : ZoneId} {h : Hub}
    (silent : (h.zone z).state = .off ∨ (h.zone z).state = .waiting) : h.holdItem join z = h := by
  rcases silent with e | e <;> simp [Hub.holdItem, e]

theorem Hub.holdItem_audible (join : Items → Items) {z : ZoneId} {h : Hub}
    (audible : (h.zone z).state = .playing ∨ (h.zone z).state = .fadingIn) :
    h.holdItem join z = (h.enterZone z ((h.zone z).holds join)).postZoneState z := by
  rw [Zone.holds_audible audible]
  rcases audible with e | e <;> simp [Hub.holdItem, e]

theorem Hub.holdItem_fading (join : Items → Items) {z : ZoneId} {h : Hub} {k : Purpose}
    (fading : (h.zone z).state = .fadingOut k) : h.holdItem join z = h.setZone z ((h.zone z).holds join) := by
  rw [Zone.holds_fading fading]
  simp [Hub.holdItem, fading]

/-- R50: an item is held in the record of its zone, and in no other. -/
theorem Hub.holdItem_zones (join : Items → Items) (z : ZoneId) (h : Hub) :
    (h.holdItem join z).zones = (h.setZone z ((h.zone z).holds join)).zones := by
  rcases (h.zone z).state.kinds with silent | audible | ⟨k, fading⟩
  · rw [Hub.holdItem_silent join silent, Zone.holds_silent silent]
    cases z <;> rfl
  · rw [Hub.holdItem_audible join audible]
    rfl
  · rw [Hub.holdItem_fading join fading]

theorem Hub.holdItem_zone_same (join : Items → Items) (z : ZoneId) (h : Hub) :
    (h.holdItem join z).zone z = (h.zone z).holds join := by
  rw [Hub.zone_eq_of_zones (h.holdItem_zones join z), Hub.zone_setZone_same]

theorem Hub.holdItem_zone_other (join : Items → Items) {z w : ZoneId} (other : w ≠ z) (h : Hub) :
    (h.holdItem join z).zone w = h.zone w := by
  rw [Hub.zone_eq_of_zones (h.holdItem_zones join z), Hub.zone_setZone_other other]

/-- R50, R41: an item held sends an audible zone into a fade, which is told with the values of the zone. -/
theorem Hub.holdItem_outbox (join : Items → Items) (z : ZoneId) (h : Hub) :
    (h.holdItem join z).outbox =
      h.outbox ++
        if (h.zone z).state = .playing ∨ (h.zone z).state = .fadingIn then
          [zoneStateNotice z ((h.zone z).holds join)]
        else [] := by
  rcases (h.zone z).state.kinds with silent | audible | ⟨k, fading⟩
  · rw [Hub.holdItem_silent join silent, if_neg (by rcases silent with e | e <;> simp [e]), List.append_nil]
  · rw [Hub.holdItem_audible join audible, if_pos audible, Hub.postZoneState, post_outbox]
    have entered := Hub.zone_setZone_same z ((h.zone z).holds join) h
    exact congrArg (fun x => h.outbox ++ [zoneStateNotice z x]) entered
  · rw [Hub.holdItem_fading join fading, if_neg (by simp [fading]), List.append_nil]
    rfl

/-! ### A grant told (R52) -/

/-- R52, R50: the LIPSYNC item joins a pending set. -/
def Items.withLipsync (s : Items) : Items := { s with lipsync := true }

/-- R52: the zone record that has been told its grant: one that differs is written and its LIPSYNC item held. -/
def Zone.told (ms : Nat) (x : Zone) : Zone :=
  if ms = x.lipGranted then x else Zone.holds Items.withLipsync { x with lipGranted := ms }

theorem Hub.tellGrant_same {z : ZoneId} {ms : Nat} {h : Hub} (same : ms = (h.zone z).lipGranted) :
    h.tellGrant z ms = h := by
  simp [Hub.tellGrant, same]

theorem Hub.tellGrant_new {z : ZoneId} {ms : Nat} {h : Hub} (new : ms ≠ (h.zone z).lipGranted) :
    h.tellGrant z ms =
      Hub.holdItem Items.withLipsync z
        (post (lipsyncNotice z { h.zone z with lipGranted := ms })
          (h.setZone z { h.zone z with lipGranted := ms })) := by
  simp only [Hub.tellGrant, if_neg new]
  rfl

theorem Hub.tellGrant_zone_same (z : ZoneId) (ms : Nat) (h : Hub) :
    (h.tellGrant z ms).zone z = (h.zone z).told ms := by
  unfold Zone.told
  split
  · next same => rw [Hub.tellGrant_same same]
  · next new =>
    rw [Hub.tellGrant_new new, Hub.holdItem_zone_same]
    exact congrArg (Zone.holds _) (Hub.zone_setZone_same z _ h)

theorem Hub.tellGrant_zone_other {z w : ZoneId} (other : w ≠ z) (ms : Nat) (h : Hub) :
    (h.tellGrant z ms).zone w = h.zone w := by
  by_cases same : ms = (h.zone z).lipGranted
  · rw [Hub.tellGrant_same same]
  · rw [Hub.tellGrant_new same, Hub.holdItem_zone_other _ other]
    exact Hub.zone_setZone_other other _ h

/-- R50: what an item held leaves of its zone's record. -/
theorem Zone.holds_frame (join : Items → Items) (x : Zone) :
    (x.holds join).settings = x.settings ∧ (x.holds join).current = x.current ∧ (x.holds join).gain = x.gain ∧
      (x.holds join).lipGranted = x.lipGranted ∧ (x.holds join).lipEffect = x.lipEffect := by
  unfold Zone.holds
  split <;> exact ⟨rfl, rfl, rfl, rfl, rfl⟩

/-- R52: a told zone has its grant, and what the audio path plays from is as it was. -/
theorem Zone.told_frame (ms : Nat) (x : Zone) :
    (x.told ms).settings = x.settings ∧ (x.told ms).current = x.current ∧ (x.told ms).gain = x.gain ∧
      (x.told ms).lipGranted = ms ∧ (x.told ms).lipEffect = x.lipEffect := by
  unfold Zone.told
  split
  · next same => exact ⟨rfl, rfl, rfl, same.symm, rfl⟩
  · exact Zone.holds_frame _ { x with lipGranted := ms }

/-- LIPSYNC_GRANTED shows the request and the grant alone. -/
theorem lipsyncNotice_congr {z : ZoneId} {x y : Zone} (requested : y.settings = x.settings)
    (granted : y.lipGranted = x.lipGranted) : lipsyncNotice z y = lipsyncNotice z x := by
  have same : y.lipRequested = x.lipRequested := congrArg ZoneSettings.lipRequested requested
  simp [lipsyncNotice, same, granted]

/-- ZONE_STATE shows the state, the power setting, the selected and the current source alone. -/
theorem zoneStateNotice_congr {z : ZoneId} {x y : Zone} (settings : y.settings = x.settings) (state : y.state = x.state)
    (current : y.current = x.current) : zoneStateNotice z y = zoneStateNotice z x := by
  have power : y.power = x.power := congrArg ZoneSettings.power settings
  have selected : y.selected = x.selected := congrArg ZoneSettings.selected settings
  simp [zoneStateNotice, power, selected, state, current]

/-- R52: a new grant is told. -/
theorem Hub.tellGrant_tells {z : ZoneId} {ms : Nat} {h : Hub} (new : ms ≠ (h.zone z).lipGranted) :
    Hub.hasPosted (lipsyncNotice z ((h.zone z).told ms)) h (h.tellGrant z ms) := by
  obtain ⟨settings, -, -, granted, -⟩ := (h.zone z).told_frame ms
  rw [Hub.tellGrant_new new, lipsyncNotice_congr (x := { h.zone z with lipGranted := ms }) settings granted]
  exact Hub.hasPosted.after ⟨[_], rfl, List.mem_singleton.mpr rfl⟩ (Hub.holdItem_keepsPosted _ z _)

/-- R52, R50: a new grant sends an audible zone into a fade, which is told. -/
theorem Hub.tellGrant_tellsState {z : ZoneId} {ms : Nat} {h : Hub} (new : ms ≠ (h.zone z).lipGranted)
    (audible : (h.zone z).state = .playing ∨ (h.zone z).state = .fadingIn) :
    Hub.hasPosted (zoneStateNotice z ((h.zone z).told ms)) h (h.tellGrant z ms) := by
  rw [Hub.tellGrant_new new, Zone.told, if_neg new]
  have written : ∀ n, (post n (h.setZone z { h.zone z with lipGranted := ms })).zone z =
      { h.zone z with lipGranted := ms } := fun _ => Hub.zone_setZone_same z _ h
  refine Hub.hasPosted.before (g := post _ (h.setZone z { h.zone z with lipGranted := ms })) ⟨[_], rfl⟩ ⟨_, Hub.holdItem_outbox _ z _, ?_⟩
  rw [written, if_pos audible]
  exact List.mem_singleton.mpr rfl

/-! ### Grants adopted and given up (R53, R98) -/

/-- R53, R98: from `x` to `y` a zone may have adopted its grant, or given up the cells that it held beyond it; while it is not
silent it may have done the latter alone. -/
def Zone.adapts (x y : Zone) : Prop :=
  y.lipGranted = x.lipGranted ∧ (x.lipEffect = x.lipGranted → y.lipEffect = y.lipGranted) ∧
    (x.state ≠ .off → x.state ≠ .waiting → y = x ∨ x.squeezed y)

theorem Zone.adapts.rfl {x : Zone} : x.adapts x := ⟨Eq.refl _, id, fun _ _ => .inl (Eq.refl _)⟩

theorem Zone.squeezed.adapts {x y : Zone} (gave : x.squeezed y) : x.adapts y := by
  refine ⟨?_, fun e => absurd e (Nat.ne_of_gt gave.1), fun _ _ => .inr gave⟩
  rw [gave.2]

theorem Zone.adapts.trans {x y z : Zone} (a : x.adapts y) (b : y.adapts z) : x.adapts z := by
  obtain ⟨granted, effect, outer⟩ := a
  obtain ⟨granted', effect', outer'⟩ := b
  refine ⟨granted'.trans granted, fun e => effect' (effect e), fun off waiting => ?_⟩
  rcases outer off waiting with rfl | ⟨beyond, rfl⟩
  · exact outer' off waiting
  · rcases outer' off waiting with same | ⟨again, -⟩
    · exact .inr ⟨beyond, same⟩
    · exact absurd again (Nat.lt_irrefl _)

theorem Zone.adoptGrant_granted (x : Zone) : x.adoptGrant.lipGranted = x.lipGranted := by
  unfold Zone.adoptGrant
  split <;> rfl

theorem Zone.adoptGrant_effect (x : Zone) : x.adoptGrant.lipEffect = x.lipGranted := by
  unfold Zone.adoptGrant
  split
  · assumption
  · rfl

/-- Every zone of `g` has adapted from what it was in `h`. -/
def Hub.adapts (h g : Hub) : Prop := ∀ z, (h.zone z).adapts (g.zone z)

theorem Hub.adapts.rfl {h : Hub} : h.adapts h := fun _ => .rfl

theorem Hub.adapts.trans {h g k : Hub} (a : h.adapts g) (b : g.adapts k) : h.adapts k := fun z => (a z).trans (b z)

theorem Hub.setZone_adapts {z : ZoneId} {x : Zone} {h : Hub} (e : (h.zone z).adapts x) : h.adapts (h.setZone z x) := by
  intro w
  by_cases same : w = z
  · subst same
    rwa [Hub.zone_setZone_same]
  · rw [Hub.zone_setZone_other same]
    exact .rfl

theorem Hub.squeeze_adapts (z : ZoneId) (h : Hub) : h.adapts (h.squeeze z) := by
  unfold Hub.squeeze
  dsimp only
  split
  · next beyond =>
    refine Hub.setZone_adapts (Zone.squeezed.adapts ⟨beyond, ?_⟩)
    rw [Zone.adoptGrant, if_neg (Nat.ne_of_gt beyond)]
    rfl
  · exact .rfl

theorem Hub.squeeze_other {z w : ZoneId} (other : w ≠ z) (h : Hub) : (h.squeeze z).zone w = h.zone w := by
  unfold Hub.squeeze
  dsimp only
  split
  · exact Hub.zone_setZone_other other _ h
  · rfl

theorem Hub.makeRoomFrom_adapts (skip : Option ZoneId) (extra : Nat) (z : ZoneId) (h : Hub) :
    h.adapts (h.makeRoomFrom skip extra z) := by
  unfold Hub.makeRoomFrom
  split
  · exact h.squeeze_adapts z
  · exact .rfl

theorem Hub.makeRoom_adapts (skip : Option ZoneId) (extra : Nat) (h : Hub) : h.adapts (h.makeRoom skip extra) :=
  ((Hub.makeRoomFrom_adapts _ _ _ _).trans (Hub.makeRoomFrom_adapts _ _ _ _)).trans (Hub.makeRoomFrom_adapts _ _ _ _)

/-- R98: the zone for which room is made gives nothing up. -/
theorem Hub.makeRoom_skipped (z : ZoneId) (extra : Nat) (h : Hub) : (h.makeRoom (some z) extra).zone z = h.zone z := by
  have one (w : ZoneId) (k : Hub) : (k.makeRoomFrom (some z) extra w).zone z = k.zone z := by
    unfold Hub.makeRoomFrom
    split
    · next turn => exact Hub.squeeze_other (fun e => turn.2 (congrArg some e)) k
    · rfl
  rw [Hub.makeRoom, one, one, one]

theorem Hub.applyLipsync_zone_same (z : ZoneId) (h : Hub) : (h.applyLipsync z).zone z = (h.zone z).adoptGrant := by
  rw [Hub.applyLipsync, Hub.zone_setZone_same, Hub.makeRoom_skipped]

/-- R50, R53: a silent zone adopts its grant at once. -/
theorem Hub.applyGrant_silent {z : ZoneId} {h : Hub} (silent : (h.zone z).state = .off ∨ (h.zone z).state = .waiting) :
    h.applyGrant z = h.applyLipsync z := by
  rcases silent with e | e <;> simp [Hub.applyGrant, e]

theorem Hub.applyGrant_notSilent {z : ZoneId} {h : Hub} (off : (h.zone z).state ≠ .off)
    (waiting : (h.zone z).state ≠ .waiting) : h.applyGrant z = h := by
  unfold Hub.applyGrant
  split
  · next e => exact absurd e off
  · next e => exact absurd e waiting
  · rfl

theorem Hub.applyGrant_adapts (z : ZoneId) (h : Hub) : h.adapts (h.applyGrant z) := by
  by_cases silent : (h.zone z).state = .off ∨ (h.zone z).state = .waiting
  · rw [Hub.applyGrant_silent silent, Hub.applyLipsync]
    refine (h.makeRoom_adapts _ _).trans (Hub.setZone_adapts ⟨Zone.adoptGrant_granted _, fun _ => ?_, fun off waiting => ?_⟩)
    · rw [Zone.adoptGrant_effect, Zone.adoptGrant_granted]
    · rw [Hub.makeRoom_skipped] at off waiting
      exact absurd silent (not_or.mpr ⟨off, waiting⟩)
  · obtain ⟨off, waiting⟩ := not_or.mp silent
    rw [Hub.applyGrant_notSilent off waiting]
    exact .rfl

theorem Hub.applyGrant_adopts {z : ZoneId} {h : Hub} (silent : (h.zone z).state = .off ∨ (h.zone z).state = .waiting) :
    ((h.applyGrant z).zone z).lipEffect = ((h.applyGrant z).zone z).lipGranted := by
  rw [Hub.applyGrant_silent silent, Hub.applyLipsync_zone_same, Zone.adoptGrant_effect, Zone.adoptGrant_granted]

/-! ### The recomputation (R96, R97) -/

/-- R97: the grants told, in the order MAIN, Z2, Z3. -/
def Hub.tellGrants (h : Hub) : Hub :=
  ((h.tellGrant .main h.newGrants.main).tellGrant .z2 h.newGrants.z2).tellGrant .z3 h.newGrants.z3

/-- R97: the silent zones adopt their grants, in the order MAIN, Z2, Z3. -/
def Hub.applyGrants (h : Hub) : Hub := ((h.applyGrant .main).applyGrant .z2).applyGrant .z3

theorem Hub.recompute_eq (h : Hub) : h.recompute = h.tellGrants.applyGrants := rfl

theorem Hub.tellGrants_zone (h : Hub) (z : ZoneId) : h.tellGrants.zone z = (h.zone z).told (h.newGrants.get z) := by
  unfold Hub.tellGrants
  cases z
  · rw [Hub.tellGrant_zone_other (by decide), Hub.tellGrant_zone_other (by decide), Hub.tellGrant_zone_same]
    rfl
  · rw [Hub.tellGrant_zone_other (by decide), Hub.tellGrant_zone_same, Hub.tellGrant_zone_other (by decide)]
    rfl
  · rw [Hub.tellGrant_zone_same, Hub.tellGrant_zone_other (by decide), Hub.tellGrant_zone_other (by decide)]
    rfl

theorem Hub.applyGrants_keepsPosted (h : Hub) : h.keepsPosted h.applyGrants :=
  ((Hub.applyGrant_keepsPosted _ _).trans (Hub.applyGrant_keepsPosted _ _)).trans (Hub.applyGrant_keepsPosted _ _)

/-- A notice that the telling of a zone's grant posts is among those of the recomputation, for the turns of the other zones leave
the zone as it is until its own. -/
theorem Hub.recompute_hasPosted {n : Notice} {z : ZoneId} {h : Hub}
    (told : ∀ k : Hub, k.zone z = h.zone z → Hub.hasPosted n k (k.tellGrant z (h.newGrants.get z))) :
    Hub.hasPosted n h h.recompute := by
  refine Hub.hasPosted.after ?_ h.tellGrants.applyGrants_keepsPosted
  unfold Hub.tellGrants
  cases z
  · exact ((told h rfl).after (Hub.tellGrant_keepsPosted _ _ _)).after (Hub.tellGrant_keepsPosted _ _ _)
  · refine Hub.hasPosted.after (Hub.hasPosted.before (Hub.tellGrant_keepsPosted _ _ _) (told _ ?_))
      (Hub.tellGrant_keepsPosted _ _ _)
    exact Hub.tellGrant_zone_other (by decide) _ _
  · refine Hub.hasPosted.before ((Hub.tellGrant_keepsPosted _ _ _).trans (Hub.tellGrant_keepsPosted _ _ _)) (told _ ?_)
    rw [Hub.tellGrant_zone_other (by decide), Hub.tellGrant_zone_other (by decide)]

theorem Hub.applyGrants_adapts (h : Hub) : h.adapts h.applyGrants :=
  ((Hub.applyGrant_adapts _ _).trans (Hub.applyGrant_adapts _ _)).trans (Hub.applyGrant_adapts _ _)

theorem Hub.applyGrants_onCourse (h : Hub) : h.onCourse h.applyGrants :=
  ((Hub.applyGrant_onCourse _ _).trans (Hub.applyGrant_onCourse _ _)).trans (Hub.applyGrant_onCourse _ _)

theorem Zone.onCourse.state_eq {x y : Zone} (course : x.onCourse y) : y.state = x.state := course.2.2.2.1

/-- R50: each silent zone has adopted its grant; the turns of the zones before it leave it silent, and those after it leave it
with its grant in effect. -/
theorem Hub.applyGrants_adopts {z : ZoneId} {h : Hub} (silent : (h.zone z).state = .off ∨ (h.zone z).state = .waiting) :
    (h.applyGrants.zone z).lipEffect = (h.applyGrants.zone z).lipGranted := by
  have adopts (k : Hub) (course : h.onCourse k) :
      ((k.applyGrant z).zone z).lipEffect = ((k.applyGrant z).zone z).lipGranted :=
    Hub.applyGrant_adopts (by rwa [(course z).state_eq])
  have keeps (w : ZoneId) (k : Hub) (e : (k.zone z).lipEffect = (k.zone z).lipGranted) :
      ((k.applyGrant w).zone z).lipEffect = ((k.applyGrant w).zone z).lipGranted :=
    (k.applyGrant_adapts w z).2.1 e
  have first := h.applyGrant_onCourse .main
  have second := first.trans ((h.applyGrant .main).applyGrant_onCourse .z2)
  unfold Hub.applyGrants
  cases z
  · exact keeps _ _ (keeps _ _ (adopts h (Hub.onCourse_of_zones rfl)))
  · exact keeps _ _ (adopts _ first)
  · exact adopts _ second

/-- R52, R50, R97: a zone told its grant and adapted to it has taken the grant. -/
theorem Zone.told_tookGrant {x y : Zone} {z : ZoneId} {ms : Nat} {ns : List Notice}
    (settings : y.settings = x.settings) (course : (x.told ms).onCourse y) (adapts : (x.told ms).adapts y)
    (adopts : x.state = .off ∨ x.state = .waiting → y.lipEffect = y.lipGranted)
    (tells : ms ≠ x.lipGranted → lipsyncNotice z (x.told ms) ∈ ns)
    (tellsState : ms ≠ x.lipGranted → x.state = .playing ∨ x.state = .fadingIn → zoneStateNotice z (x.told ms) ∈ ns) :
    x.tookGrant y z ns := by
  obtain ⟨settings', current', gain', granted', -⟩ := x.told_frame ms
  obtain ⟨-, -, current, state, gain, noSignal, -⟩ := course
  obtain ⟨granted, -, outer⟩ := adapts
  have isGrant : y.lipGranted = ms := granted.trans granted'
  have holdsItem (item : (x.told ms).pending.lipsync = true) (off : (x.told ms).state ≠ .off)
      (waiting : (x.told ms).state ≠ .waiting) : y.pending.lipsync = true ∨ y.lipEffect = y.lipGranted := by
    rcases outer off waiting with rfl | ⟨-, rfl⟩
    · exact .inl item
    · exact .inr rfl
  refine ⟨settings, current.trans current', gain.trans gain', fun silent => ?_, fun same off waiting => ?_, fun new => ?_⟩
  · have still : (x.told ms).state = x.state ∧ (x.told ms).noSignal = x.noSignal := by
      unfold Zone.told
      split
      · exact ⟨rfl, rfl⟩
      · rw [Zone.holds_silent (x := { x with lipGranted := ms }) silent]
        exact ⟨rfl, rfl⟩
    exact ⟨state.trans still.1, noSignal.trans still.2⟩
  · have still : x.told ms = x := if_pos (isGrant.symm.trans same)
    rw [still] at outer
    exact outer off waiting
  · have new' : ms ≠ x.lipGranted := isGrant ▸ new
    refine ⟨?_, adopts, fun audible => ?_, fun k fading => ?_⟩
    · rw [lipsyncNotice_congr (settings.trans settings'.symm) granted]
      exact tells new'
    · have fades : x.told ms = Zone.fadeOut .reconfigure { x with lipGranted := ms, pending := x.pending.withLipsync } :=
        (if_neg new').trans (Zone.holds_audible (x := { x with lipGranted := ms }) audible)
      have told := tellsState new' audible
      rw [← zoneStateNotice_congr (settings.trans settings'.symm) state current] at told
      refine ⟨state.trans (by rw [fades]; rfl), holdsItem ?_ ?_ ?_, told⟩ <;>
        simp [fades, Zone.fadeOut, Zone.newWait, Items.withLipsync]
    · have joins : x.told ms = { x with lipGranted := ms, pending := x.pending.withLipsync } :=
        (if_neg new').trans (Zone.holds_fading (x := { x with lipGranted := ms }) fading)
      refine ⟨state.trans (by rw [joins]; exact fading), holdsItem ?_ ?_ ?_⟩ <;>
        simp [joins, fading, Items.withLipsync]

/-- R52, R97: after a recomputation each zone has taken its grant. -/
theorem Hub.recompute_tookGrant {h : Hub} (quiet : h.outbox = []) (z : ZoneId) :
    (h.zone z).tookGrant (h.recompute.zone z) z h.recompute.outbox := by
  have posted {n : Notice} (p : Hub.hasPosted n h h.recompute) : n ∈ h.recompute.outbox := by
    obtain ⟨ns, all, among⟩ := p
    rwa [all, quiet]
  have course := h.tellGrants.applyGrants_onCourse z
  have adapts := h.tellGrants.applyGrants_adapts z
  rw [Hub.tellGrants_zone] at course adapts
  refine Zone.told_tookGrant (settingsOf_get (Hub.recompute_settings h) z) course adapts (fun silent => ?_) (fun new => ?_)
    (fun new audible => ?_)
  · refine Hub.applyGrants_adopts (h := h.tellGrants) ?_
    rw [Hub.tellGrants_zone, Zone.told]
    split
    · exact silent
    · rwa [Zone.holds_silent (x := { h.zone z with lipGranted := h.newGrants.get z }) silent]
  · exact posted (Hub.recompute_hasPosted fun k same => same ▸ Hub.tellGrant_tells (same ▸ new))
  · exact posted (Hub.recompute_hasPosted fun k same =>
      same ▸ Hub.tellGrant_tellsState (same ▸ new) (same ▸ audible))

/-- R96: after a recomputation each zone holds the grant computed for it. -/
theorem Hub.recompute_granted_eq (h : Hub) (z : ZoneId) : (h.recompute.zone z).lipGranted = h.newGrants.get z := by
  have granted := (h.tellGrants.applyGrants_adapts z).1
  rw [Hub.tellGrants_zone] at granted
  obtain ⟨-, -, -, told, -⟩ := (h.zone z).told_frame (h.newGrants.get z)
  exact granted.trans told

/-- R96: the grants of the three zones, with the free cells that each finds. -/
theorem Hub.newGrants_eq (h : Hub) :
    let dist := max h.renderer.derived.cells h.renderer.inForce.cells
    let g := h.newGrants
    g.main = (if h.zones.main.power then min h.zones.main.lipRequested ((196608 - dist) / 384) else 0) ∧
      g.z2 = (if h.zones.z2.power then min h.zones.z2.lipRequested ((196608 - dist - 384 * g.main) / 96) else 0) ∧
      g.z3 =
        (if h.zones.z3.power then
          min h.zones.z3.lipRequested ((196608 - dist - 384 * g.main - 96 * g.z2) / 96)
        else 0) :=
  ⟨rfl, rfl, rfl⟩

/-- R96: a grant computed out of the free cells fits in them. -/
theorem grant_fits (power : Bool) (requested free size : Nat) :
    size * (if power then min requested (free / size) else 0) ≤ free := by
  cases power
  · exact Nat.zero_le _
  · exact (Nat.mul_le_mul_left size (Nat.min_le_right _ _)).trans (Nat.mul_div_le free size)

/-- R96: a recomputation leaves the grants of the requests. -/
theorem Hub.recompute_granted (h : Hub) : h.recompute.granted := by
  obtain ⟨-, -, renderer, -⟩ := h.recompute_frame
  have main : h.recompute.zones.main.lipGranted = h.newGrants.main := h.recompute_granted_eq .main
  have z2 : h.recompute.zones.z2.lipGranted = h.newGrants.z2 := h.recompute_granted_eq .z2
  have z3 : h.recompute.zones.z3.lipGranted = h.newGrants.z3 := h.recompute_granted_eq .z3
  have settings (z : ZoneId) : (h.recompute.zones.get z).settings = (h.zones.get z).settings :=
    settingsOf_get (Hub.recompute_settings h) z
  have power (z : ZoneId) : (h.recompute.zones.get z).power = (h.zones.get z).power :=
    congrArg ZoneSettings.power (settings z)
  have requested (z : ZoneId) : (h.recompute.zones.get z).lipRequested = (h.zones.get z).lipRequested :=
    congrArg ZoneSettings.lipRequested (settings z)
  obtain ⟨eMain, eZ2, eZ3⟩ := h.newGrants_eq
  unfold Hub.granted
  dsimp only
  rw [renderer, main, z2, z3, show h.recompute.zones.main.power = _ from power .main,
    show h.recompute.zones.z2.power = _ from power .z2, show h.recompute.zones.z3.power = _ from power .z3,
    show h.recompute.zones.main.lipRequested = _ from requested .main,
    show h.recompute.zones.z2.lipRequested = _ from requested .z2,
    show h.recompute.zones.z3.lipRequested = _ from requested .z3]
  refine ⟨eMain, eZ2, eZ3, fun fits => ?_⟩
  have fitMain := grant_fits h.zones.main.power h.zones.main.lipRequested
    (196608 - max h.renderer.derived.cells h.renderer.inForce.cells) 384
  have fitZ2 := grant_fits h.zones.z2.power h.zones.z2.lipRequested
    (196608 - max h.renderer.derived.cells h.renderer.inForce.cells - 384 * h.newGrants.main) 96
  have fitZ3 := grant_fits h.zones.z3.power h.zones.z3.lipRequested
    (196608 - max h.renderer.derived.cells h.renderer.inForce.cells - 384 * h.newGrants.main - 96 * h.newGrants.z2) 96
  rw [← eMain] at fitMain
  rw [← eZ2] at fitZ2
  rw [← eZ3] at fitZ3
  omega

/-! ### SET_LIPSYNC (R51) -/

/-- R51: the hub after a request of `n` ms for a zone: the grants are recomputed where the request changes. -/
def Hub.requestsLipsync (z : ZoneId) (n : Nat) (h : Hub) : Hub :=
  if n = (h.zone z).lipRequested then h else (h.setZone z { h.zone z with lipRequested := n }).recompute

theorem execSetLipsync_runs {s : State} {p : Port} {w ms : Word} {z : ZoneId} (listens : s.listens p)
    (e : w.toNat = z.code) :
    let n := min ms.toNat 500
    let g := s.hub.requestsLipsync z n
    ∃ t, execSetLipsync p w ms s = .next t ∧
      s.answers t p (s.ports.get p)
        (if 500 < ms.toNat ∨ ((s.hub.zone z).power = true ∧ (g.zone z).lipGranted < n) then .clamped else .ok)
        (.lipsync n (g.zone z).lipGranted g.grants) g.outbox ∧
      t.sources = s.sources ∧ t.hub = { g with outbox := [] } :=
  request_onHub_leaves (g := s.hub.requestsLipsync z (min ms.toNat 500)) listens
    (by simp [zoneOf_eq e, okOrClamped, Hub.requestsLipsync])

theorem Hub.requestsLipsync_frame (z : ZoneId) (n : Nat) (h : Hub) :
    let g := h.requestsLipsync z n
    g.clock = h.clock ∧ g.decoder = h.decoder ∧ g.renderer = h.renderer ∧ g.lanes = h.lanes ∧
      g.protection = h.protection ∧ g.radio = h.radio ∧ g.station = h.station ∧ g.standby = h.standby := by
  unfold Hub.requestsLipsync
  dsimp only
  split <;> simp

theorem Hub.requestsLipsync_settings_same (z : ZoneId) (n : Nat) (h : Hub) :
    ((h.requestsLipsync z n).zone z).settings = { (h.zone z).settings with lipRequested := n } := by
  unfold Hub.requestsLipsync
  split
  · next same => rw [same]; rfl
  · rw [Hub.zone, settingsOf_get (Hub.recompute_settings _) z]
    exact congrArg Zone.settings (Hub.zone_setZone_same z _ h)

theorem Hub.requestsLipsync_settings_other {z w : ZoneId} (other : w ≠ z) (n : Nat) (h : Hub) :
    ((h.requestsLipsync z n).zone w).settings = (h.zone w).settings := by
  unfold Hub.requestsLipsync
  split
  · rfl
  · rw [Hub.zone, settingsOf_get (Hub.recompute_settings _) w]
    exact congrArg Zone.settings (Hub.zone_setZone_other other _ h)

/-- Settles O33: SET_LIPSYNC writes the request, and a recomputation gives each zone its grant. -/
theorem setLipsyncRecomputesTheGrants : Obligations.SetLipsyncRecomputesTheGrants := by
  intro s p w ms z listens quiet e
  dsimp only
  obtain ⟨t, run, answered, sources, hub⟩ := execSetLipsync_runs (ms := ms) listens e
  obtain ⟨clock, decoder, renderer, lanes, protection, radio, station, standby⟩ :=
    s.hub.requestsLipsync_frame z (min ms.toNat 500)
  have none : s.hub.outbox = [] := quiet
  refine ⟨t, (s.hub.requestsLipsync z (min ms.toNat 500)).outbox, run, ?_⟩
  rw [hub]
  refine ⟨answered, sources, Hub.requestsLipsync_settings_same z _ s.hub,
    fun y other => Hub.requestsLipsync_settings_other other _ s.hub, fun same => ?_, fun changed => ?_, clock, decoder,
    renderer, lanes, protection, radio, station, standby⟩
  · rw [Hub.requestsLipsync, if_pos same]
    exact ⟨by rw [← none], none⟩
  · rw [Hub.requestsLipsync, if_neg changed]
    have took := Hub.recompute_tookGrant
      (h := s.hub.setZone z { s.hub.zone z with lipRequested := min ms.toNat 500 }) none
    refine ⟨Hub.recompute_granted _, ?_, fun y other => ?_⟩
    · have own := took z
      rwa [Hub.zone_setZone_same] at own
    · have own := took y
      rwa [Hub.zone_setZone_other other] at own

end Sys2Proof.Machine
end

section
/-! SUPPORT. SET_DECODE_MODE (R69 to R71, R81, O37): what the derivation after it makes of the decoder, of the main zone and of
the bass filters, and its notices. -/

namespace Sys2Proof.Machine

/-! ### An item raised (R50) -/

theorem Hub.raiseItem_silent (join : Items → Items) (apply : Hub → Hub) {z : ZoneId} {h : Hub}
    (silent : (h.zone z).state = .off ∨ (h.zone z).state = .waiting) : h.raiseItem join apply z = apply h := by
  rcases silent with e | e <;> simp [Hub.raiseItem, e]

theorem Hub.raiseItem_held (join : Items → Items) (apply : Hub → Hub) {z : ZoneId} {h : Hub}
    (off : (h.zone z).state ≠ .off) (waiting : (h.zone z).state ≠ .waiting) :
    h.raiseItem join apply z = h.holdItem join z := by
  unfold Hub.raiseItem
  split
  · next e => exact absurd e off
  · next e => exact absurd e waiting
  · rfl

/-! ### The derivation after a request (R70, R81) -/

/-- R81: the DECODE_ACTIVE of a request, with the pair that is active as it is posted. -/
def Hub.tellDecode (h : Hub) : Hub := post (decodeActiveNotice h.decoder) h

/-- R50: the DECODE item joins a pending set. -/
def Items.withDecode (s : Items) : Items := { s with decode := true }

/-- R81: the hub with a mode and an option written. -/
def Hub.writeDecode (m : RequestedMode) (option : Bool) (h : Hub) : Hub :=
  { h with decoder := { h.decoder with requested := m, autoMatrix := option } }

/-- R81, R70: the hub after a request for a mode and an option. -/
def Hub.requestsDecode (src : Vector Source 8) (m : RequestedMode) (option : Bool) (h : Hub) : Hub :=
  if m = h.decoder.requested ∧ option = h.decoder.autoMatrix then h
  else (h.writeDecode m option).rederive Hub.tellDecode src

/-- R70: the derived pair is in force already, or an item is pending: nothing is raised. -/
theorem Hub.rederive_kept {tell : Hub → Hub} {src : Vector Source 8} {i : SourceId} {h : Hub}
    (source : h.decoder.source = some i)
    (kept : (h.decoder.derive src i).derived = h.decoder.active ∨ h.decoder.itemPending = true) :
    h.rederive tell src = tell { h with decoder := h.decoder.derive src i } := by
  have none : ¬ ((h.decoder.derive src i).derived ≠ (h.decoder.derive src i).active ∧
      (h.decoder.derive src i).itemPending = false) := by
    rintro ⟨moved, item⟩
    rcases kept with same | pending
    · exact moved same
    · exact absurd (pending.symm.trans item) (by decide)
  simp only [Hub.rederive, source, if_neg none]

/-- R70: another pair is derived and no item is pending: the DECODE item is raised for the main zone. -/
theorem Hub.rederive_raises {tell : Hub → Hub} {src : Vector Source 8} {i : SourceId} {h : Hub}
    (source : h.decoder.source = some i) (moved : (h.decoder.derive src i).derived ≠ h.decoder.active)
    (item : h.decoder.itemPending = false) :
    h.rederive tell src =
      Hub.raiseItem Items.withDecode Hub.applyDecode .main
        (tell { h with decoder := { h.decoder.derive src i with itemPending := true } }) := by
  have raised : (h.decoder.derive src i).derived ≠ (h.decoder.derive src i).active ∧
      (h.decoder.derive src i).itemPending = false := ⟨moved, item⟩
  simp only [Hub.rederive, source, if_pos raised]
  rfl

/-- R71: the bass filters and the notices of an adoption of another pair. -/
theorem Hub.adoptDecode_filters (h : Hub) :
    h.adoptDecode.renderer =
      if h.decoder.derived.mode = h.decoder.active.mode then h.renderer else h.renderer.clearFilters := by
  unfold Hub.adoptDecode
  by_cases same : h.decoder.derived.mode = h.decoder.active.mode <;> simp [same]

theorem Hub.adoptDecode_outbox {h : Hub} (moved : h.decoder.derived ≠ h.decoder.active) :
    h.adoptDecode.outbox = h.outbox ++ [decodeActiveNotice h.adoptDecode.decoder] := by
  unfold Hub.adoptDecode
  dsimp only
  rw [decide_eq_true moved]
  split <;> rfl

/-! ### What stays -/

/-- From `h` to `g` nothing changes but the active and the derived pair with what they govern in the decoder, the main zone, the
bass filters, and the events and notices. -/
def Hub.keepsBesideDecode (h g : Hub) : Prop :=
  g.decoder.requested = h.decoder.requested ∧ g.decoder.autoMatrix = h.decoder.autoMatrix ∧
    g.zones.z2 = h.zones.z2 ∧ g.zones.z3 = h.zones.z3 ∧ g.clock = h.clock ∧
    g.renderer = { h.renderer with filters := g.renderer.filters } ∧ g.lanes = h.lanes ∧
    g.protection = h.protection ∧ g.radio = h.radio ∧ g.station = h.station ∧ g.standby = h.standby

theorem Hub.adoptDecode_keepsBesideDecode (h : Hub) : h.keepsBesideDecode h.adoptDecode := by
  obtain ⟨-, ⟨-, -, requested, matrix⟩, -⟩ := h.adoptDecode_decoder
  obtain ⟨clock, zones, lanes, protection, radio, station, standby, -⟩ := h.adoptDecode_frame
  refine ⟨requested, matrix, by rw [zones], by rw [zones], clock, ?_, lanes, protection, radio, station, standby⟩
  rw [Hub.adoptDecode_filters]
  split <;> rfl

theorem Hub.holdItem_keepsBesideDecode (join : Items → Items) (h : Hub) :
    h.keepsBesideDecode (h.holdItem join .main) := by
  obtain ⟨clock, decoder, renderer, lanes, protection, radio, station, standby⟩ := h.holdItem_frame join .main
  have z2 : (h.holdItem join .main).zone .z2 = h.zone .z2 := Hub.holdItem_zone_other join (by decide) h
  have z3 : (h.holdItem join .main).zone .z3 = h.zone .z3 := Hub.holdItem_zone_other join (by decide) h
  exact ⟨by rw [decoder], by rw [decoder], z2, z3, clock, by rw [renderer], lanes, protection, radio, station, standby⟩

/-- R81: the derivation after a request touches the decoder, the main zone and the filters alone. -/
theorem Hub.rederive_keepsBesideDecode (src : Vector Source 8) (h : Hub) :
    h.keepsBesideDecode (h.rederive Hub.tellDecode src) := by
  have raised (k : Hub) (same : h.keepsBesideDecode k) :
      h.keepsBesideDecode (k.raiseItem Items.withDecode Hub.applyDecode .main) := by
    have trans {g : Hub} (next : k.keepsBesideDecode g) : h.keepsBesideDecode g := by
      obtain ⟨e1, e2, e3, e4, e5, e6, e7, e8, e9, e10, e11⟩ := same
      obtain ⟨f1, f2, f3, f4, f5, f6, f7, f8, f9, f10, f11⟩ := next
      exact ⟨f1.trans e1, f2.trans e2, f3.trans e3, f4.trans e4, f5.trans e5, f6.trans (by rw [e6]), f7.trans e7,
        f8.trans e8, f9.trans e9, f10.trans e10, f11.trans e11⟩
    by_cases silent : (k.zone .main).state = .off ∨ (k.zone .main).state = .waiting
    · rw [Hub.raiseItem_silent _ _ silent]
      exact trans (Hub.adoptDecode_keepsBesideDecode { k with decoder := { k.decoder with itemPending := false } })
    · obtain ⟨off, waiting⟩ := not_or.mp silent
      rw [Hub.raiseItem_held _ _ off waiting]
      exact trans (Hub.holdItem_keepsBesideDecode _ k)
  unfold Hub.rederive
  split
  · exact ⟨rfl, rfl, rfl, rfl, rfl, rfl, rfl, rfl, rfl, rfl, rfl⟩
  · dsimp only
    split
    · exact raised _ ⟨rfl, rfl, rfl, rfl, rfl, rfl, rfl, rfl, rfl, rfl, rfl⟩
    · exact ⟨rfl, rfl, rfl, rfl, rfl, rfl, rfl, rfl, rfl, rfl, rfl⟩

/-! ### SET_DECODE_MODE (R81) -/

theorem decodeModeOf_eq {w : Word} {m : RequestedMode}
    (e : (w = 0 ∧ m = .auto) ∨ (w = 1 ∧ m = .direct) ∨ (w = 2 ∧ m = .matrix) ∨ (w = 3 ∧ m = .fold2)) :
    decodeModeOf w = some m := by
  rcases e with ⟨rfl, rfl⟩ | ⟨rfl, rfl⟩ | ⟨rfl, rfl⟩ | ⟨rfl, rfl⟩ <;> rfl

theorem execSetDecodeMode_runs {s : State} {p : Port} {w v : Word} {m : RequestedMode} {option : Bool}
    (listens : s.listens p) (mode : decodeModeOf w = some m) (flag : flagOf v = some option) :
    let g := s.hub.requestsDecode s.sources m option
    ∃ t, execSetDecodeMode p w v s = .next t ∧
      s.answers t p (s.ports.get p) .ok (.decodeMode (decodeView g.decoder)) g.outbox ∧
      t.sources = s.sources ∧ t.hub = { g with outbox := [] } :=
  request_onHub_leaves (g := s.hub.requestsDecode s.sources m option) listens (by rw [mode, flag]; rfl)

/-- R71: a bass filter after the adoption of a pair. -/
theorem Renderer.clearFilters_getElem (r : Renderer) (keeps : Prop) [Decidable keeps] (q : Position) :
    (if keeps then r else r.clearFilters).filters[q] = if keeps then r.filters[q] else 0 := by
  split
  · rfl
  · exact Vector.getElem_replicate _

/-- R81: the hub whose request has been told, the derived pair written and its item pending. -/
def Hub.decodeRaised (src : Vector Source 8) (i : SourceId) (h : Hub) : Hub :=
  Hub.tellDecode { h with decoder := { h.decoder.derive src i with itemPending := true } }

section
variable {src : Vector Source 8} {i : SourceId} {h : Hub} {pair : DecodePair}

/-- R70, R71: another pair is adopted at once while the main zone is silent. -/
theorem Hub.rederive_adopts (source : h.decoder.source = some i) (derived : (h.decoder.derive src i).derived = pair)
    (moved : pair ≠ h.decoder.active) (item : h.decoder.itemPending = false)
    (silent : h.zones.main.state = .off ∨ h.zones.main.state = .waiting) :
    let g := h.rederive Hub.tellDecode src
    g.zones = h.zones ∧ g.decoder.derived = pair ∧ h.decoder.adopts g.decoder pair ∧ g.decoder.itemPending = false ∧
      g.renderer = (if pair.mode = h.decoder.active.mode then h.renderer else h.renderer.clearFilters) ∧
      g.outbox = h.outbox ++ [decodeActiveNotice { h.decoder with itemPending := true }, decodeActiveNotice g.decoder] := by
  intro g
  generalize written : ({ h.decodeRaised src i with
    decoder := { h.decoder.derive src i with itemPending := false } } : Hub) = k
  have applied : g = k.adoptDecode := by
    rw [← written]
    exact (Hub.rederive_raises source (derived ▸ moved) item).trans (Hub.raiseItem_silent _ _ silent)
  have decoder : k.decoder = { h.decoder.derive src i with itemPending := false } := by rw [← written]
  obtain ⟨adopts, ⟨-, derived', -, -⟩, item'⟩ := k.adoptDecode_decoder
  obtain ⟨-, zones, -⟩ := k.adoptDecode_frame
  have filters := k.adoptDecode_filters
  have told := Hub.adoptDecode_outbox (h := k) (by rw [decoder]; exact derived ▸ moved)
  rw [← applied, decoder] at adopts derived' item' filters
  rw [← applied] at zones told
  refine ⟨zones.trans (by rw [← written]; rfl), derived'.trans derived, derived ▸ adopts, item', ?_, ?_⟩
  · rw [filters, derived, ← written]
    rfl
  · rw [told, show k.outbox = h.outbox ++ [_] by rw [← written]; rfl, List.append_assoc]
    rfl

/-- R70, R50: another pair is held as an item of a main zone that is not silent. -/
theorem Hub.rederive_holds (source : h.decoder.source = some i) (derived : (h.decoder.derive src i).derived = pair)
    (moved : pair ≠ h.decoder.active) (item : h.decoder.itemPending = false)
    (off : h.zones.main.state ≠ .off) (waiting : h.zones.main.state ≠ .waiting) :
    let g := h.rederive Hub.tellDecode src
    let y := h.zones.main.holds Items.withDecode
    g.zones.main = y ∧ g.decoder = { h.decoder.derive src i with itemPending := true } ∧ g.renderer = h.renderer ∧
      g.outbox = h.outbox ++ decodeActiveNotice { h.decoder with itemPending := true } ::
        (if h.zones.main.state = .playing ∨ h.zones.main.state = .fadingIn then [zoneStateNotice .main y] else []) := by
  intro g y
  have held : g = (h.decodeRaised src i).holdItem Items.withDecode .main :=
    (Hub.rederive_raises source (derived ▸ moved) item).trans (Hub.raiseItem_held _ _ off waiting)
  obtain ⟨-, decoder, renderer, -⟩ := (h.decodeRaised src i).holdItem_frame Items.withDecode .main
  rw [held, Hub.holdItem_outbox, decoder, renderer]
  refine ⟨Hub.holdItem_zone_same _ .main _, rfl, rfl, ?_⟩
  exact List.append_assoc h.outbox [_] _

/-- R69: the derived pair is the table's, whatever becomes of it. -/
theorem Hub.rederive_derived (source : h.decoder.source = some i) (derived : (h.decoder.derive src i).derived = pair) :
    (h.rederive Hub.tellDecode src).decoder.derived = pair := by
  by_cases kept : (h.decoder.derive src i).derived = h.decoder.active ∨ h.decoder.itemPending = true
  · rw [Hub.rederive_kept source kept]
    exact derived
  · obtain ⟨moved, item⟩ := not_or.mp kept
    rw [derived] at moved
    rw [Bool.not_eq_true] at item
    by_cases silent : h.zones.main.state = .off ∨ h.zones.main.state = .waiting
    · exact (Hub.rederive_adopts source derived moved item silent).2.1
    · obtain ⟨off, waiting⟩ := not_or.mp silent
      rw [(Hub.rederive_holds source derived moved item off waiting).2.1]
      exact derived

end

/-- R81: what a request for a mode leaves as it is, and the settings that it writes. -/
theorem Hub.requestsDecode_frame (src : Vector Source 8) (m : RequestedMode) (option : Bool) (h : Hub) :
    let g := h.requestsDecode src m option
    g.decoder.requested = m ∧ g.decoder.autoMatrix = option ∧ g.zones.z2 = h.zones.z2 ∧ g.zones.z3 = h.zones.z3 ∧
      g.clock = h.clock ∧ g.renderer = { h.renderer with filters := g.renderer.filters } ∧ g.lanes = h.lanes ∧
      g.protection = h.protection ∧ g.radio = h.radio ∧ g.station = h.station ∧ g.standby = h.standby := by
  unfold Hub.requestsDecode
  dsimp only
  split
  · next same => exact ⟨same.1.symm, same.2.symm, rfl, rfl, rfl, rfl, rfl, rfl, rfl, rfl, rfl⟩
  · exact Hub.rederive_keepsBesideDecode src (h.writeDecode m option)

/-- Settles O37: the derivation after the request keeps the pair in force, adopts another at once, or raises an item. -/
theorem setDecodeModeDerivesTheMode : Obligations.SetDecodeModeDerivesTheMode := by
  intro s p w v m option listens quiet mode flag d
  obtain ⟨t, run, answered, sources, hub⟩ := execSetDecodeMode_runs listens (decodeModeOf_eq mode) (flagOf_eq flag)
  obtain ⟨requested, matrix, z2, z3, clock, renderer, lanes, protection, radio, station, standby⟩ :=
    s.hub.requestsDecode_frame s.sources m option
  have none : s.hub.outbox = [] := quiet
  refine ⟨t, (s.hub.requestsDecode s.sources m option).outbox, run, ?_⟩
  rw [hub]
  refine ⟨?_, sources, requested, matrix, fun modeSame optionSame => ?_, fun changed => ⟨fun noSource => ?_,
    fun i source => ?_⟩, z2, z3, clock, renderer, lanes, protection, radio, station, standby⟩
  · rw [decodeView, requested, matrix] at answered
    exact answered
  · rw [Hub.requestsDecode, if_pos ⟨modeSame, optionSame⟩]
    exact ⟨by rw [← none], none⟩
  · have stored : (s.hub.writeDecode m option).rederive Hub.tellDecode s.sources =
        (s.hub.writeDecode m option).tellDecode := by
      have absent : (s.hub.writeDecode m option).decoder.source = Option.none := noSource
      simp only [Hub.rederive, absent]
    rw [Hub.requestsDecode, if_neg changed, stored]
    simp only [Hub.tellDecode, Hub.writeDecode, post, none, List.nil_append]
    exact ⟨by rw [← none], rfl⟩
  · intro multi told pair
    have source' : (s.hub.writeDecode m option).decoder.source = some i := source
    have derived : ((s.hub.writeDecode m option).decoder.derive s.sources i).derived = pair :=
      derivePair_eq_tablePair (s.hub.writeDecode m option).decoder s.sources[i].channels
    clear_value pair
    rw [Hub.requestsDecode, if_neg changed]
    refine ⟨?_, fun kept => ?_, fun moved item => ?_⟩
    · exact Hub.rederive_derived source' derived
    · rw [Hub.rederive_kept source' (derived ▸ kept)]
      refine ⟨rfl, rfl, rfl, rfl, ?_⟩
      rw [Hub.tellDecode, post_outbox]
      exact congrArg (· ++ _) none
    · have written : (s.hub.writeDecode m option).zones = s.hub.zones ∧ (s.hub.writeDecode m option).outbox = [] :=
        ⟨rfl, none⟩
      have holds := Hub.rederive_holds source' derived moved item
      rw [written.1, written.2] at holds
      refine ⟨fun silent => ?_, fun audible => ?_, fun ⟨k, fading⟩ => ?_⟩
      · obtain ⟨zones, -, adopts, item', filters, notices⟩ := Hub.rederive_adopts source' derived moved item silent
        rw [written.2] at notices
        exact ⟨zones, adopts, item', fun q => (congrArg (fun r : Renderer => r.filters[q]) filters).trans
          (Renderer.clearFilters_getElem s.hub.renderer _ q), notices⟩
      · obtain ⟨zone, decoder, filters, notices⟩ := holds (by rcases audible with e | e <;> simp [e])
          (by rcases audible with e | e <;> simp [e])
        rw [if_pos audible, ← zone] at notices
        rw [Zone.holds_audible audible] at zone
        exact ⟨(congrArg Zone.state zone :), (congrArg Zone.gain zone :), (congrArg Zone.pending zone :),
          (congrArg Decoder.active decoder :), (congrArg Decoder.itemPending decoder :), filters, notices⟩
      · obtain ⟨zone, decoder, filters, notices⟩ := holds (by simp [fading]) (by simp [fading])
        rw [if_neg (by simp [fading])] at notices
        rw [Zone.holds_fading fading] at zone
        exact ⟨zone, (congrArg Decoder.active decoder :), (congrArg Decoder.itemPending decoder :), filters, notices⟩

end Sys2Proof.Machine
end

section
/-! SUPPORT. The layout requests (R86, R99 to R102, O39): a table written and the layout derived from it, the examination
of lanes of which no fault input is asserted, and the entries that the requests write. -/

namespace Sys2Proof.Machine

/-! ### The tables written and the layout derived (R86) -/

/-- R99 to R102: the layout tables written. -/
def Hub.writeTables (entries : Vector PositionEntry 7) (sub : SubEntry) (crossover : Nat) (h : Hub) : Hub :=
  { h with renderer := { h.renderer with entries := entries, sub := sub, crossover := crossover } }

/-- R86: the tables written, and the layout derived anew. -/
def Hub.deriveFrom (entries : Vector PositionEntry 7) (sub : SubEntry) (crossover : Nat) (h : Hub) : Hub :=
  (h.writeTables entries sub crossover).deriveLayout .controller

section
variable (entries : Vector PositionEntry 7) (sub : SubEntry) (crossover : Nat)

theorem Hub.deriveFrom_raises {h : Hub} (quiet : h.outbox = []) :
    h.raisesLayout (h.deriveFrom entries sub crossover) (deriveLayoutOf entries sub crossover h.lanes)
      (h.deriveFrom entries sub crossover).outbox := by
  obtain ⟨ns, outbox, raises⟩ := (h.writeTables entries sub crossover).deriveLayout_raises
  have told : (h.deriveFrom entries sub crossover).outbox = ns := by
    rw [Hub.deriveFrom, outbox, show (h.writeTables entries sub crossover).outbox = [] from quiet, List.nil_append]
  rw [told]
  exact raises

/-- R86: a derivation from written tables leaves them as written, and the blocks that do not play the layout. -/
theorem Hub.deriveFrom_frame (h : Hub) :
    let g := h.deriveFrom entries sub crossover
    g.renderer.tables = { h.renderer.tables with entries := entries, sub := sub, crossover := crossover } ∧
      g.clock = h.clock ∧ g.decoder = h.decoder ∧ g.lanes = h.lanes ∧ g.protection = h.protection ∧
      g.radio = h.radio ∧ g.station = h.station ∧ g.standby = h.standby ∧
      settingsOf g.zones = settingsOf h.zones := by
  unfold Hub.deriveFrom
  refine ⟨?_, ?_⟩
  · rw [Hub.deriveLayout_tables]
    rfl
  · simp [Hub.writeTables]

end

/-! ### Lanes without an asserted fault input (R110, R113) -/

/-- No fault input is asserted, so that a relay that enters CLOSING trips no lane. -/
def Hub.faultless (h : Hub) : Prop := ∀ l : LaneId, h.lanes[l].faultInput = false

/-- From `h` to `g` the lanes alone have moved, with notices of their own, and no fault input. -/
def Hub.movesLanes (h g : Hub) : Prop :=
  g.faultless ∧ g.renderer = h.renderer ∧ g.zones = h.zones ∧ h.keepsPosted g

theorem Hub.movesLanes.refl {h : Hub} (free : h.faultless) : h.movesLanes h :=
  ⟨free, rfl, rfl, Hub.keepsPosted_of_eq rfl⟩

theorem Hub.movesLanes.trans {h g k : Hub} (a : h.movesLanes g) (b : g.movesLanes k) : h.movesLanes k := by
  obtain ⟨-, renderer, zones, posted⟩ := a
  obtain ⟨free, renderer', zones', posted'⟩ := b
  exact ⟨free, renderer'.trans renderer, zones'.trans zones, posted.trans posted'⟩

/-- A lane record written that keeps the level of the lane's fault input. -/
theorem Hub.setLane_movesLanes {l : LaneId} {x : Lane} {h : Hub} (free : h.faultless)
    (level : x.faultInput = h.lanes[l].faultInput) : h.movesLanes (h.setLane l x) := by
  refine ⟨fun m => ?_, rfl, rfl, Hub.keepsPosted_of_eq rfl⟩
  have written : (h.setLane l x).lanes[m] = if l.val = m.val then x else h.lanes[m] := by
    simp [Hub.setLane, Vector.getElem_set]
  rw [written]
  split
  · exact level.trans (free l)
  · exact free m

theorem Hub.postLaneState_movesLanes (l : LaneId) {h : Hub} (free : h.faultless) : h.movesLanes (h.postLaneState l) :=
  ⟨free, rfl, rfl, post_keepsPosted _ _⟩

/-- R110, R111: the examination of a lane moves its relay at most. -/
theorem Hub.examine_movesLanes (l : LaneId) {h : Hub} (free : h.faultless) : h.movesLanes (h.examine l) := by
  have writes (x : Lane) (level : x.faultInput = h.lanes[l].faultInput) :
      h.movesLanes ((h.setLane l x).postLaneState l) :=
    (Hub.setLane_movesLanes free level).trans (Hub.postLaneState_movesLanes l (Hub.setLane_movesLanes free level).1)
  unfold Hub.examine
  dsimp only
  split
  · rw [Hub.enterClosing, free l]
    exact writes { h.lanes[l] with relay := .closing, timer := 0 } rfl
  · exact writes { h.lanes[l] with relay := .opening, timer := 0, ramp := none } rfl
  · refine Hub.setLane_movesLanes free ?_
    unfold Lane.beginRamp
    split <;> rfl
  · exact Hub.movesLanes.refl free

theorem Hub.examineAll_movesLanes {h : Hub} (free : h.faultless) : h.movesLanes h.examineAll := by
  have folded (ls : List LaneId) :
      ∀ g : Hub, h.movesLanes g → h.movesLanes (ls.foldl (fun k l => Hub.examine l k) g) := by
    induction ls with
    | nil => exact fun _ moved => moved
    | cons l ls ih => exact fun g moved => ih _ (moved.trans (Hub.examine_movesLanes l moved.1))
  rw [Hub.examineAll, Hub.eachLane]
  exact folded allLanes h (Hub.movesLanes.refl free)

/-- R86: what a derivation leads to stands when the lanes alone move after it. -/
theorem Hub.raisesLayout.after {h g k : Hub} {l : Layout} {ns ms : List Notice} (raises : h.raisesLayout g l ns)
    (renderer : k.renderer = g.renderer) (zones : k.zones = g.zones) (kept : ns ⊆ ms) : h.raisesLayout k l ms := by
  unfold Hub.raisesLayout at raises ⊢
  dsimp only at raises ⊢
  rw [renderer, zones]
  obtain ⟨derived, tells, stays, raised⟩ := raises
  refine ⟨derived, fun new => kept (tells new), stays, fun new item => ?_⟩
  obtain ⟨silent, others⟩ := raised new item
  refine ⟨fun off => ?_, others⟩
  obtain ⟨item', adopted, told, state⟩ := silent off
  refine ⟨item', adopted, fun moved => ?_, state⟩
  obtain ⟨effective, invalid⟩ := told moved
  exact ⟨kept effective, fun a b => kept (invalid a b)⟩

/-! ### The entries that the requests write (R99 to R102) -/

theorem flagOf_one_zero {w : Word} {flag : Bool} (e : w = if flag then 1 else 0) : flagOf w = some flag := by
  subst e
  cases flag <;> rfl

theorem Hub.smallWithoutSub_iff {i : Position} {small : Bool} {h : Hub} :
    h.smallWithoutSub i small = true ↔ i.val ≤ 1 ∧ small = true ∧ h.renderer.sub.present = false := by
  simp [Hub.smallWithoutSub, and_assoc]

/-- R99: CLAMPED where the distance or the trim was brought into its range. -/
theorem okOrClamped_entry (distance trim : Word) (data : ReplyData) :
    okOrClamped (distanceMoved distance || trimMoved trim) data =
      ⟨if distanceOf distance = distance.toNat ∧ trimOf trim = trim.toInt then .ok else .clamped, data⟩ := by
  by_cases near : distanceOf distance = distance.toNat <;> by_cases level : trimOf trim = trim.toInt <;>
    simp [okOrClamped, distanceMoved, trimMoved, near, level]

theorem okOrClamped_trim (trim : Word) (data : ReplyData) :
    okOrClamped (trimMoved trim) data = ⟨if trimOf trim = trim.toInt then .ok else .clamped, data⟩ := by
  by_cases level : trimOf trim = trim.toInt <;> simp [okOrClamped, trimMoved, level]

/-- R86: from `h` to `g` the blocks that have no part in the layout stay, and the settings of the zones. -/
def Hub.keepsBesideLayout (h g : Hub) : Prop :=
  g.clock = h.clock ∧ g.decoder = h.decoder ∧ g.protection = h.protection ∧ g.radio = h.radio ∧
    g.station = h.station ∧ g.standby = h.standby ∧ settingsOf g.zones = settingsOf h.zones

section
variable (i : Position) (e : PositionEntry) (h : Hub)

/-- R100: a position entry written, where nothing but the trim changes. -/
def Hub.withEntry : Hub := { h with renderer := { h.renderer with entries := h.renderer.entries.set i e } }

/-- R100: a position entry written and the layout derived. -/
def Hub.derivesEntry : Hub :=
  h.deriveFrom (h.renderer.entries.set i e) h.renderer.sub h.renderer.crossover

/-- R100: a position entry that differs from the one held in its trim at most. -/
def Hub.sameBesideTrim : Prop :=
  e.present = h.renderer.entries[i].present ∧ e.small = h.renderer.entries[i].small ∧
    e.distance = h.renderer.entries[i].distance

variable {i e h}

theorem Hub.writeEntry_trim (same : h.sameBesideTrim i e) : h.writeEntry i e = h.withEntry i e := by
  obtain ⟨present, small, distance⟩ := same
  unfold Hub.writeEntry
  dsimp only
  rw [if_pos present, if_pos ⟨present, small, distance⟩]
  rfl

theorem Hub.writeEntry_derives (other : ¬ h.sameBesideTrim i e) :
    h.writeEntry i e =
      if e.present = h.renderer.entries[i].present then h.derivesEntry i e else (h.derivesEntry i e).examineAll := by
  unfold Hub.sameBesideTrim at other
  unfold Hub.writeEntry
  dsimp only
  rw [if_neg other]
  rfl

/-- R100: the entry is written, whatever the change of it leads to. -/
theorem Hub.writeEntry_tables :
    (h.writeEntry i e).renderer.tables = { h.renderer.tables with entries := h.renderer.entries.set i e } := by
  by_cases same : h.sameBesideTrim i e
  · rw [Hub.writeEntry_trim same]
    rfl
  · obtain ⟨tables, -⟩ := h.deriveFrom_frame (h.renderer.entries.set i e) h.renderer.sub h.renderer.crossover
    rw [Hub.writeEntry_derives same]
    split
    · exact tables
    · exact (Hub.examineAll_tables _).trans tables

theorem Hub.writeEntry_keepsBesideLayout : h.keepsBesideLayout (h.writeEntry i e) := by
  refine ⟨?_, ?_, ?_, ?_, ?_, ?_, Hub.writeEntry_settings i e h⟩
  all_goals
    unfold Hub.writeEntry
    dsimp only
    split_ifs <;> simp

/-- R86, R100: an entry that differs in more than its trim leads to a derivation; the lanes that a change of presence
moves after it trip only where a fault input is asserted. -/
theorem Hub.writeEntry_raises (other : ¬ h.sameBesideTrim i e) (quiet : h.outbox = []) (free : h.faultless) :
    h.raisesLayout (h.writeEntry i e)
      (deriveLayoutOf (h.renderer.entries.set i e) h.renderer.sub h.renderer.crossover h.lanes)
      (h.writeEntry i e).outbox := by
  have raises := h.deriveFrom_raises (h.renderer.entries.set i e) h.renderer.sub h.renderer.crossover quiet
  rw [Hub.writeEntry_derives other]
  split
  · exact raises
  · obtain ⟨-, -, -, lanes, -⟩ :=
      h.deriveFrom_frame (h.renderer.entries.set i e) h.renderer.sub h.renderer.crossover
    have free' : (h.derivesEntry i e).faultless := fun l => (congrArg (fun x => x[l].faultInput) lanes).trans (free l)
    obtain ⟨-, renderer, zones, ns, posted⟩ := Hub.examineAll_movesLanes free'
    exact raises.after renderer zones fun n told => posted ▸ List.mem_append_left ns told

end

/-- R99, R100: SET_SPEAKER at a position writes the entry, unless it would make a front SMALL without a SUB. -/
theorem execSetSpeaker_runs {s : State} {p : Port} {pos there small dist trim : Word} {i : Position} {here tiny : Bool}
    (listens : s.listens p) (place : pos.toNat = i.val) (present : flagOf there = some here)
    (size : flagOf small = some tiny) (taken : s.hub.smallWithoutSub i tiny = false) :
    let e : PositionEntry := ⟨here, tiny, distanceOf dist, trimOf trim⟩
    let g := s.hub.writeEntry i e
    ∃ t, execSetSpeaker p pos there small dist trim s = .next t ∧
      s.answers t p (s.ports.get p)
        (if distanceOf dist = dist.toNat ∧ trimOf trim = trim.toInt then .ok else .clamped)
        (.speaker e (layoutFigures g)) g.outbox ∧
      t.sources = s.sources ∧ t.hub = { g with outbox := [] } := by
  intro e g
  refine request_onHub_leaves listens ?_
  have inside : pos.toNat < 7 := place ▸ i.isLt
  have named : (⟨pos.toNat, inside⟩ : Position) = i := Fin.ext place
  rw [dif_pos inside, present, size]
  dsimp only
  rw [named, taken, okOrClamped_entry]
  rfl

/-- A request whose rule leaves the hub as it is changes no block. -/
theorem request_onHub_refuses {s : State} {p : Port} {kind : Nat} {params : List Word}
    {rule : Vector Source 8 → Hub → Hub × Answer} {a : Answer} (listens : s.listens p) (quiet : s.delivered)
    (leaves : rule s.sources s.hub = (s.hub, a)) :
    ∃ t, request p kind params (onHub rule) s = .next t ∧ s.answersOnly t p a.status a.data := by
  have none : s.hub.outbox = [] := quiet
  obtain ⟨t, run, answered, sources, hub⟩ := request_onHub_leaves (kind := kind) (params := params) listens leaves
  exact ⟨t, run, none ▸ answered, sources, hub.trans (by rw [← none])⟩

/-- R99: SET_SPEAKER that would make a front SMALL without a SUB is refused. -/
theorem execSetSpeaker_refused {s : State} {p : Port} {pos there small dist trim : Word} {i : Position}
    {here tiny : Bool} (listens : s.listens p) (quiet : s.delivered) (place : pos.toNat = i.val)
    (present : flagOf there = some here) (size : flagOf small = some tiny)
    (refused : s.hub.smallWithoutSub i tiny = true) :
    ∃ t, execSetSpeaker p pos there small dist trim s = .next t ∧ s.answersOnly t p .refusedState .none := by
  have inside : pos.toNat < 7 := place ▸ i.isLt
  have named : (⟨pos.toNat, inside⟩ : Position) = i := Fin.ext place
  refine request_onHub_refuses (a := refusedState) listens quiet ?_
  rw [dif_pos inside, present, size]
  dsimp only
  rw [named, if_pos refused]

/-- R99: a request whose rule writes the trim of Zone 2 or Zone 3, the layout standing as it is. -/
theorem request_writesTrim {s : State} {p : Port} {kind : Nat} {params : List Word}
    {rule : Vector Source 8 → Hub → Hub × Answer} {trim : Word} {r : Renderer} (listens : s.listens p)
    (quiet : s.delivered)
    (writes : rule s.sources s.hub =
      ({ s.hub with renderer := r }, okOrClamped (trimMoved trim) (.zoneTrim (trimOf trim) (layoutFigures s.hub)))) :
    ∃ t, request p kind params (onHub rule) s = .next t ∧
      s.answers t p (s.ports.get p) (if trimOf trim = trim.toInt then .ok else .clamped)
        (.zoneTrim (trimOf trim) (layoutFigures s.hub)) [] ∧
      t.sources = s.sources ∧ t.hub = { s.hub with renderer := r } := by
  have none : s.hub.outbox = [] := quiet
  rw [okOrClamped_trim] at writes
  obtain ⟨t, run, answered, sources, hub⟩ := request_onHub_leaves (kind := kind) (params := params) listens writes
  exact ⟨t, run, none ▸ answered, sources, hub.trans (by rw [← none])⟩

/-! ### SET_SUB (R101) -/

section
variable (e : SubEntry) (h : Hub)

/-- R101: the SUB entry written, and FL and FR made LARGE where it is absent. -/
def Hub.withSub : Hub :=
  { h with renderer := { h.renderer with sub := e, entries := enlargeFronts e.present h.renderer.entries } }

/-- R101: the SUB entry written, and the layout derived where something but the trim changes. -/
def Hub.writeSub : Hub :=
  if e.present = h.renderer.sub.present ∧ e.distance = h.renderer.sub.distance then h.withSub e
  else h.deriveFrom (enlargeFronts e.present h.renderer.entries) e h.renderer.crossover

variable {e h}

theorem enlargeFronts_getElem (here : Bool) (entries : Vector PositionEntry 7) (i : Position) :
    (enlargeFronts here entries)[i] =
      if here = false ∧ i.val ≤ 1 then { entries[i] with small := false } else entries[i] := by
  unfold enlargeFronts
  cases here with
  | false => simp
  | true => simp

/-- R101: the tables after SET_SUB, the lanes, and what has no part in the layout. -/
theorem Hub.writeSub_frame :
    (h.writeSub e).renderer.tables =
        { h.renderer.tables with sub := e, entries := enlargeFronts e.present h.renderer.entries } ∧
      (h.writeSub e).lanes = h.lanes ∧ h.keepsBesideLayout (h.writeSub e) := by
  unfold Hub.writeSub
  split
  · exact ⟨rfl, rfl, rfl, rfl, rfl, rfl, rfl, rfl, rfl⟩
  · obtain ⟨tables, clock, decoder, lanes, others⟩ :=
      h.deriveFrom_frame (enlargeFronts e.present h.renderer.entries) e h.renderer.crossover
    exact ⟨tables, lanes, clock, decoder, others⟩

theorem Hub.writeSub_entries : (h.writeSub e).renderer.entries = enlargeFronts e.present h.renderer.entries :=
  congrArg LayoutTables.entries Hub.writeSub_frame.1

/-- R101: a SUB entry that differs in its trim at most writes the tables alone, and posts nothing. -/
theorem Hub.writeSub_trim (present : e.present = h.renderer.sub.present)
    (distance : e.distance = h.renderer.sub.distance) (quiet : h.outbox = []) :
    let g := h.writeSub e
    { g with outbox := [] } = { h with renderer := { h.renderer with sub := e, entries := g.renderer.entries } } ∧
      g.outbox = [] := by
  intro g
  have written : g = h.withSub e := if_pos ⟨present, distance⟩
  rw [written]
  exact ⟨by rw [Hub.withSub, ← quiet], quiet⟩

theorem Hub.writeSub_raises (other : ¬ (e.present = h.renderer.sub.present ∧ e.distance = h.renderer.sub.distance))
    (quiet : h.outbox = []) :
    h.raisesLayout (h.writeSub e) (deriveLayoutOf (h.writeSub e).renderer.entries e h.renderer.crossover h.lanes)
      (h.writeSub e).outbox := by
  rw [Hub.writeSub_entries, Hub.writeSub, if_neg other]
  exact h.deriveFrom_raises _ _ _ quiet

end

/-! ### SET_CROSSOVER (R102) -/

section
variable (c : Nat) (h : Hub)

/-- R102: the crossover written, and the layout derived where it changes. -/
def Hub.writeCrossover : Hub :=
  if c = h.renderer.crossover then h else h.deriveFrom h.renderer.entries h.renderer.sub c

theorem Hub.writeCrossover_frame :
    (h.writeCrossover c).renderer.tables = { h.renderer.tables with crossover := c } ∧
      (h.writeCrossover c).lanes = h.lanes ∧ h.keepsBesideLayout (h.writeCrossover c) := by
  unfold Hub.writeCrossover
  split
  · next same => exact ⟨by rw [same]; rfl, rfl, rfl, rfl, rfl, rfl, rfl, rfl, rfl⟩
  · obtain ⟨tables, clock, decoder, lanes, others⟩ := h.deriveFrom_frame h.renderer.entries h.renderer.sub c
    exact ⟨tables, lanes, clock, decoder, others⟩

end

/-! ### The three requests -/

/-- R99, R100: what SET_SPEAKER does at a position. -/
theorem execSetSpeaker_writes {s : State} {p : Port} {pos there small dist trim : Word} {i : Position}
    {here tiny : Bool} (listens : s.listens p) (quiet : s.delivered) (place : pos.toNat = i.val)
    (present : flagOf there = some here) (size : flagOf small = some tiny)
    (taken : s.hub.smallWithoutSub i tiny = false) :
    let e : PositionEntry := ⟨here, tiny, distanceOf dist, trimOf trim⟩
    ∃ t notices, execSetSpeaker p pos there small dist trim s = .next t ∧
      s.answers t p (s.ports.get p)
        (if distanceOf dist = dist.toNat ∧ trimOf trim = trim.toInt then .ok else .clamped)
        (.speaker e (layoutFigures t.hub)) notices ∧
      t.sources = s.sources ∧
      t.hub.renderer.tables = { s.hub.renderer.tables with entries := s.hub.renderer.entries.set i e } ∧
      (s.hub.sameBesideTrim i e → t.hub = s.hub.withEntry i e ∧ notices = []) ∧
      (¬ s.hub.sameBesideTrim i e → s.hub.faultless →
        s.hub.raisesLayout t.hub (deriveLayoutOf (s.hub.renderer.entries.set i e) s.hub.renderer.sub
          s.hub.renderer.crossover s.hub.lanes) notices) ∧
      s.hub.keepsBesideLayout t.hub := by
  intro e
  have none : s.hub.outbox = [] := quiet
  obtain ⟨t, run, answered, sources, hub⟩ := execSetSpeaker_runs listens place present size taken
  refine ⟨t, (s.hub.writeEntry i e).outbox, run, ?_⟩
  rw [hub]
  refine ⟨answered, sources, Hub.writeEntry_tables, fun same => ?_, fun other free => ?_,
    Hub.writeEntry_keepsBesideLayout⟩
  · rw [Hub.writeEntry_trim same]
    exact ⟨by rw [Hub.withEntry, ← none], none⟩
  · exact Hub.writeEntry_raises other none free

/-- R101: what SET_SUB does. -/
theorem execSetSub_runs {s : State} {p : Port} {there dist trim : Word} {here : Bool} (listens : s.listens p)
    (present : flagOf there = some here) :
    let e : SubEntry := ⟨here, distanceOf dist, trimOf trim⟩
    let g := s.hub.writeSub e
    ∃ t, execSetSub p there dist trim s = .next t ∧
      s.answers t p (s.ports.get p)
        (if distanceOf dist = dist.toNat ∧ trimOf trim = trim.toInt then .ok else .clamped)
        (.sub e g.renderer.entries[0].small g.renderer.entries[1].small (layoutFigures g)) g.outbox ∧
      t.sources = s.sources ∧ t.hub = { g with outbox := [] } := by
  intro e g
  refine request_onHub_leaves listens ?_
  rw [present]
  dsimp only
  rw [okOrClamped_entry]
  rfl

/-- R102: what SET_CROSSOVER does. -/
theorem execSetCrossover_runs {s : State} {p : Port} {setting : Word} (listens : s.listens p)
    (known : setting.toNat ≤ 4) :
    let g := s.hub.writeCrossover setting.toNat
    ∃ t, execSetCrossover p setting s = .next t ∧
      s.answers t p (s.ports.get p) .ok
        (.crossover setting.toNat (crossoverCoefficient setting.toNat) (layoutFigures g)) g.outbox ∧
      t.sources = s.sources ∧ t.hub = { g with outbox := [] } := by
  intro g
  refine request_onHub_leaves listens ?_
  dsimp only
  rw [if_neg (Nat.not_lt.mpr known)]
  rfl

/-- Settles O39: the table is written, and the layout derived from it where the request changes something but a trim. -/
theorem layoutRequestsWriteTheTable : Obligations.LayoutRequestsWriteTheTable := by
  intro s p listens quiet r near level
  have none : s.hub.outbox = [] := quiet
  refine ⟨fun pos there small dist trim => ⟨fun z2 => ?_, fun z3 => ?_, fun i here tiny place present size =>
    ⟨fun front isTiny absent => ?_, fun taken => ?_⟩⟩, fun there dist trim here present => ?_,
    fun setting known => ?_⟩
  · subst z2
    exact request_writesTrim listens quiet rfl
  · subst z3
    exact request_writesTrim listens quiet rfl
  · exact execSetSpeaker_refused listens quiet place (flagOf_one_zero present) (flagOf_one_zero size)
      (Hub.smallWithoutSub_iff.mpr ⟨front, isTiny, absent⟩)
  · intro e
    obtain ⟨t, notices, run, answered, sources, tables, same, other, clock, decoder, protection, radio, station,
      standby, settings⟩ := execSetSpeaker_writes (dist := dist) (trim := trim) listens quiet place
      (flagOf_one_zero present) (flagOf_one_zero size)
      (Bool.eq_false_iff.mpr fun refused => taken (Hub.smallWithoutSub_iff.mp refused))
    exact ⟨t, notices, run, answered, sources, tables, fun a b c => same ⟨a, b, c⟩, other, clock, decoder, protection,
      radio, station, standby, settings⟩
  · intro e
    obtain ⟨t, run, answered, sources, hub⟩ :=
      execSetSub_runs (dist := dist) (trim := trim) listens (flagOf_one_zero present)
    obtain ⟨tables, lanes, clock, decoder, protection, radio, station, standby, settings⟩ :=
      Hub.writeSub_frame (e := e) (h := s.hub)
    refine ⟨t, (s.hub.writeSub e).outbox, run, ?_⟩
    rw [hub]
    refine ⟨answered, sources, (congrArg LayoutTables.sub tables :), fun i => ?_,
      (congrArg LayoutTables.trimZ2 tables :), (congrArg LayoutTables.trimZ3 tables :),
      (congrArg LayoutTables.crossover tables :), fun other => ?_, fun a b => ?_, clock, decoder, lanes, protection, radio,
      station, standby, settings⟩
    · exact (congrArg (·[i]) Hub.writeSub_entries).trans (enlargeFronts_getElem here r.entries i)
    · exact Hub.writeSub_raises other none
    · exact Hub.writeSub_trim a b none
  · obtain ⟨t, run, answered, sources, hub⟩ := execSetCrossover_runs listens known
    obtain ⟨tables, lanes, clock, decoder, protection, radio, station, standby, settings⟩ :=
      s.hub.writeCrossover_frame setting.toNat
    refine ⟨t, (s.hub.writeCrossover setting.toNat).outbox, run, ?_⟩
    rw [hub]
    refine ⟨answered, sources, tables, fun same => ?_, fun other => ?_, clock, decoder, lanes, protection, radio,
      station, standby, settings⟩
    · rw [Hub.writeCrossover, if_pos same]
      exact ⟨by rw [← none], none⟩
    · rw [Hub.writeCrossover, if_neg other]
      exact s.hub.deriveFrom_raises _ _ _ none

end Sys2Proof.Machine
end

section
/-! SUPPORT. The derivation of a layout record (R84, R85, O38): which positions it holds, and the farthest output;
and the adoption of a derived layout for a fault (R86 to R88, O40). -/

namespace Sys2Proof.Machine

/-! ### Sets of positions -/

/-- A sum of weights `2 ^ i` is the number with those bits. -/
theorem sum_bits_eq_ofBits {n : Nat} (f : Fin n → Bool) :
    ((List.finRange n).map fun i => (f i).toNat * 2 ^ i.val).sum = Nat.ofBits f := by
  induction n with
  | zero => rfl
  | succ n ih =>
    rw [Nat.ofBits_succ, ← ih, List.finRange_succ, List.map_cons, List.sum_cons, List.map_map, ← List.sum_map_mul_left]
    simp only [Function.comp_def, Fin.val_zero, Fin.val_succ, pow_zero, pow_succ, mul_one]
    rw [Nat.add_comm]
    congr 3
    funext i
    ring

theorem positionSet_getLsbD (f : Position → Bool) (p : Position) : (positionSet f).getLsbD p.val = f p := by
  rw [positionSet, sum_bits_eq_ofBits, BitVec.getLsbD_ofNat, Nat.testBit_ofBits_lt f p.val p.isLt]
  simp

/-- A set of positions is empty where no position is in it. -/
theorem positionSet_eq_zero_iff (f : Position → Bool) : positionSet f = 0 ↔ ∀ p, f p = false := by
  constructor
  · intro e p
    rw [← positionSet_getLsbD f p, e]
    exact BitVec.getLsbD_zero
  · intro none
    have absent : f = fun _ => false := funext none
    subst absent
    rfl

/-! ### Lanes -/

theorem positionOf_eq_some_iff (t : Fin 12) (p : Position) : positionOf t = some p ↔ t.val = p.val + 1 := by
  have := p.isLt
  unfold positionOf
  split
  · rw [Option.some.injEq, Fin.ext_iff]
    dsimp only
    omega
  · exact ⟨nofun, fun e => by omega⟩

theorem FaultState.latched_eq_false_iff (f : FaultState) : f.latched = false ↔ f ≠ .latchedOc ∧ f ≠ .latchedDc := by
  cases f <;> decide

/-- R84: a position plays where a lane assigned to it is not latched. -/
theorem lanePlays_iff (lanes : Vector Lane 11) (p : Position) :
    lanePlays lanes p = true ↔
      ∃ k : LaneId, lanes[k].assignment.val = p.val + 1 ∧ lanes[k].fault.latched = false := by
  rw [lanePlays, List.any_eq_true]
  simp only [Vector.mem_toList_iff, Vector.mem_iff_getElem, Bool.and_eq_true, decide_eq_true_eq, Bool.not_eq_true',
    positionOf_eq_some_iff]
  constructor
  · rintro ⟨_, ⟨i, inside, rfl⟩, plays⟩
    exact ⟨⟨i, inside⟩, plays⟩
  · rintro ⟨k, plays⟩
    exact ⟨lanes[k], ⟨k.val, k.isLt, rfl⟩, plays⟩

/-- R84: of a lane the derivation reads its assignment and whether it is latched. -/
theorem deriveLayoutOf_congr {entries : Vector PositionEntry 7} {sub : SubEntry} {crossover : Nat}
    {lanes lanes' : Vector Lane 11}
    (same : ∀ k : LaneId, lanes'[k].assignment = lanes[k].assignment ∧ lanes'[k].fault.latched = lanes[k].fault.latched) :
    deriveLayoutOf entries sub crossover lanes' = deriveLayoutOf entries sub crossover lanes := by
  have plays : lanePlays lanes' = lanePlays lanes := by
    funext p
    rw [Bool.eq_iff_iff, lanePlays_iff, lanePlays_iff]
    exact exists_congr fun k => by rw [(same k).1, (same k).2]
  rw [deriveLayoutOf, deriveLayoutOf, plays]

/-! ### The farthest output -/

/-- The largest of a list and a first value bounds them all, and is one of them. -/
theorem foldl_max_largest (l : List Nat) (a : Nat) :
    a ≤ l.foldl max a ∧ (∀ x ∈ l, x ≤ l.foldl max a) ∧ (l.foldl max a = a ∨ l.foldl max a ∈ l) := by
  induction l generalizing a with
  | nil => exact ⟨le_rfl, fun _ m => absurd m List.not_mem_nil, .inl rfl⟩
  | cons b l ih =>
    obtain ⟨base, rest, one⟩ := ih (max a b)
    rw [List.foldl_cons]
    refine ⟨(le_max_left a b).trans base, fun x m => ?_, ?_⟩
    · rcases List.mem_cons.1 m with rfl | m
      · exact (le_max_right a x).trans base
      · exact rest x m
    · rcases one with e | m
      · rcases max_choice a b with left | right
        · exact .inl (e.trans left)
        · exact .inr (List.mem_cons.2 (.inl (e.trans right)))
      · exact .inr (List.mem_cons_of_mem b m)

/-- R85: the distance of the farthest output of a layout. -/
def farthest (entries : Vector PositionEntry 7) (sub : SubEntry) (present : PositionSet) : Nat :=
  ((List.finRange 7).map fun p : Position => if present.getLsbD p.val then entries[p].distance else 0).foldl max
    (if sub.present then sub.distance else 0)

section
variable (entries : Vector PositionEntry 7) (sub : SubEntry) (present : PositionSet)

theorem le_farthest {p : Position} (here : present.getLsbD p.val = true) :
    entries[p].distance ≤ farthest entries sub present := by
  unfold farthest
  exact (foldl_max_largest _ _).2.1 _ (List.mem_map.2 ⟨p, List.mem_finRange p, if_pos here⟩)

theorem sub_le_farthest (here : sub.present = true) : sub.distance ≤ farthest entries sub present := by
  unfold farthest
  exact (if_pos here).symm.le.trans (foldl_max_largest _ _).1

/-- R85: the farthest output is one that is present, where there is any. -/
theorem farthest_reached :
    (sub.present = true ∧ sub.distance = farthest entries sub present) ∨
      (∃ p : Position, present.getLsbD p.val = true ∧ entries[p].distance = farthest entries sub present) ∨
      (sub.present = false ∧ farthest entries sub present = 0 ∧ ∀ p : Position, present.getLsbD p.val = false) := by
  have one : (sub.present = true ∧ sub.distance = farthest entries sub present) ∨
      (∃ p : Position, present.getLsbD p.val = true ∧ entries[p].distance = farthest entries sub present) ∨
      farthest entries sub present = 0 := by
    obtain ⟨-, -, base | listed⟩ := foldl_max_largest
      ((List.finRange 7).map fun p : Position => if present.getLsbD p.val then entries[p].distance else 0)
      (if sub.present then sub.distance else 0)
    · by_cases here : sub.present = true
      · exact .inl ⟨here, (base.trans (if_pos here)).symm⟩
      · exact .inr (.inr (base.trans (if_neg here)))
    · obtain ⟨p, -, e⟩ := List.mem_map.1 listed
      by_cases here : present.getLsbD p.val = true
      · exact .inr (.inl ⟨p, here, (if_pos here).symm.trans e⟩)
      · exact .inr (.inr (e.symm.trans (if_neg here)))
  rcases one with atSub | atPosition | zero
  · exact .inl atSub
  · exact .inr (.inl atPosition)
  · by_cases here : sub.present = true
    · exact .inl ⟨here, le_antisymm (sub_le_farthest entries sub present here) (zero ▸ Nat.zero_le _)⟩
    · by_cases anyone : ∃ p : Position, present.getLsbD p.val = true
      · obtain ⟨p, here⟩ := anyone
        exact .inr (.inl ⟨p, here, le_antisymm (le_farthest entries sub present here) (zero ▸ Nat.zero_le _)⟩)
      · exact .inr (.inr ⟨Bool.eq_false_iff.2 here, zero, fun p => Bool.eq_false_iff.2 fun e => anyone ⟨p, e⟩⟩)

end

/-! ### The derivation (R84, R85) -/

/-- Settles O38: each field of the derived record, position by position. -/
theorem layoutDerivation : Obligations.LayoutDerivation := by
  intro entries sub crossover lanes l
  have present (p : Position) : l.present.getLsbD p.val = (entries[p].present && lanePlays lanes p) :=
    positionSet_getLsbD _ p
  have bass (p : Position) :
      l.bass.getLsbD p.val = (sub.present && l.present.getLsbD p.val && entries[p].small) :=
    positionSet_getLsbD _ p
  have empty : l.bass = 0 ↔ ∀ p : Position, l.bass.getLsbD p.val = false :=
    (positionSet_eq_zero_iff _).trans (forall_congr' fun p => by rw [bass]; rfl)
  have delay (p : Position) :
      l.delays[p] = if l.present.getLsbD p.val then delayOf (farthest entries sub l.present) entries[p].distance else 0 :=
    Vector.getElem_ofFn p.isLt
  refine ⟨fun p => ⟨?_, ?_⟩, rfl, Bool.or_eq_true_iff, ?_, fun p managed => ?_, farthest entries sub l.present,
    fun p here => ⟨le_farthest entries sub l.present here, (delay p).trans (if_pos here)⟩,
    fun here => ⟨sub_le_farthest entries sub l.present here, if_pos here⟩, farthest_reached entries sub l.present⟩
  · rw [present, Bool.and_eq_true, lanePlays_iff]
    simp only [FaultState.latched_eq_false_iff]
  · rw [bass, Bool.and_eq_true, Bool.and_eq_true]
    tauto
  · rw [← empty]
    change (if l.bass = 0 then none else some crossover) = none ↔ l.bass = 0
    by_cases e : l.bass = 0 <;> simp [e]
  · have inForce : l.crossover = some crossover :=
      if_neg fun e => Bool.false_ne_true ((empty.1 e p).symm.trans managed)
    rw [Layout.coefficient, inForce]
    refine ⟨?_, ?_, ?_, ?_, ?_⟩ <;> rintro rfl <;> rfl

/-! ### FAULT_LAYOUT_ADOPTION (R86 to R88) -/

/-- R87: the adoption of the derived layout, whether or not it changes the one in force. -/
theorem Hub.adoptLayout_adopts (h : Hub) :
    h.renderer.adopted h.adoptLayout.renderer h.renderer.derived ∧
      ∃ ns, h.adoptLayout.outbox = h.outbox ++ ns ∧ h.renderer.tellsAdoption h.adoptLayout.renderer ns ∧
        (h.renderer.derived = h.renderer.inForce → ns = [] ∧ h.adoptLayout.zones = h.zones) := by
  obtain ⟨same, moved, -⟩ := h.adoptLayout_effect
  by_cases still : h.renderer.derived = h.renderer.inForce
  · rw [same still]
    refine ⟨⟨still.symm, fun p => ⟨?_, fun _ _ => rfl, fun n => absurd (by rw [still]) n⟩, ?_⟩,
      [], (List.append_nil _).symm, fun n => absurd rfl n, fun _ => ⟨rfl, rfl⟩⟩
    · rw [still, if_pos rfl]
    · rw [still, if_pos rfl]
  · obtain ⟨renderer, ns, outbox, tells⟩ := moved still
    refine ⟨?_, ns, outbox, tells, fun e => absurd e still⟩
    rw [renderer]
    exact Renderer.adopt_adopted _ _

/-- R86: what an adoption of the derived layout leaves of the renderer record. -/
theorem Hub.adoptLayout_keeps (h : Hub) :
    let q := h.adoptLayout.renderer
    q.derived = h.renderer.derived ∧ q.faultAdoption = h.renderer.faultAdoption ∧
      q.itemPending = h.renderer.itemPending ∧ q.laneOut = h.renderer.laneOut := by
  obtain ⟨e, -⟩ | e := h.adoptLayout_renderer <;> simp [e, Renderer.adopt]

/-- Settles O40: the adoption of the derived layout, decided again for the output block that begins. -/
theorem faultLayoutIsAdopted : Obligations.FaultLayoutIsAdopted := by
  intro s ready found waits
  obtain ⟨quiet, awake⟩ := ready
  have none : s.hub.outbox = [] := quiet
  let h : Hub := { s.hub.dropDue .faultLayout with renderer := { s.hub.renderer with faultAdoption := false } }
  have takes : State.takeDue .faultLayout (s.onHub (Hub.dropDue .faultLayout)) =
      { s with hub := h.adoptLayout.decideBlock s.sources } :=
    congrArg (fun g : Hub => { s with hub := g }) (if_pos waits)
  obtain ⟨t, run, tells, sources, hub⟩ := eventStep_tells found awake rfl rfl rfl
  rw [takes] at tells sources hub
  obtain ⟨adopted, ns, outbox, told, still⟩ := h.adoptLayout_adopts
  obtain ⟨clock, -, lanes, protection, radio, station, standby⟩ := h.adoptLayout_frame
  obtain ⟨derived, waiting, item, -⟩ := h.adoptLayout_keeps
  have told' : h.adoptLayout.outbox = ns := by rw [outbox]; exact (congrArg (· ++ ns) none :)
  refine ⟨t, ns, run, told' ▸ tells, sources, ?_⟩
  rw [hub]
  exact ⟨adopted, told, still, adopted.1, derived, waiting, item, h.adoptLayout_tables, clock, lanes, protection, radio,
    station, standby, h.adoptLayout_settings⟩

end Sys2Proof.Machine
end

section
/-! SUPPORT. The lanes (chapter 6): what every operation of the Lane Supervisor keeps, what an examination of the closing
conditions reads and does (R110, R111), and a relay put in OPEN (R109, R111). -/

namespace Sys2Proof.Machine

/-! ### Lane records written -/

theorem Hub.setLane_same (l : LaneId) (x : Lane) (h : Hub) : (h.setLane l x).lanes[l] = x := by
  simp [Hub.setLane]

theorem Hub.setLane_self (l : LaneId) (h : Hub) : h.setLane l h.lanes[l] = h := by
  simp [Hub.setLane]

theorem Hub.setLane_setLane (l : LaneId) (x y : Lane) (h : Hub) : (h.setLane l x).setLane l y = h.setLane l y := by
  simp [Hub.setLane]

/-- A lane's record written, with the notices that tell it. -/
def Hub.writesLane (l : LaneId) (y : Lane) (ns : List Notice) (h : Hub) : Hub :=
  { h.setLane l y with outbox := h.outbox ++ ns }

theorem Hub.postLaneState_eq (l : LaneId) (x : Lane) (h : Hub) :
    (h.setLane l x).postLaneState l = h.writesLane l x [laneStateNotice l x] := by
  rw [Hub.postLaneState, Hub.setLane_same]
  rfl

theorem Hub.setLane_eq_writesLane (l : LaneId) (x : Lane) (h : Hub) : h.setLane l x = h.writesLane l x [] := by
  rw [Hub.writesLane, List.append_nil]
  rfl

/-- Where no notice waited before, a lane's record is written and its notices alone are told. -/
theorem Hub.writesLane_told {l : LaneId} {y : Lane} {ns : List Notice} {h : Hub} (quiet : h.outbox = []) :
    { h.writesLane l y ns with outbox := [] } = h.setLane l y ∧ (h.writesLane l y ns).outbox = ns := by
  rw [Hub.writesLane, quiet, List.nil_append]
  exact ⟨by rw [← quiet]; rfl, rfl⟩

theorem laneSet_same (l : LaneId) (x : Lane) (lanes : Vector Lane 11) : (lanes.set l x)[l] = x := by
  simp

theorem laneSet_other {l k : LaneId} (other : k ≠ l) (x : Lane) (lanes : Vector Lane 11) :
    (lanes.set l x)[k] = lanes[k] := by
  have apart : l.val ≠ k.val := fun e => other (Fin.ext e.symm)
  simp [apart]

/-- R84: a lane written that keeps its assignment and whether it is latched leaves the derived layout as it is. -/
theorem deriveLayoutOf_set {entries : Vector PositionEntry 7} {sub : SubEntry} {crossover : Nat} {lanes : Vector Lane 11}
    {l : LaneId} {x y : Lane} (assignment : y.assignment = x.assignment) (latched : y.fault.latched = x.fault.latched) :
    deriveLayoutOf entries sub crossover (lanes.set l y) = deriveLayoutOf entries sub crossover (lanes.set l x) := by
  refine deriveLayoutOf_congr fun k => ?_
  by_cases same : k = l
  · subst same
    simp [assignment, latched]
  · rw [laneSet_other same, laneSet_other same]
    exact ⟨rfl, rfl⟩

/-- From `h` to `g` no lane but `l` has changed. -/
def Hub.keepsOtherLanes (l : LaneId) (h g : Hub) : Prop := ∀ k : LaneId, k ≠ l → g.lanes[k] = h.lanes[k]

theorem Hub.keepsOtherLanes_of_eq {l : LaneId} {h g : Hub} (e : g.lanes = h.lanes) : h.keepsOtherLanes l g :=
  fun _ _ => by rw [e]

theorem Hub.keepsOtherLanes_of_set {l : LaneId} {h g : Hub} {x : Lane} (e : g.lanes = h.lanes.set l x) :
    h.keepsOtherLanes l g :=
  fun _ other => by rw [e, laneSet_other other]

theorem Hub.keepsOtherLanes.trans {l : LaneId} {h g k : Hub} (a : h.keepsOtherLanes l g) (b : g.keepsOtherLanes l k) :
    h.keepsOtherLanes l k :=
  fun m other => (b m other).trans (a m other)

/-! ### What the Lane Supervisor keeps -/

/-- From `h` to `g` nothing has changed but the lanes, the notices, the layouts with the outputs, and what the layouts make
of the zones: their settings and the layout tables stay. -/
def Hub.keepsBesideLanes (h g : Hub) : Prop :=
  g.clock = h.clock ∧ g.decoder = h.decoder ∧ g.protection = h.protection ∧ g.radio = h.radio ∧
    g.station = h.station ∧ g.standby = h.standby ∧ settingsOf g.zones = settingsOf h.zones ∧
    g.renderer.tables = h.renderer.tables

/-- R110: of a lane's record the closing conditions read its assignment and its fault state, and of the other blocks what
the Lane Supervisor does not change. -/
theorem Hub.closing_congr {h g : Hub} {l : LaneId} (kept : h.keepsBesideLanes g)
    (assignment : g.lanes[l].assignment = h.lanes[l].assignment) (fault : g.lanes[l].fault = h.lanes[l].fault) :
    g.closing l = h.closing l := by
  obtain ⟨-, -, protection, -, -, standby, settings, tables⟩ := kept
  have power (z : ZoneId) : (g.zone z).power = (h.zone z).power :=
    congrArg ZoneSettings.power (settingsOf_get settings z)
  have entries : g.renderer.entries = h.renderer.entries := congrArg LayoutTables.entries tables
  simp only [Hub.closing, assignment, fault, power, entries, protection, standby]

/-- R110: a lane that is in a fault does not meet its closing conditions. -/
theorem Hub.closing_of_fault {h : Hub} {l : LaneId} (fault : h.lanes[l].fault ≠ .ok) : (h.closing l).all = false := by
  have faulty : (h.closing l).faultOk = false := decide_eq_false fault
  simp [ClosingConditions.all, faulty]

theorem Hub.deriveLayout_keepsBesideLanes (cause : Cause) (h : Hub) : h.keepsBesideLanes (h.deriveLayout cause) := by
  simp [Hub.keepsBesideLanes]

theorem Hub.deriveLayout_lanes (cause : Cause) (h : Hub) : (h.deriveLayout cause).lanes = h.lanes := by
  simp

/-! ### The examination of the closing conditions (R110, R111) -/

/-- R110, R111: what an examination leaves of a lane's record. -/
theorem Lane.follows_eq (x : Lane) (hold : Bool) :
    x.follows hold =
      { x with relay := (x.follows hold).relay, timer := (x.follows hold).timer, ramp := (x.follows hold).ramp } := by
  unfold Lane.follows
  split <;> rfl

theorem Lane.follows_of_open {x : Lane} (relay : x.relay = .open) :
    x.follows true = { x with relay := .closing, timer := 0 } := by
  unfold Lane.follows
  rw [relay]

theorem Lane.follows_of_closing {x : Lane} (relay : x.relay = .closing) :
    x.follows false = { x with relay := .opening, timer := 0, ramp := none } := by
  unfold Lane.follows
  rw [relay]

theorem Lane.beginRamp_eq (x : Lane) : x.beginRamp = { x with ramp := if x.ramp.isSome then x.ramp else some 0 } := by
  unfold Lane.beginRamp
  split <;> rfl

theorem Lane.follows_of_closed {x : Lane} (relay : x.relay = .closed) : x.follows false = x.beginRamp := by
  rw [Lane.beginRamp_eq]
  unfold Lane.follows
  rw [relay]

theorem Lane.follows_of_stays {x : Lane} {hold : Bool} (opened : x.relay = .open → hold = true → False)
    (closing : x.relay = .closing → hold = false → False) (closed : x.relay = .closed → hold = false → False) :
    x.follows hold = x := by
  unfold Lane.follows
  split
  · exact (opened ‹_› rfl).elim
  · exact (closing ‹_› rfl).elim
  · exact (closed ‹_› rfl).elim
  · rfl

/-- R110: a lane in OPEN closes where its conditions hold. -/
theorem Lane.follows_opened {x : Lane} (relay : x.relay = .open) (hold : Bool) :
    x.follows hold = if hold then { x with relay := .closing, timer := 0 } else x := by
  cases hold with
  | false => exact Lane.follows_of_stays nofun (by rw [relay]; nofun) (by rw [relay]; nofun)
  | true => exact Lane.follows_of_open relay

/-- LANE_STATE where the relay state of a lane has changed. -/
def relayNotice (l : LaneId) (x y : Lane) : List Notice := if y.relay = x.relay then [] else [laneStateNotice l y]

/-- R110: a lane in OPEN tells its relay state where it closes. -/
theorem relayNotice_opened {l : LaneId} {x : Lane} (relay : x.relay = .open) (hold : Bool) :
    relayNotice l x (x.follows hold) = if hold then [laneStateNotice l (x.follows hold)] else [] := by
  rw [relayNotice, Lane.follows_opened relay]
  cases hold <;> simp [relay]

/-- R110, R111: everything an examination does, where no asserted fault input trips the relay that closes. -/
theorem Hub.examine_eq {l : LaneId} {h : Hub} (free : (h.closing l).all = true → h.lanes[l].faultInput = false) :
    let y := h.lanes[l].follows (h.closing l).all
    h.examine l = h.writesLane l y (relayNotice l h.lanes[l] y) := by
  have moves (y : Lane) (moved : y.relay ≠ h.lanes[l].relay) :
      (h.setLane l y).postLaneState l = h.writesLane l y (relayNotice l h.lanes[l] y) := by
    rw [relayNotice, if_neg moved, Hub.postLaneState_eq]
  have stays (y : Lane) (still : y.relay = h.lanes[l].relay) :
      h.setLane l y = h.writesLane l y (relayNotice l h.lanes[l] y) := by
    rw [relayNotice, if_pos still, Hub.setLane_eq_writesLane]
  unfold Hub.examine
  dsimp only
  split
  case h_1 relay hold =>
    rw [hold, Lane.follows_of_open relay, Hub.enterClosing, if_neg (by rw [free hold]; nofun)]
    exact moves _ (by rw [relay]; nofun)
  case h_2 relay hold =>
    rw [hold, Lane.follows_of_closing relay, Hub.enterOpening]
    exact moves _ (by rw [relay]; nofun)
  case h_3 relay hold =>
    rw [hold, Lane.follows_of_closed relay]
    exact stays _ (by rw [Lane.beginRamp_eq])
  case h_4 opened closing closed =>
    rw [Lane.follows_of_stays opened closing closed]
    exact (Hub.setLane_self l h).symm.trans (stays _ rfl)

theorem Hub.examine_keepsBesideLanes (l : LaneId) (h : Hub) : h.keepsBesideLanes (h.examine l) := by
  simp [Hub.keepsBesideLanes]

/-! ### A relay put in OPEN (R109, R111) -/

/-- R86: no derivation touches the samples last delivered. -/
theorem Hub.deriveLayout_laneOut (cause : Cause) (h : Hub) :
    (h.deriveLayout cause).renderer.laneOut = h.renderer.laneOut := by
  obtain ⟨renderer, -⟩ := h.rewriteDerived_effect h.freshLayout
  have adopts (g : Hub) : g.adoptLayout.renderer.laneOut = g.renderer.laneOut := by
    obtain ⟨-, -, -, laneOut⟩ := g.adoptLayout_keeps
    exact laneOut
  have written : (h.rewriteDerived h.freshLayout).renderer.laneOut = h.renderer.laneOut := by rw [renderer]
  unfold Hub.deriveLayout Hub.takeDerived Hub.raiseItem Hub.applyLayout
  dsimp only
  repeat' split
  all_goals simp [adopts, written]

theorem Hub.openRelay_lanes (l : LaneId) (h : Hub) : (h.openRelay l).lanes = h.lanes.set l h.lanes[l].toOpen := by
  unfold Hub.openRelay
  dsimp only
  split <;> simp

/-- R109: the output of a relay in OPEN is zero. -/
theorem Hub.openRelay_laneOut (l : LaneId) (h : Hub) :
    (h.openRelay l).renderer.laneOut = h.renderer.laneOut.set l 0 := by
  unfold Hub.openRelay
  dsimp only
  split
  · exact Hub.deriveLayout_laneOut _ _
  · rfl

/-- R109: a relay put in OPEN while no assignment is pending. -/
theorem Hub.openRelay_of_none {l : LaneId} {h : Hub} (none : h.lanes[l].pending = none) :
    h.openRelay l =
      { h.setLane l h.lanes[l].toOpen with
        renderer := { h.renderer with laneOut := h.renderer.laneOut.set l 0 } } := by
  unfold Hub.openRelay
  dsimp only
  rw [none]
  rfl

theorem Hub.openRelay_keepsBesideLanes (l : LaneId) (h : Hub) : h.keepsBesideLanes (h.openRelay l) := by
  simp [Hub.keepsBesideLanes]

/-! ### One lane at a time -/

theorem Hub.trip_lanes (l : LaneId) (h : Hub) : (h.trip l).lanes = h.lanes.set l h.lanes[l].toOpen.tripped := by
  have opened : (h.openRelay l).lanes[l] = h.lanes[l].toOpen := by simp [Hub.openRelay_lanes]
  unfold Hub.trip
  dsimp only
  rw [opened]
  split <;> simp [post, Hub.openRelay_lanes]

theorem Hub.enterClosing_keepsOtherLanes (l : LaneId) (h : Hub) : h.keepsOtherLanes l (h.enterClosing l) := by
  have written := Hub.keepsOtherLanes_of_set (h := h)
    (g := Hub.postLaneState l (h.setLane l { h.lanes[l] with relay := .closing, timer := 0 })) rfl
  unfold Hub.enterClosing
  dsimp only
  split
  · exact written.trans (Hub.keepsOtherLanes_of_set (Hub.trip_lanes l _))
  · exact written

theorem Hub.examine_keepsOtherLanes (l : LaneId) (h : Hub) : h.keepsOtherLanes l (h.examine l) := by
  unfold Hub.examine
  dsimp only
  split
  · exact h.enterClosing_keepsOtherLanes l
  · exact Hub.keepsOtherLanes_of_set rfl
  · exact Hub.keepsOtherLanes_of_set rfl
  · exact Hub.keepsOtherLanes_of_eq rfl

/-! ### A lane written, the layout derived and the conditions examined (R86, R110) -/

/-- R86: what a fault brings the derivation to stands when the lanes move after it and none changes its assignment or
latches. -/
theorem Hub.derivesForFault.after {h g k : Hub} {ns : List Notice} (derives : h.derivesForFault g ns)
    (renderer : k.renderer = g.renderer)
    (layout : deriveLayoutOf h.renderer.entries h.renderer.sub h.renderer.crossover k.lanes =
      deriveLayoutOf h.renderer.entries h.renderer.sub h.renderer.crossover g.lanes) : h.derivesForFault k ns := by
  unfold Hub.derivesForFault at derives ⊢
  dsimp only at derives ⊢
  rw [renderer, layout]
  exact derives

/-- R86, R110: a lane written and told, the layout derived from it, and its closing conditions examined. -/
def Hub.settlesLane (cause : Cause) (l : LaneId) (y : Lane) (n : Notice) (h : Hub) : Hub :=
  Hub.examine l (Hub.deriveLayout cause (post n (h.setLane l y)))

section
variable {cause : Cause} {l : LaneId} {y : Lane} {n : Notice} {h : Hub}

/-- R110: the lane after its examination; the layout and the zones stand as the derivation leaves them. -/
theorem Hub.settlesLane_effect (free : ((h.setLane l y).closing l).all = true → y.faultInput = false) :
    let z := y.follows ((h.setLane l y).closing l).all
    let d := Hub.deriveLayout cause (post n (h.setLane l y))
    let g := h.settlesLane cause l y n
    g.lanes = h.lanes.set l z ∧ g.renderer = d.renderer ∧ g.zones = d.zones ∧
      g.outbox = d.outbox ++ relayNotice l y z := by
  intro z d g
  have lanes : d.lanes = h.lanes.set l y := Hub.deriveLayout_lanes _ _
  have own : d.lanes[l] = y := by simp [lanes]
  have written : (h.setLane l y).lanes[l] = y := h.setLane_same l y
  have kept : (h.setLane l y).keepsBesideLanes d := Hub.deriveLayout_keepsBesideLanes cause (post n (h.setLane l y))
  have closing : d.closing l = (h.setLane l y).closing l :=
    Hub.closing_congr kept (by rw [own, written]) (by rw [own, written])
  have examined : g = d.writesLane l z (relayNotice l y z) := by
    have e := Hub.examine_eq (l := l) (h := d) (by rw [closing, own]; exact free)
    rwa [closing, own] at e
  rw [examined]
  exact ⟨by simp [Hub.writesLane, lanes], rfl, rfl, rfl⟩

theorem Hub.settlesLane_own (free : ((h.setLane l y).closing l).all = true → y.faultInput = false) :
    (h.settlesLane cause l y n).lanes[l] = y.follows ((h.setLane l y).closing l).all := by
  obtain ⟨lanes, -⟩ := Hub.settlesLane_effect (cause := cause) (n := n) free
  simp [lanes]

/-- R110: the layout that the lanes give, whether a lane's relay follows its conditions or not. -/
theorem deriveLayoutOf_follows {entries : Vector PositionEntry 7} {sub : SubEntry} {crossover : Nat} {hold : Bool}
    {lanes : Vector Lane 11} :
    deriveLayoutOf entries sub crossover (lanes.set l (y.follows hold)) =
      deriveLayoutOf entries sub crossover (lanes.set l y) :=
  deriveLayoutOf_set (by rw [Lane.follows_eq]) (by rw [Lane.follows_eq])

/-- R86: the notices of a lane's change that a controller causes, and the LAYOUT item that it may raise. -/
theorem Hub.settlesLane_raises (free : ((h.setLane l y).closing l).all = true → y.faultInput = false) :
    let z := y.follows ((h.setLane l y).closing l).all
    let g := h.settlesLane .controller l y n
    ∃ ns, g.outbox = h.outbox ++ n :: (ns ++ relayNotice l y z) ∧
      h.raisesLayout g (deriveLayoutOf h.renderer.entries h.renderer.sub h.renderer.crossover g.lanes) ns := by
  intro z g
  obtain ⟨lanes, renderer, zones, outbox⟩ := Hub.settlesLane_effect (cause := .controller) (n := n) free
  obtain ⟨ns, derived, raises⟩ := (post n (h.setLane l y)).deriveLayout_raises
  have raises : h.raisesLayout _ (deriveLayoutOf h.renderer.entries h.renderer.sub h.renderer.crossover
    (h.lanes.set l y)) ns := raises
  refine ⟨ns, ?_, ?_⟩
  · rw [outbox, derived]
    change h.outbox ++ [n] ++ ns ++ relayNotice l y z = _
    simp only [List.append_assoc, List.cons_append, List.nil_append]
  · rw [lanes, deriveLayoutOf_follows]
    exact raises.after renderer zones fun _ told => told

/-- R86: the notices of a lane that latches, or is latched no longer, and what the derivation for its fault leads to. -/
theorem Hub.settlesLane_forFault (free : ((h.setLane l y).closing l).all = true → y.faultInput = false) :
    let z := y.follows ((h.setLane l y).closing l).all
    let g := h.settlesLane .fault l y n
    ∃ ns, g.outbox = h.outbox ++ n :: (ns ++ relayNotice l y z) ∧ h.derivesForFault g ns := by
  intro z g
  obtain ⟨lanes, renderer, -, outbox⟩ := Hub.settlesLane_effect (cause := .fault) (n := n) free
  obtain ⟨⟨ns, derived, derives⟩, -⟩ := (post n (h.setLane l y)).deriveLayout_forFault
  have derives : h.derivesForFault _ ns := derives
  refine ⟨ns, ?_, derives.after renderer ?_⟩
  · rw [outbox, derived]
    change h.outbox ++ [n] ++ ns ++ relayNotice l y z = _
    simp only [List.append_assoc, List.cons_append, List.nil_append]
  · rw [lanes, deriveLayoutOf_follows, Hub.deriveLayout_lanes]
    rfl

/-- R86, R110: a lane written, the layout derived and the conditions examined: no other lane changes. -/
theorem Hub.settlesLane_keepsOtherLanes (cause : Cause) (y : Lane) (n : Notice) :
    h.keepsOtherLanes l (h.settlesLane cause l y n) := by
  have written : h.keepsOtherLanes l (Hub.deriveLayout cause (post n (h.setLane l y))) :=
    Hub.keepsOtherLanes_of_set (Hub.deriveLayout_lanes _ _)
  exact written.trans (Hub.examine_keepsOtherLanes l _)

end

end Sys2Proof.Machine
end

section
/-! SUPPORT. ASSIGN_LANE (R107, R108, O41): the occupancy of a target, and the assignment in each relay state. -/

namespace Sys2Proof.Machine

/-! ### The target (R107) -/

theorem targetOf_eq {w : Word} {t : Fin 12} (e : w.toNat = t.val) : targetOf w = some t := by
  simp [targetOf, e]

/-- A sum that counts the members of two kinds among those that are not left out. -/
theorem sum_counts_eq {α : Type} (out held waits : α → Prop) [DecidablePred out] [DecidablePred held]
    [DecidablePred waits] (ks : List α) :
    let others := ks.filter fun k => decide (¬ out k)
    (ks.map fun k => if out k then 0 else (if held k then 1 else 0) + (if waits k then 1 else 0)).sum =
      (others.filter fun k => decide (held k)).length + (others.filter fun k => decide (waits k)).length := by
  intro others
  induction ks with
  | nil => rfl
  | cons k ks ih =>
    rw [List.map_cons, List.sum_cons, ih]
    by_cases o : out k
    · simp [others, o]
    · by_cases a : held k <;> by_cases b : waits k <;> simp [others, o, a, b] <;> omega

/-- R107: the lanes other than `l` that hold a target, and those that wait for it. -/
theorem occupancy_eq (lanes : Vector Lane 11) (l : LaneId) (t : Fin 12) :
    let others := (List.finRange 11).filter fun k => decide (k ≠ l)
    occupancy lanes l t =
      (others.filter fun k => decide (lanes[k].assignment = t)).length +
        (others.filter fun k => decide (lanes[k].pending = some t)).length :=
  sum_counts_eq (fun k : LaneId => k = l) (fun k => lanes[k].assignment = t) (fun k => lanes[k].pending = some t) _

/-- R107: the capacity of a target that stands for a zone's output. -/
theorem targetCapacity_eq {t : Fin 12} (some : t ≠ 0) : targetCapacity t = if t.val ≤ 2 then 2 else 1 :=
  if_neg fun e => some (Fin.ext e)

/-! ### The assignment in each relay state (R108) -/

section
variable {l : LaneId} {t : Fin 12} {h : Hub}

/-- A pending target written as it is. -/
theorem Lane.with_pending_self {x : Lane} {p : Option (Fin 12)} (e : x.pending = p) : { x with pending := p } = x := by
  rw [← e]

/-- R108: the assignment held already ends a pending change. -/
theorem Hub.assign_held (same : t = h.lanes[l].assignment) :
    let y : Lane := { h.lanes[l] with pending := none }
    h.assign l t = h.writesLane l y (if h.lanes[l].pending = none then [] else [laneStateNotice l y]) := by
  unfold Hub.assign
  dsimp only
  rw [if_pos same]
  by_cases idle : h.lanes[l].pending = none
  · rw [if_pos idle, if_pos idle, Lane.with_pending_self idle, ← Hub.setLane_eq_writesLane, Hub.setLane_self]
  · rw [if_neg idle, if_neg idle, Hub.postLaneState_eq]

/-- R108: what another target does is a matter of the relay's state. -/
theorem Hub.assign_other (other : t ≠ h.lanes[l].assignment) :
    let x := h.lanes[l]
    let held : Lane := { x with pending := some t }
    let told (g : Hub) : Hub := if x.pending = some t then g else g.postLaneState l
    (x.relay = .open → h.assign l t = h.assignNow l t) ∧
    (x.relay = .closed → h.assign l t = told (h.setLane l held.beginRamp)) ∧
    (x.relay = .closing → h.assign l t = Hub.enterOpening l (h.setLane l held)) ∧
    (x.relay = .opening → h.assign l t = told (h.setLane l held)) := by
  unfold Hub.assign
  dsimp only
  rw [if_neg other]
  split
  case h_1 opened => exact ⟨fun _ => rfl, by rw [opened]; exact ⟨nofun, nofun, nofun⟩⟩
  case h_2 closed => exact ⟨by rw [closed]; nofun, fun _ => rfl, by rw [closed]; exact ⟨nofun, nofun⟩⟩
  case h_3 closing => exact ⟨by rw [closing]; nofun, by rw [closing]; nofun, fun _ => rfl, by rw [closing]; nofun⟩
  case h_4 opening =>
    refine ⟨by rw [opening]; nofun, by rw [opening]; nofun, by rw [opening]; nofun, fun _ => ?_⟩
    split
    case isTrue waits => rw [Lane.with_pending_self waits, Hub.setLane_self]
    case isFalse => rfl

/-- A lane's record written, and LANE_STATE posted unless the target was pending already. -/
theorem Hub.toldPending_eq (x y : Lane) :
    (if x.pending = some t then h.setLane l y else (h.setLane l y).postLaneState l) =
      h.writesLane l y (if x.pending = some t then [] else [laneStateNotice l y]) := by
  split
  · exact h.setLane_eq_writesLane l y
  · exact h.postLaneState_eq l y

/-- R109: in OPEN the target becomes the assignment at once. -/
theorem Hub.assign_open (other : t ≠ h.lanes[l].assignment) (relay : h.lanes[l].relay = .open) :
    let y : Lane := { h.lanes[l] with assignment := t }
    h.assign l t = h.settlesLane .controller l y (laneStateNotice l y) := by
  obtain ⟨opened, -⟩ := Hub.assign_other other
  rw [opened relay, Hub.assignNow, Hub.postLaneState, Hub.setLane_same]
  rfl

/-- R111: in CLOSED the target waits, and the opening sequence begins. -/
theorem Hub.assign_closed (other : t ≠ h.lanes[l].assignment) (relay : h.lanes[l].relay = .closed) :
    let x := h.lanes[l]
    let y : Lane := { x with pending := some t, ramp := if x.ramp.isSome then x.ramp else some 0 }
    h.assign l t = h.writesLane l y (if x.pending = some t then [] else [laneStateNotice l y]) := by
  obtain ⟨-, closed, -⟩ := Hub.assign_other other
  rw [closed relay]
  dsimp only
  rw [Hub.toldPending_eq, Lane.beginRamp_eq]

/-- R110: in CLOSING the target waits, and the relay enters OPENING. -/
theorem Hub.assign_closing (other : t ≠ h.lanes[l].assignment) (relay : h.lanes[l].relay = .closing) :
    let y : Lane := { h.lanes[l] with pending := some t, relay := .opening, timer := 0, ramp := none }
    h.assign l t = h.writesLane l y [laneStateNotice l y] := by
  obtain ⟨-, -, closing, -⟩ := Hub.assign_other other
  rw [closing relay, Hub.enterOpening, Hub.setLane_same, Hub.setLane_setLane, Hub.postLaneState_eq]

/-- R108: in OPENING the target waits. -/
theorem Hub.assign_opening (other : t ≠ h.lanes[l].assignment) (relay : h.lanes[l].relay = .opening) :
    let y : Lane := { h.lanes[l] with pending := some t }
    h.assign l t = h.writesLane l y (if h.lanes[l].pending = some t then [] else [laneStateNotice l y]) := by
  obtain ⟨-, -, -, opening⟩ := Hub.assign_other other
  rw [opening relay]
  exact Hub.toldPending_eq _ _

theorem Hub.assign_keepsBesideLanes : h.keepsBesideLanes (h.assign l t) := by
  simp [Hub.keepsBesideLanes]

theorem Hub.assign_keepsOtherLanes : h.keepsOtherLanes l (h.assign l t) := by
  have writes {y : Lane} {ns : List Notice} (e : h.assign l t = h.writesLane l y ns) :
      h.keepsOtherLanes l (h.assign l t) := by
    rw [e]
    exact Hub.keepsOtherLanes_of_set rfl
  by_cases same : t = h.lanes[l].assignment
  · exact writes (Hub.assign_held same)
  match relay : h.lanes[l].relay with
  | .open =>
    rw [Hub.assign_open same relay]
    exact Hub.settlesLane_keepsOtherLanes _ _ _
  | .closing => exact writes (Hub.assign_closing same relay)
  | .closed => exact writes (Hub.assign_closed same relay)
  | .opening => exact writes (Hub.assign_opening same relay)

end

/-! ### ASSIGN_LANE -/

section
variable {s : State} {p : Port} {w v : Word} {l : LaneId} {t : Fin 12}

/-- R107: a full target is refused. -/
theorem execAssignLane_refused (listens : s.listens p) (quiet : s.delivered) (lane : w.toNat = l.val)
    (target : v.toNat = t.val) (full : t ≠ 0 ∧ targetCapacity t ≤ occupancy s.hub.lanes l t) :
    ∃ u, execAssignLane p w v s = .next u ∧ s.answersOnly u p .targetTaken .none := by
  refine request_onHub_refuses (a := ⟨.targetTaken, .none⟩) listens quiet ?_
  rw [laneOf_eq lane, targetOf_eq target]
  exact if_pos full

/-- R108: a target with room is assigned. -/
theorem execAssignLane_runs (listens : s.listens p) (lane : w.toNat = l.val) (target : v.toNat = t.val)
    (room : ¬ (t ≠ 0 ∧ targetCapacity t ≤ occupancy s.hub.lanes l t)) :
    let g := s.hub.assign l t
    ∃ u, execAssignLane p w v s = .next u ∧
      s.answers u p (s.ports.get p) .ok
        (.laneAssigned g.lanes[l].assignment g.lanes[l].pending g.lanes[l].relay) g.outbox ∧
      u.sources = s.sources ∧ u.hub = { g with outbox := [] } := by
  refine request_onHub_leaves listens ?_
  rw [laneOf_eq lane, targetOf_eq target]
  exact if_neg room

end

/-- Settles O41: a full target is refused; otherwise the assignment by the state of the relay. -/
theorem assignLaneByRelayState : Obligations.AssignLaneByRelayState := by
  intro s p w v l t listens quiet lane target x others occupied capacity
  have none : s.hub.outbox = [] := quiet
  have room : occupancy s.hub.lanes l t = occupied := occupancy_eq s.hub.lanes l t
  refine ⟨fun real full => ?_, fun free => ?_⟩
  · exact execAssignLane_refused listens quiet lane target ⟨real, by rw [targetCapacity_eq real, room]; exact full⟩
  obtain ⟨u, run, answered, sources, hub⟩ := execAssignLane_runs listens lane target (s := s) (p := p) fun full => by
    obtain ⟨real, full⟩ := full
    rw [targetCapacity_eq real, room] at full
    exact free.elim real (Nat.not_lt.mpr full)
  refine ⟨u, (s.hub.assign l t).outbox, run, ?_⟩
  have own (y : Lane) : (s.hub.setLane l y).lanes[l] = y := s.hub.setLane_same l y
  have kept := Hub.assign_keepsBesideLanes (h := s.hub) (l := l) (t := t)
  have apart := Hub.assign_keepsOtherLanes (h := s.hub) (l := l) (t := t)
  rw [hub]
  refine ⟨answered, sources, apart, fun same => ?_, fun other relay idle => ?_, fun other relay => ?_,
    fun other relay => ?_, fun other relay => ?_, kept⟩
  · rw [Hub.assign_held same]
    exact Hub.writesLane_told none
  · let y : Lane := { x with assignment := t }
    have free : ((s.hub.setLane l y).closing l).all = true → y.faultInput = false := fun _ => idle
    rw [Hub.assign_open other relay]
    have after := Hub.settlesLane_own (cause := .controller) (n := laneStateNotice l y) free
    obtain ⟨ns, outbox, raises⟩ := Hub.settlesLane_raises (n := laneStateNotice l y) free
    rw [← after, none, relayNotice, show y.relay = .open from relay] at outbox
    exact ⟨after.trans (Lane.follows_opened (x := y) relay _), ns, outbox, raises.after rfl rfl fun _ told => told⟩
  · rw [Hub.assign_closed other relay]
    obtain ⟨written, told⟩ := Hub.writesLane_told (l := l) none
    exact ⟨written, told.trans (by rw [written, own])⟩
  · rw [Hub.assign_closing other relay]
    obtain ⟨written, told⟩ := Hub.writesLane_told (l := l) none
    exact ⟨written, told.trans (by rw [written, own])⟩
  · rw [Hub.assign_opening other relay]
    obtain ⟨written, told⟩ := Hub.writesLane_told (l := l) none
    exact ⟨written, told.trans (by rw [written, own])⟩

end Sys2Proof.Machine
end

section
/-! SUPPORT. How a lane leaves a fault (R114, R116, O42). -/

namespace Sys2Proof.Machine

/-! ### A lane written and told by an event -/

/-- R180: an event found whose effect is that a lane's record is written and told. -/
theorem eventStep_writesLane {s : State} {d : Due} {l : LaneId} {y : Lane} {ns : List Notice} (ready : s.ready)
    (found : d ∈ s.hub.due)
    (takes : State.takeDue d (s.onHub (Hub.dropDue d)) = { s with hub := (s.hub.dropDue d).writesLane l y ns }) :
    ∃ t, event (State.eventStep d) s = .next t ∧ s.tells t ns ∧ t.sources = s.sources ∧
      t.hub = { s.hub with lanes := s.hub.lanes.set l y, due := t.hub.due } := by
  obtain ⟨quiet, awake⟩ := ready
  have quiet' : (s.hub.dropDue d).outbox = [] := quiet
  have none : s.hub.outbox = [] := quiet
  obtain ⟨t, run, tells, sources, hub⟩ :=
    eventStep_tells found awake (by rw [takes]) (by rw [takes]) (by rw [takes])
  rw [takes] at tells sources hub
  obtain ⟨written, told⟩ := Hub.writesLane_told (l := l) (y := y) (ns := ns) quiet'
  dsimp only at tells sources hub
  rw [told] at tells
  rw [written] at hub
  refine ⟨t, run, tells, sources, ?_⟩
  rw [hub, Hub.setLane, Hub.dropDue]

/-- R110: a lane written and told, and its closing conditions examined. -/
theorem Hub.examine_told {l : LaneId} {y : Lane} {n : Notice} {h : Hub}
    (free : ((h.setLane l y).closing l).all = true → y.faultInput = false) :
    let z := y.follows ((h.setLane l y).closing l).all
    Hub.examine l (post n (h.setLane l y)) = h.writesLane l z (n :: relayNotice l y z) := by
  intro z
  have written : (post n (h.setLane l y)).lanes[l] = y := h.setLane_same l y
  have closing : (post n (h.setLane l y)).closing l = (h.setLane l y).closing l := rfl
  have e := Hub.examine_eq (l := l) (h := post n (h.setLane l y)) (by rw [closing, written]; exact free)
  rw [closing, written] at e
  rw [e, Hub.writesLane, Hub.writesLane, Hub.setLane, Hub.setLane, post_outbox, List.append_assoc]
  simp [post, Hub.setLane, z]

/-! ### CLEAR_LANE_FAULT (R116) -/

/-- R116: the counters set to 0 where asked. -/
def Lane.countersCleared (counters : Bool) (x : Lane) : Lane := if counters then { x with clips := 0, tripCount := 0 } else x

theorem Lane.countersCleared_eq (counters : Bool) (x : Lane) :
    x.countersCleared counters =
      { x with clips := (x.countersCleared counters).clips, tripCount := (x.countersCleared counters).tripCount } := by
  unfold Lane.countersCleared
  split <;> rfl

/-- R110: what an examination leaves of a lane that is healed. -/
theorem Lane.follows_keeps (x : Lane) (hold : Bool) :
    let y := x.follows hold
    y.fault = x.fault ∧ y.retryTimer = x.retryTimer ∧ y.trips = x.trips ∧ y.dcWindow = x.dcWindow ∧
      y.dcSum = x.dcSum ∧ y.clips = x.clips ∧ y.tripCount = x.tripCount ∧ y.assignment = x.assignment := by
  rw [Lane.follows_eq]
  exact ⟨rfl, rfl, rfl, rfl, rfl, rfl, rfl, rfl⟩

section
variable {l : LaneId} {counters : Bool} {h : Hub}

/-- R116: a lane in OK keeps its history and its DC window. -/
theorem Hub.clearFault_of_ok (ok : h.lanes[l].fault = .ok) :
    h.clearFault l counters = h.setLane l (h.lanes[l].countersCleared counters) := by
  unfold Hub.clearFault
  dsimp only
  split
  case h_1 f | h_2 f | h_3 f => exact absurd (ok.symm.trans f) nofun
  case h_4 => rfl

/-- R116: a lane in RETRY is healed and examined. -/
theorem Hub.clearFault_of_retry (retry : h.lanes[l].fault = .retry) :
    let z := (h.lanes[l].countersCleared counters).healed
    h.clearFault l counters = Hub.examine l (post (laneFaultNotice l z) (h.setLane l z)) := by
  unfold Hub.clearFault
  dsimp only
  split
  case h_1 f | h_2 f | h_4 f => exact absurd (retry.symm.trans f) nofun
  case h_3 => rfl

/-- R116, R86: a latched lane is healed, the layout derived for its fault, and the lane examined. -/
theorem Hub.clearFault_of_latched (latched : h.lanes[l].fault.latched = true) :
    let z := (h.lanes[l].countersCleared counters).healed
    h.clearFault l counters = h.settlesLane .fault l z (laneFaultNotice l z) := by
  unfold Hub.clearFault
  dsimp only
  split
  case h_1 | h_2 => rfl
  case h_3 retry => exact absurd (retry ▸ latched) nofun
  case h_4 ok => exact absurd (ok ▸ latched) nofun

/-- R116, R86, R110: everything that the clearing of a fault does, where no fault input is asserted. -/
theorem Hub.clearFault_heals (faulty : h.lanes[l].fault ≠ .ok) (free : h.lanes[l].faultInput = false) :
    let z := (h.lanes[l].countersCleared counters).healed
    let g := h.clearFault l counters
    g.lanes[l] = z.follows ((h.setLane l z).closing l).all ∧
      ∃ mid, g.outbox = h.outbox ++ laneFaultNotice l z :: (mid ++ relayNotice l z g.lanes[l]) ∧
        (h.lanes[l].fault = .retry → mid = [] ∧ g.renderer = h.renderer ∧ g.zones = h.zones) ∧
        (h.lanes[l].fault ≠ .retry → h.derivesForFault g mid) := by
  intro z g
  have free' : ((h.setLane l z).closing l).all = true → z.faultInput = false := by
    intro _
    exact (congrArg Lane.faultInput (Lane.countersCleared_eq counters h.lanes[l])).trans free
  by_cases retry : h.lanes[l].fault = .retry
  · have e : g = h.writesLane l _ _ := (Hub.clearFault_of_retry retry).trans (Hub.examine_told free')
    have own : g.lanes[l] = z.follows ((h.setLane l z).closing l).all := by rw [e]; exact h.setLane_same l _
    refine ⟨own, [], ?_, fun _ => ⟨rfl, ?_, ?_⟩, fun n => absurd retry n⟩
    · rw [own, e]
      rfl
    · rw [e]
      rfl
    · rw [e]
      rfl
  · have latched : h.lanes[l].fault.latched = true := by
      cases fault : h.lanes[l].fault with
      | ok => exact absurd fault faulty
      | retry => exact absurd fault retry
      | latchedOc | latchedDc => rfl
    have e : g = h.settlesLane .fault l z (laneFaultNotice l z) := Hub.clearFault_of_latched latched
    have own := Hub.settlesLane_own (cause := .fault) (n := laneFaultNotice l z) free'
    obtain ⟨ns, outbox, derives⟩ := Hub.settlesLane_forFault (n := laneFaultNotice l z) free'
    rw [e]
    refine ⟨own, ns, ?_, fun r => absurd r retry, fun _ => derives⟩
    rw [own]
    exact outbox

theorem Hub.clearFault_keepsBesideLanes : h.keepsBesideLanes (h.clearFault l counters) := by
  simp [Hub.keepsBesideLanes]

theorem Hub.clearFault_keepsOtherLanes : h.keepsOtherLanes l (h.clearFault l counters) := by
  cases fault : h.lanes[l].fault with
  | ok =>
    rw [Hub.clearFault_of_ok fault]
    exact Hub.keepsOtherLanes_of_set rfl
  | retry =>
    rw [Hub.clearFault_of_retry fault]
    have written (z : Lane) (n : Notice) : h.keepsOtherLanes l (post n (h.setLane l z)) := Hub.keepsOtherLanes_of_set rfl
    exact (written _ _).trans (Hub.examine_keepsOtherLanes l _)
  | latchedOc | latchedDc =>
    rw [Hub.clearFault_of_latched (by rw [fault]; rfl)]
    exact Hub.settlesLane_keepsOtherLanes _ _ _

end

/-- R116: CLEAR_LANE_FAULT clears the fault of the lane that it names. -/
theorem execClearLaneFault_runs {s : State} {p : Port} {w code : Word} {l : LaneId} {counters : Bool}
    (listens : s.listens p) (lane : w.toNat = l.val) (flag : code = if counters then 1 else 0) :
    let g := s.hub.clearFault l counters
    ∃ t, execClearLaneFault p w code s = .next t ∧
      s.answers t p (s.ports.get p) .ok
        (.laneFault g.lanes[l].fault g.lanes[l].relay g.lanes[l].clips g.lanes[l].tripCount) g.outbox ∧
      t.sources = s.sources ∧ t.hub = { g with outbox := [] } := by
  refine request_onHub_leaves listens ?_
  rw [laneOf_eq lane, flagOf_one_zero flag]

/-! ### RETRY_END (R114) -/

/-- R114: the 2,000th block start in RETRY. -/
theorem Hub.takeRetryEnd_of_end {l : LaneId} {h : Hub} (retry : h.lanes[l].fault = .retry)
    (timer : h.lanes[l].retryTimer = 2000) (free : h.lanes[l].faultInput = false) :
    let y : Lane := { h.lanes[l] with fault := .ok, retryTimer := 0 }
    let z := y.follows ((h.setLane l y).closing l).all
    h.takeRetryEnd l = h.writesLane l z (laneFaultNotice l y :: relayNotice l y z) :=
  (if_pos ⟨retry, timer⟩).trans (Hub.examine_told fun _ => free)

/-- Settles O42: CLEAR_LANE_FAULT by the fault state of the lane, then the two events. -/
theorem lanesLeaveTheirFaults : Obligations.LanesLeaveTheirFaults := by
  intro s l ready x
  have none : s.hub.outbox = [] := ready.1
  refine ⟨?_, fun found retry timer relay free => ?_, fun found => ?_⟩
  · intro p w code counters listens lane flag y
    obtain ⟨t, run, answered, sources, hub⟩ := execClearLaneFault_runs listens lane flag
    refine ⟨t, (s.hub.clearFault l counters).outbox, run, ?_⟩
    have apart := Hub.clearFault_keepsOtherLanes (h := s.hub) (l := l) (counters := counters)
    have kept := Hub.clearFault_keepsBesideLanes (h := s.hub) (l := l) (counters := counters)
    rw [hub]
    refine ⟨answered, sources, apart, fun ok => ?_, fun faulty free => ?_, kept⟩
    · rw [Hub.clearFault_of_ok ok]
      exact ⟨by rw [← none]; rfl, none⟩
    · obtain ⟨own, mid, outbox, retry, latched⟩ := Hub.clearFault_heals (counters := counters) faulty free
      obtain ⟨fault, timer, trips, window, sum, clips, count, assignment⟩ :=
        Lane.follows_keeps (x.countersCleared counters).healed
          ((s.hub.setLane l (x.countersCleared counters).healed).closing l).all
      rw [← own] at fault timer trips window sum clips count assignment
      have same := congrArg Lane.assignment (Lane.countersCleared_eq counters x)
      have relay := congrArg Lane.relay (Lane.countersCleared_eq counters x)
      refine ⟨fault, timer, trips, window, sum, clips, count, assignment.trans same, own, mid, ?_, retry, fun n => ?_⟩
      · rw [outbox, none, relayNotice, show (x.countersCleared counters).healed.relay = x.relay from relay]
        rfl
      · exact (latched n).after rfl rfl
  · let h := s.hub.dropDue (.retryEnd l)
    let y : Lane := { x with fault := .ok, retryTimer := 0 }
    have hold : (h.setLane l y).closing l = (s.hub.setLane l { x with fault := .ok }).closing l :=
      Hub.closing_congr ⟨rfl, rfl, rfl, rfl, rfl, rfl, rfl, rfl⟩ (by simp [y]) (by simp [y])
    have taken := Hub.takeRetryEnd_of_end (h := h) retry timer free
    obtain ⟨t, run, tells, sources, hub⟩ :=
      eventStep_writesLane ready found (congrArg (fun g : Hub => { s with hub := g }) taken)
    change s.tells t (laneFaultNotice l y :: relayNotice l y (y.follows ((h.setLane l y).closing l).all)) at tells
    change t.hub = { s.hub with
      lanes := s.hub.lanes.set l (y.follows ((h.setLane l y).closing l).all), due := t.hub.due } at hub
    rw [hold] at tells hub
    have own : t.hub.lanes[l] = _ := (congrArg (fun g : Hub => g.lanes[l]) hub).trans (Hub.setLane_same l _ s.hub)
    refine ⟨t, run, sources, ?_, ?_⟩
    · rw [own]
      rw [relayNotice_opened (x := y) relay] at tells
      exact tells
    · rw [hub, Lane.follows_opened (x := y) relay]
      generalize ((s.hub.setLane l { x with fault := .ok }).closing l).all = b
      cases b <;> simp [y, relay]
  · exact eventStep_writesLane ready found
      (congrArg (fun g : Hub => { s with hub := g }) (Hub.setLane_eq_writesLane l _ (s.hub.dropDue (.tripExpiry l))))

end Sys2Proof.Machine
end

section
/-! SUPPORT. The relay sequence (R109 to R111, O43). -/

namespace Sys2Proof.Machine

/-! ### A relay that enters OPEN (R109) -/

section
variable {l : LaneId} {h : Hub}

/-- R109, R86: the notices of the renderer as a relay is put in OPEN: none, unless a pending assignment is applied. -/
theorem Hub.openRelay_tells (l : LaneId) (h : Hub) :
    ∃ ns, (h.openRelay l).outbox = h.outbox ++ ns ∧ (h.lanes[l].pending = none → ns = []) ∧
      (h.lanes[l].pending ≠ none →
        h.raisesLayout (h.openRelay l)
          (deriveLayoutOf h.renderer.entries h.renderer.sub h.renderer.crossover (h.lanes.set l h.lanes[l].toOpen))
          ns) := by
  by_cases idle : h.lanes[l].pending = none
  · refine ⟨[], ?_, fun _ => rfl, fun waits => absurd idle waits⟩
    rw [Hub.openRelay_of_none idle, List.append_nil]
    rfl
  · obtain ⟨ns, outbox, -, -, raises⟩ := Hub.openRelay_raises l h idle
    exact ⟨ns, outbox, fun none => absurd none idle, fun _ => raises⟩

/-- R109, R110: a relay that enters OPEN is told, and closes again where its conditions hold. -/
theorem Hub.enterOpen_eq (free : ((h.setLane l h.lanes[l].toOpen).closing l).all = true → h.lanes[l].faultInput = false) :
    let y := h.lanes[l].toOpen
    let z := y.follows ((h.setLane l y).closing l).all
    h.enterOpen l = (h.openRelay l).writesLane l z (laneStateNotice l y :: relayNotice l y z) := by
  intro y z
  have own : (h.openRelay l).lanes[l] = y := by simp [Hub.openRelay_lanes, y]
  have kept : (h.setLane l y).keepsBesideLanes (h.openRelay l) := h.openRelay_keepsBesideLanes l
  have closing : (h.openRelay l).closing l = (h.setLane l y).closing l :=
    Hub.closing_congr kept (by rw [own, Hub.setLane_same]) (by rw [own, Hub.setLane_same])
  have self : (h.openRelay l).setLane l y = h.openRelay l := by rw [← own, Hub.setLane_self]
  have told := Hub.examine_told (l := l) (y := y) (n := laneStateNotice l y) (h := h.openRelay l)
    (by rw [self, closing]; exact free)
  rw [self, closing] at told
  rw [Hub.enterOpen, Hub.postLaneState, own, told]

/-- R109, R110, R86: everything that a relay which enters OPEN brings about. -/
theorem Hub.enterOpen_effect
    (free : ((h.setLane l h.lanes[l].toOpen).closing l).all = true → h.lanes[l].faultInput = false) :
    let y := h.lanes[l].toOpen
    let z := y.follows ((h.setLane l y).closing l).all
    let g := h.enterOpen l
    g.lanes = h.lanes.set l z ∧ g.renderer.laneOut = h.renderer.laneOut.set l 0 ∧
      (h.lanes[l].pending = none →
        g.renderer = { h.renderer with laneOut := h.renderer.laneOut.set l 0 } ∧ g.zones = h.zones) ∧
      ∃ before, g.outbox = h.outbox ++ (before ++ laneStateNotice l y :: relayNotice l y z) ∧
        (h.lanes[l].pending = none → before = []) ∧
        (h.lanes[l].pending ≠ none →
          h.raisesLayout g
            (deriveLayoutOf h.renderer.entries h.renderer.sub h.renderer.crossover g.lanes) before) := by
  intro y z g
  have e : g = (h.openRelay l).writesLane l z (laneStateNotice l y :: relayNotice l y z) := Hub.enterOpen_eq free
  have lanes : g.lanes = h.lanes.set l z := by
    rw [e]
    simp [Hub.writesLane, Hub.openRelay_lanes]
  have renderer : g.renderer = (h.openRelay l).renderer := by rw [e]; rfl
  have zones : g.zones = (h.openRelay l).zones := by rw [e]; rfl
  obtain ⟨before, outbox, quiet, raises⟩ := h.openRelay_tells l
  refine ⟨lanes, ?_, fun idle => ?_, before, ?_, quiet, fun waits => ?_⟩
  · rw [renderer, Hub.openRelay_laneOut]
  · rw [renderer, zones, Hub.openRelay_of_none idle]
    exact ⟨rfl, rfl⟩
  · rw [e, ← List.append_assoc, ← outbox]
    rfl
  · rw [lanes, deriveLayoutOf_follows]
    exact (raises waits).after renderer zones fun _ told => told

end

/-- Settles O43: each event writes the lane and tells it; a relay that opens may apply its pending assignment first. -/
theorem relaysCloseAndOpen : Obligations.RelaysCloseAndOpen := by
  intro s l ready x
  have none : s.hub.outbox = [] := ready.1
  refine ⟨?_, ?_, ?_⟩
  · intro found relay timer y
    have taken : (s.hub.dropDue (.relayClosed l)).takeRelayClosed l =
        (s.hub.dropDue (.relayClosed l)).writesLane l y [laneStateNotice l y] :=
      (if_pos ⟨relay, timer⟩).trans (Hub.postLaneState_eq _ _ _)
    exact eventStep_writesLane ready found (congrArg (fun g : Hub => { s with hub := g }) taken)
  · intro found relay ramp y
    have taken : (s.hub.dropDue (.rampEnd l)).takeRampEnd l =
        (s.hub.dropDue (.rampEnd l)).writesLane l y [laneStateNotice l y] :=
      (if_pos ⟨relay, ramp⟩).trans (Hub.postLaneState_eq _ _ _)
    exact eventStep_writesLane ready found (congrArg (fun g : Hub => { s with hub := g }) taken)
  · intro found relay timer free y
    let h := s.hub.dropDue (.relayOpened l)
    have taken : h.takeRelayOpened l = h.enterOpen l := if_pos ⟨relay, timer⟩
    obtain ⟨t, run, tells, sources, hub⟩ := eventStep_tells found ready.2 rfl rfl rfl
    change s.tells t (h.takeRelayOpened l).outbox at tells
    change t.hub = { h.takeRelayOpened l with outbox := [] } at hub
    rw [taken] at tells hub
    obtain ⟨lanes, silent, idle, before, outbox, quiet, raises⟩ := Hub.enterOpen_effect (h := h) fun _ => free
    have kept : s.hub.keepsBesideLanes (h.enterOpen l) := by simp [Hub.keepsBesideLanes, h]
    have outbox' : (h.enterOpen l).outbox = _ := outbox.trans ((congrArg (· ++ _) none).trans (List.nil_append _))
    have closed : y.follows ((s.hub.setLane l y).closing l).all =
        if ((s.hub.setLane l y).closing l).all then { y with relay := .closing } else y := Lane.follows_opened rfl _
    have told : relayNotice l y (y.follows ((s.hub.setLane l y).closing l).all) =
        if ((s.hub.setLane l y).closing l).all then [laneStateNotice l { y with relay := .closing }] else [] := by
      rw [relayNotice_opened rfl]
      split
      case isTrue hold => rw [closed, if_pos hold]
      case isFalse => rfl
    rw [outbox'] at tells
    change s.tells t (before ++ laneStateNotice l y ::
      relayNotice l y (y.follows ((s.hub.setLane l y).closing l).all)) at tells
    rw [told] at tells
    refine ⟨t, _, run, tells, sources, ?_⟩
    rw [hub]
    refine ⟨lanes.trans (congrArg (s.hub.lanes.set l) closed), idle, ⟨before, quiet, fun waits => ?_, ?_⟩, ?_, kept⟩
    · exact (raises waits).after rfl rfl fun _ told => told
    · rfl
    · exact (congrArg (fun v : Vector Sample 11 => v[l]) silent).trans (by simp)

end Sys2Proof.Machine
end

section
/-! SUPPORT. A fault input and the trip of its lane (R111, R113, O44). -/

namespace Sys2Proof.Machine

/-! ### A trip (R113) -/

/-- R113: a trip that latches no lane for its current leaves it latched where it was. -/
theorem Lane.tripped_latched {x : Lane} (spared : x.tripped.fault ≠ .latchedOc) (was : x.fault ≠ .latchedOc) :
    x.tripped.fault.latched = x.fault.latched := by
  unfold Lane.tripped at spared ⊢
  dsimp only at spared ⊢
  split_ifs at spared ⊢ with dc third
  · rw [dc]
  · exact absurd rfl spared
  · cases fault : x.fault with
    | ok | retry => rfl
    | latchedOc => exact absurd fault was
    | latchedDc => exact absurd fault dc

section
variable {l : LaneId} {h : Hub}

/-- R113: a trip is told after the relay's opening; where the lane does not latch nothing follows. -/
theorem Hub.trip_of_spared (spared : h.lanes[l].toOpen.tripped.fault ≠ .latchedOc) :
    let y := h.lanes[l].toOpen.tripped
    h.trip l = (h.openRelay l).writesLane l y [laneStateNotice l y, laneFaultNotice l y] := by
  have own : (h.openRelay l).lanes[l] = h.lanes[l].toOpen := by simp [Hub.openRelay_lanes]
  unfold Hub.trip
  dsimp only
  rw [own, if_neg spared]
  simp [Hub.writesLane, post, Hub.setLane]

/-- R113, R86: a trip that latches its lane has the layout derived for the fault. -/
theorem Hub.trip_of_latched (latches : h.lanes[l].toOpen.tripped.fault = .latchedOc) :
    let y := h.lanes[l].toOpen.tripped
    ∃ after, (h.trip l).outbox = (h.openRelay l).outbox ++ laneStateNotice l y :: laneFaultNotice l y :: after ∧
      (h.openRelay l).derivesForFault (h.trip l) after ∧ (h.openRelay l).nudged (h.trip l) := by
  have own : (h.openRelay l).lanes[l] = h.lanes[l].toOpen := by simp [Hub.openRelay_lanes]
  intro y
  let p := post (laneFaultNotice l y) (post (laneStateNotice l y) ((h.openRelay l).setLane l y))
  have e : h.trip l = p.deriveLayout .fault := by
    unfold Hub.trip
    dsimp only
    rw [own, if_pos latches]
  obtain ⟨⟨after, outbox, derives⟩, nudged⟩ := p.deriveLayout_forFault
  rw [e]
  refine ⟨after, ?_, derives, nudged⟩
  rw [outbox]
  simp [p, Hub.setLane]

/-- R113: the output of a lane that trips is zero. -/
theorem Hub.trip_laneOut (l : LaneId) (h : Hub) : (h.trip l).renderer.laneOut = h.renderer.laneOut.set l 0 := by
  unfold Hub.trip
  dsimp only
  split
  · exact (Hub.deriveLayout_laneOut _ _).trans (Hub.openRelay_laneOut l h)
  · exact Hub.openRelay_laneOut l h

end

/-- R84: of the renderer the derivation reads the layout tables. -/
theorem deriveLayoutOf_tables {r q : Renderer} {lanes : Vector Lane 11} (tables : q.tables = r.tables) :
    deriveLayoutOf q.entries q.sub q.crossover lanes = deriveLayoutOf r.entries r.sub r.crossover lanes := by
  obtain ⟨entries, sub, -, -, crossover⟩ := LayoutTables.mk.inj tables
  rw [entries, sub, crossover]

/-! ### FAULT_INPUT_ASSERTED (R113) -/

section
variable {s : State} {l : LaneId} {level : Bool}

/-- R113: the level of a fault input is an event of its lane. -/
theorem execFaultInputAsserted_tells (ready : s.ready) :
    let g := s.hub.faultInput l level
    ∃ t, execFaultInputAsserted l level s = .next t ∧ s.tells t g.outbox ∧ t.sources = s.sources ∧
      t.hub = { g with outbox := [] } := by
  obtain ⟨-, awake⟩ := ready
  have step : execFaultInputAsserted l level s = event (State.onHub (Hub.faultInput l level)) s :=
    if_neg (by rw [awake]; nofun)
  rw [step]
  exact event_onHub _ awake

theorem Hub.faultInput_of_idle {h : Hub} (idle : level = false ∨ h.lanes[l].faultInput = true ∨ h.lanes[l].relay = .open) :
    h.faultInput l level = h.setFaultInput l level := by
  unfold Hub.faultInput
  dsimp only
  rw [if_neg]
  rcases idle with e | e | e <;> simp [-Fin.getElem_fin, e]

theorem Hub.faultInput_of_trip {h : Hub} (asserted : level = true) (was : h.lanes[l].faultInput = false)
    (closed : h.lanes[l].relay ≠ .open) : h.faultInput l level = (h.setFaultInput l true).trip l := by
  unfold Hub.faultInput
  dsimp only
  rw [asserted, if_pos]
  simp [-Fin.getElem_fin, was, closed]

end

/-- Settles O44: a change of level that trips nothing; and a trip, by what it applies and whether it latches. -/
theorem faultInputTripsTheLane : Obligations.FaultInputTripsTheLane := by
  intro s l level ready x
  have none : s.hub.outbox = [] := ready.1
  obtain ⟨t, run, tells, sources, hub⟩ := execFaultInputAsserted_tells (l := l) (level := level) ready
  refine ⟨fun idle => ?_, fun asserted was closed => ?_⟩
  · rw [Hub.faultInput_of_idle idle] at tells hub
    refine ⟨t, run, none ▸ tells, sources, hub.trans ?_⟩
    rw [← none]
    rfl
  · have kept : s.hub.keepsBesideLanes (s.hub.faultInput l level) := by simp [Hub.keepsBesideLanes]
    rw [Hub.faultInput_of_trip asserted was closed] at tells hub kept
    let h := s.hub.setFaultInput l true
    let asserts : Lane := { x with faultInput := true }
    have own : h.lanes[l] = asserts := s.hub.setLane_same l _
    have written (z : Lane) : h.lanes.set l z = s.hub.lanes.set l z := by simp [h]
    let y := asserts.toOpen.tripped
    have lanes : (h.trip l).lanes = s.hub.lanes.set l y := by rw [Hub.trip_lanes, own, written]
    have tripped : (h.trip l).lanes[l] = y := (congrArg (fun v : Vector Lane 11 => v[l]) lanes).trans (by simp)
    have silent : (h.trip l).renderer.laneOut[l] = 0 :=
      (congrArg (fun v : Vector Sample 11 => v[l]) (h.trip_laneOut l)).trans (by simp)
    obtain ⟨clock, -, -, -, -, -, -, tables⟩ : s.hub.keepsBesideLanes (h.openRelay l) := h.openRelay_keepsBesideLanes l
    obtain ⟨before, opening, quiet, raises⟩ := h.openRelay_tells l
    rw [own, written] at raises
    have raises : asserts.pending ≠ Option.none → s.hub.raisesLayout (h.openRelay l)
      (deriveLayoutOf s.hub.renderer.entries s.hub.renderer.sub s.hub.renderer.crossover
        (s.hub.lanes.set l asserts.toOpen)) before := raises
    rw [own] at quiet
    have opening : (h.openRelay l).outbox = before := opening.trans ((congrArg (· ++ before) none).trans (List.nil_append _))
    refine ⟨t, _, run, tells, sources, ?_⟩
    rw [hub]
    refine ⟨lanes, ?_, silent, kept⟩
    dsimp only
    rw [tripped]
    by_cases latches : y.fault = .latchedOc
    · obtain ⟨after, outbox, derives, nudged⟩ := Hub.trip_of_latched (l := l) (h := h) (by rw [own]; exact latches)
      rw [own, opening] at outbox
      refine ⟨before, after, outbox, quiet, fun n => absurd latches n, fun n => absurd latches n, fun n => absurd latches n,
        fun _ idle => ?_, fun _ waits => ?_, fun _ => ?_⟩
      · rw [Hub.openRelay_of_none (by rw [own]; exact idle)] at derives
        have derives : s.hub.derivesForFault (h.trip l) after := derives
        exact derives.after rfl rfl
      · obtain ⟨-, -, -, waiting, -⟩ := h.openRelay_raises l (by rw [own]; exact waits)
        refine ⟨h.openRelay l, raises waits, clock, tables, waiting, derives.after rfl rfl, fun playing fading => ?_⟩
        obtain ⟨-, -, -, ⟨same, -⟩ | ⟨audible, -⟩⟩ := nudged .main
        · exact same
        · exact absurd audible (not_or.mpr ⟨playing, fading⟩)
      · obtain ⟨derived, -, -, running, -⟩ := derives
        refine ⟨?_, fun on => (running (by rw [clock]; exact on)).1⟩
        exact derived.trans (deriveLayoutOf_tables tables)
    · have e := Hub.trip_of_spared (l := l) (h := h) (by rw [own]; exact latches)
      refine ⟨before, [], ?_, quiet, fun _ => rfl, fun _ idle => ?_, fun _ was waits => ?_, fun n => absurd n latches,
        fun n => absurd n latches, fun n => absurd n latches⟩
      · rw [e, own, ← opening]
        rfl
      · rw [e, Hub.openRelay_of_none (by rw [own]; exact idle)]
        exact ⟨rfl, rfl⟩
      · rw [lanes, deriveLayoutOf_set (x := asserts.toOpen) (y := y) rfl (Lane.tripped_latched latches was)]
        exact (raises waits).after (by rw [e]; rfl) (by rw [e]; rfl) fun _ told => told

end Sys2Proof.Machine
end

section
/-! SUPPORT. Every lane in its turn (R110, R111, R128): every relay opened at once while the closing conditions cannot hold, and
every lane examined while no fault input is asserted. -/

namespace Sys2Proof.Machine

/-! ### Turns of the lanes and their notices -/

/-- What the turns of the lanes make of their records and post, where each turn writes its own lane and tells something of
it. -/
theorem Hub.eachLane_tells {f : LaneId → Hub → Hub} {F : LaneId → Lane → Lane} {P : Hub → Prop}
    {Q : LaneId → Lane → List Notice → Prop} (keeps : ∀ l h, P h → P (f l h))
    (own : ∀ l h, P h → (f l h).lanes = h.lanes.set l (F l h.lanes[l]))
    (tells : ∀ l h, P h → ∃ ns, (f l h).outbox = h.outbox ++ ns ∧ Q l h.lanes[l] ns) (h : Hub) (holds : P h) :
    P (h.eachLane f) ∧ (∀ l : LaneId, (h.eachLane f).lanes[l] = F l h.lanes[l]) ∧
      ∃ told : LaneId → List Notice, (h.eachLane f).outbox = h.outbox ++ (List.finRange 11).flatMap told ∧
        ∀ l : LaneId, Q l h.lanes[l] (told l) := by
  have other (l m : LaneId) (k : Hub) (p : P k) (apart : m ≠ l) : (f l k).lanes[m] = k.lanes[m] := by
    rw [own l k p, laneSet_other apart]
  obtain ⟨after, records⟩ := Hub.eachLane_turns (get := fun l k => k.lanes[l]) (F := F) keeps
    (fun l k p => by rw [own l k p]; simp) other h holds
  have turns (ls : List LaneId) : ls.Nodup → ∀ k, P k → ∃ told : LaneId → List Notice,
      (ls.foldl (fun m l => f l m) k).outbox = k.outbox ++ ls.flatMap told ∧ ∀ l ∈ ls, Q l k.lanes[l] (told l) := by
    induction ls with
    | nil => exact fun _ k _ => ⟨fun _ => [], (List.append_nil _).symm, nofun⟩
    | cons l ls ih =>
      intro distinct k p
      obtain ⟨fresh, distinct⟩ := List.nodup_cons.1 distinct
      obtain ⟨ns, outbox, now⟩ := tells l k p
      obtain ⟨told, rest, each⟩ := ih distinct (f l k) (keeps l k p)
      have apart {m : LaneId} (inside : m ∈ ls) : m ≠ l := fun e => fresh (e ▸ inside)
      refine ⟨Function.update told l ns, ?_, fun m inside => ?_⟩
      · have tail : ls.flatMap (Function.update told l ns) = ls.flatMap told :=
          List.flatMap_congr fun m inside => Function.update_of_ne (apart inside) _ _
        rw [List.foldl_cons, rest, outbox, List.flatMap_cons, Function.update_self, tail, List.append_assoc]
      · rcases List.mem_cons.1 inside with rfl | inside
        · rw [Function.update_self]
          exact now
        · rw [Function.update_of_ne (apart inside), ← other l m k p (apart inside)]
          exact each m inside
  obtain ⟨told, outbox, each⟩ := turns (List.finRange 11) (List.nodup_finRange 11) h holds
  exact ⟨after, records, told, outbox, fun l => each l (List.mem_finRange l)⟩

/-- R128: the LANE_STATE notices of the lanes whose relay state has changed, lane by lane. -/
theorem Hub.relayNotices_eq (h g : Hub) :
    h.relayNotices g = (List.finRange 11).flatMap fun l : LaneId => relayNotice l h.lanes[l] g.lanes[l] := by
  unfold Hub.relayNotices
  induction List.finRange 11 with
  | nil => rfl
  | cons l ls ih =>
    rw [List.flatMap_cons, ← ih, relayNotice]
    by_cases same : g.lanes[l].relay = h.lanes[l].relay
    · rw [if_pos same, List.filter_cons_of_neg (by simp [-Fin.getElem_fin, same])]
      rfl
    · rw [if_neg same, List.filter_cons_of_pos (by simp [-Fin.getElem_fin, same])]
      rfl

/-! ### Every relay opened at once (R111) -/

/-- R110: a thermal trip or a supply that is LOW keeps every relay from closing. -/
def Hub.barred (h : Hub) : Prop := h.protection.thermal.trip = true ∨ h.protection.supply.low = true

theorem Hub.closing_of_barred {h : Hub} (barred : h.barred) (l : LaneId) : (h.closing l).all = false := by
  rcases barred with trip | low
  · simp [ClosingConditions.all, Hub.closing, trip]
  · simp [ClosingConditions.all, Hub.closing, low]

/-- R111: the record of a lane whose relay is opened at once. -/
def Lane.openedAtOnce (x : Lane) : Lane := if x.relay = .open then x else x.toOpen

section
variable {l : LaneId} {h : Hub}

/-- R111: a relay that is opened at once while it cannot close. -/
theorem Hub.openAtOnce_effect (barred : h.barred) :
    let x := h.lanes[l]
    let g := h.openAtOnce l
    g.lanes = h.lanes.set l x.openedAtOnce ∧
      g.renderer.laneOut = (if x.relay = .open then h.renderer.laneOut else h.renderer.laneOut.set l 0) ∧
      ((x.relay ≠ .open → x.pending = none) → g.renderer = { h.renderer with laneOut := g.renderer.laneOut }) ∧
      ∃ ns, g.outbox = h.outbox ++ ns ∧ (x.relay = .open → ns = []) ∧
        (x.relay ≠ .open → laneStateNotice l x.toOpen ∈ ns) ∧
        (x.relay ≠ .open → x.pending = none → ns = [laneStateNotice l x.toOpen]) := by
  intro x g
  by_cases relay : x.relay = .open
  · have e : g = h := if_pos relay
    rw [e, if_pos relay, Lane.openedAtOnce, if_pos relay]
    exact ⟨by simp [x], rfl, fun _ => rfl, [], (List.append_nil _).symm, fun _ => rfl, fun n => absurd relay n,
      fun n => absurd relay n⟩
  · have e : g = h.enterOpen l := if_neg relay
    have hold : ((h.setLane l x.toOpen).closing l).all = false := Hub.closing_of_barred (h := h.setLane l x.toOpen) barred l
    obtain ⟨lanes, silent, idle, before, outbox, quiet, -⟩ := Hub.enterOpen_effect (h := h) (l := l)
      fun closes => absurd (hold.symm.trans closes) nofun
    rw [hold, Lane.follows_opened rfl] at lanes outbox
    rw [e, if_neg relay, Lane.openedAtOnce, if_neg relay]
    refine ⟨lanes, silent, fun none => ?_, _, outbox, fun opened => absurd opened relay, fun _ => ?_, fun _ none => ?_⟩
    · rw [(idle (none relay)).1]
    · exact List.mem_append_right _ List.mem_cons_self
    · rw [quiet none]
      exact congrArg (laneStateNotice l x.toOpen :: ·) (if_pos rfl)

end

theorem Hub.openAtOnce_keepsBarred (l : LaneId) {h : Hub} (barred : h.barred) : (h.openAtOnce l).barred := by
  obtain ⟨-, -, protection, -⟩ := Hub.openAtOnce_frame l h
  unfold Hub.barred
  rw [protection]
  exact barred

theorem Lane.openedAtOnce_relay (x : Lane) : x.openedAtOnce.relay = .open := by
  unfold Lane.openedAtOnce
  split
  · assumption
  · rfl

/-- R111: the outputs of the lanes whose relays are opened at once are zero. -/
theorem Hub.openEvery_silences {h : Hub} (barred : h.barred) (l : LaneId) (closed : h.lanes[l].relay ≠ .open) :
    (h.eachLane Hub.openAtOnce).renderer.laneOut[l] = 0 := by
  have turns := Hub.eachLane_turns (f := Hub.openAtOnce)
    (get := fun l k => (k.lanes[l].relay, k.renderer.laneOut[l]))
    (F := fun _ x => (.open, if x.1 = .open then x.2 else 0)) (P := Hub.barred)
    (fun l k bars => Hub.openAtOnce_keepsBarred l bars) ?own ?other h barred
  case own =>
    intro l k bars
    obtain ⟨lanes, silent, -⟩ := Hub.openAtOnce_effect (l := l) bars
    refine Prod.ext ?_ ?_
    · simp only [lanes, laneSet_same, Lane.openedAtOnce_relay]
    · simp only [silent]
      split
      · rfl
      · simp
  case other =>
    intro l m k bars apart
    have other : l.val ≠ m.val := fun e => apart (Fin.ext e.symm)
    obtain ⟨lanes, silent, -⟩ := Hub.openAtOnce_effect (l := l) bars
    refine Prod.ext ?_ ?_
    · simp only [lanes, laneSet_other apart]
    · simp only [silent]
      split
      · rfl
      · simp [other]
  exact (congrArg Prod.snd (turns.2 l)).trans (if_neg closed)

/-- R109, R111: where no relay that opens applies a pending assignment, the renderer is told nothing. -/
theorem Hub.openEvery_renderer {h : Hub} (barred : h.barred)
    (idle : ∀ l : LaneId, h.lanes[l].relay ≠ .open → h.lanes[l].pending = none) :
    (h.eachLane Hub.openAtOnce).renderer =
      { h.renderer with laneOut := (h.eachLane Hub.openAtOnce).renderer.laneOut } := by
  have turns := Hub.eachLane_turns (f := Hub.openAtOnce) (get := fun _ _ => ()) (F := fun _ _ => ())
    (P := fun k => k.barred ∧ (∀ l : LaneId, k.lanes[l].relay ≠ .open → k.lanes[l].pending = none) ∧
      k.renderer = { h.renderer with laneOut := k.renderer.laneOut })
    ?keeps (fun _ _ _ => rfl) (fun _ _ _ _ _ => rfl) h ⟨barred, idle, rfl⟩
  case keeps =>
    rintro l k ⟨bars, idle, same⟩
    obtain ⟨lanes, -, renderer, -⟩ := Hub.openAtOnce_effect (l := l) bars
    refine ⟨Hub.openAtOnce_keepsBarred l bars, fun m => ?_, ?_⟩
    · by_cases own : m = l
      · subst own
        rw [lanes, laneSet_same, Lane.openedAtOnce_relay]
        exact fun closed => absurd rfl closed
      · rw [lanes, laneSet_other own]
        exact idle m
    · rw [renderer (idle l), same]
  obtain ⟨⟨-, -, renderer⟩, -⟩ := turns
  exact renderer

/-- R111, R128: every relay opened at once while none can close. -/
theorem Hub.openEvery_opensAll {h : Hub} (barred : h.barred) :
    ∃ relays, (h.eachLane Hub.openAtOnce).outbox = h.outbox ++ relays ∧
      h.opensAll (h.eachLane Hub.openAtOnce) relays := by
  obtain ⟨-, lanes, told, outbox, each⟩ := Hub.eachLane_tells (f := Hub.openAtOnce) (F := fun _ => Lane.openedAtOnce)
    (P := Hub.barred)
    (Q := fun l x ns => (x.relay = .open → ns = []) ∧ (x.relay ≠ .open → laneStateNotice l x.toOpen ∈ ns) ∧
      (x.relay ≠ .open → x.pending = none → ns = [laneStateNotice l x.toOpen]))
    (fun l k bars => Hub.openAtOnce_keepsBarred l bars) (fun l k bars => (Hub.openAtOnce_effect bars).1)
    (fun l k bars => by
      obtain ⟨-, -, -, tells⟩ := Hub.openAtOnce_effect (l := l) bars
      exact tells)
    h barred
  refine ⟨_, outbox, fun l => ⟨fun opened => ?_, fun closed => ⟨?_, ?_, ?_⟩⟩, fun idle => ⟨?_, ?_⟩⟩
  · exact (lanes l).trans (if_pos opened)
  · exact (lanes l).trans (if_neg closed)
  · exact Hub.openEvery_silences barred l closed
  · obtain ⟨-, posts, -⟩ := each l
    rw [lanes l, Lane.openedAtOnce, if_neg closed]
    exact List.mem_flatMap.2 ⟨l, List.mem_finRange l, posts closed⟩
  · rw [Hub.relayNotices_eq]
    refine List.flatMap_congr fun l _ => ?_
    obtain ⟨opened, -, closed⟩ := each l
    rw [lanes l, Lane.openedAtOnce, relayNotice]
    by_cases relay : h.lanes[l].relay = .open
    · rw [opened relay, if_pos relay, if_pos rfl]
    · rw [closed relay (idle l relay), if_neg relay, if_neg fun e => relay e.symm]
  · exact Hub.openEvery_renderer barred idle


/-- R111: of the hub before and the hub after, the lanes and the renderer say that every relay has been opened. -/
theorem Hub.opensAll.of_eq {h h' g g' : Hub} {ns : List Notice} (opens : h.opensAll g ns) (lanes : h'.lanes = h.lanes)
    (renderer : h'.renderer = h.renderer) (lanes' : g'.lanes = g.lanes) (renderer' : g'.renderer = g.renderer) :
    h'.opensAll g' ns := by
  unfold Hub.opensAll Hub.relayNotices at opens ⊢
  rw [lanes, renderer, lanes', renderer']
  exact opens

/-! ### Every lane examined (R110) -/

/-- R110: an examination in its turn, `h` being the hub before the first one. -/
theorem Hub.examine_turn {h k : Hub} (free : k.faultless) (kept : h.keepsBesideLanes k) (l : LaneId) :
    let z := k.lanes[l].follows ((h.setLane l k.lanes[l]).closing l).all
    k.examine l = k.writesLane l z (relayNotice l k.lanes[l] z) := by
  have own : (h.setLane l k.lanes[l]).lanes[l] = k.lanes[l] := h.setLane_same l _
  have kept : (h.setLane l k.lanes[l]).keepsBesideLanes k := kept
  rw [← Hub.closing_congr kept (by rw [own]) (by rw [own])]
  exact Hub.examine_eq fun _ => free l

theorem Hub.keepsBesideLanes.trans {h g k : Hub} (a : h.keepsBesideLanes g) (b : g.keepsBesideLanes k) :
    h.keepsBesideLanes k := by
  obtain ⟨clock, decoder, protection, radio, station, standby, settings, tables⟩ := a
  obtain ⟨clock', decoder', protection', radio', station', standby', settings', tables'⟩ := b
  exact ⟨clock'.trans clock, decoder'.trans decoder, protection'.trans protection, radio'.trans radio,
    station'.trans station, standby'.trans standby, settings'.trans settings, tables'.trans tables⟩

/-- R110, R128: every lane examined while no fault input is asserted. -/
theorem Hub.examineAll_follows {h : Hub} (free : h.faultless) :
    h.relaysFollow h.examineAll ∧ h.examineAll.outbox = h.outbox ++ h.relayNotices h.examineAll := by
  have turns := Hub.eachLane_tells (f := Hub.examine)
    (F := fun l x => x.follows ((h.setLane l x).closing l).all) (P := fun k => k.faultless ∧ h.keepsBesideLanes k)
    (Q := fun l x ns => ns = relayNotice l x (x.follows ((h.setLane l x).closing l).all)) ?keeps ?own ?tells h
    ⟨free, rfl, rfl, rfl, rfl, rfl, rfl, rfl, rfl⟩
  case keeps =>
    rintro l k ⟨free, kept⟩
    exact ⟨(Hub.examine_movesLanes l free).1, kept.trans (k.examine_keepsBesideLanes l)⟩
  case own =>
    rintro l k ⟨free, kept⟩
    rw [Hub.examine_turn free kept]
    rfl
  case tells =>
    rintro l k ⟨free, kept⟩
    rw [Hub.examine_turn free kept]
    exact ⟨_, rfl, rfl⟩
  obtain ⟨⟨-, kept⟩, lanes, told, outbox, each⟩ := turns
  change h.keepsBesideLanes h.examineAll at kept
  change ∀ l : LaneId, h.examineAll.lanes[l] = h.lanes[l].follows ((h.setLane l h.lanes[l]).closing l).all at lanes
  refine ⟨fun l => ?_, ?_⟩
  · have closing : h.examineAll.closing l = (h.setLane l h.lanes[l]).closing l := by
      rw [Hub.setLane_self]
      refine Hub.closing_congr kept ?_ ?_
      · rw [lanes l, Lane.follows_eq]
      · rw [lanes l, Lane.follows_eq]
    rw [closing]
    exact lanes l
  · rw [Hub.relayNotices_eq]
    refine outbox.trans (congrArg (h.outbox ++ ·) (List.flatMap_congr fun l _ => ?_))
    rw [lanes l]
    exact each l

end Sys2Proof.Machine
end

section
/-! SUPPORT. A conversion in its turn (R115, R118, R125, O45): the DC window of a lane, the supply, and the channel. -/

namespace Sys2Proof.Machine

/-! ### The DC window of a lane (R115) -/

/-- R115: a reading joins a window of at most 256 readings, from which the oldest leaves. -/
theorem Lane.addReading_eq {x : Lane} (r : Int) (short : x.dcWindow.length ≤ 256) :
    x.addReading r =
      { x with
        dcWindow := (if x.dcWindow.length = 256 then x.dcWindow.drop 1 else x.dcWindow) ++ [r]
        dcSum := x.dcSum + r - (if x.dcWindow.length = 256 then x.dcWindow.headD 0 else 0) } := by
  unfold Lane.addReading
  by_cases full : x.dcWindow.length = 256
  · rw [if_pos (Nat.le_of_eq full.symm), if_pos full, if_pos full]
  · rw [if_neg fun long => full (le_antisymm short long), if_neg full, if_neg full, sub_zero]

theorem Lane.dcFails_iff (x : Lane) : x.dcFails = true ↔ x.dcWindow.length = 256 ∧ (25600 < x.dcSum ∨ x.dcSum < -25600) := by
  simp [Lane.dcFails]

/-- R115: the record of a lane that latches for its DC offset. -/
def Lane.latchedForDc (x : Lane) : Lane := { x with fault := .latchedDc, retryTimer := 0 }

section
variable {l : LaneId} {h : Hub} {code : BitVec 12}

theorem Hub.dcReading_of_latched (latched : h.lanes[l].fault.latched = true) : h.dcReading l code = h := if_pos latched

/-- R115: a reading that passes the DC test joins the window. -/
theorem Hub.dcReading_of_passes (live : h.lanes[l].fault.latched = false)
    (passes : (h.lanes[l].addReading (code.toNat - 2048)).dcFails = false) :
    h.dcReading l code = h.setLane l (h.lanes[l].addReading (code.toNat - 2048)) := by
  unfold Hub.dcReading
  dsimp only
  rw [if_neg (by rw [live]; nofun), if_neg (by rw [passes]; nofun)]

/-- R115: a reading that fails the DC test latches its lane. -/
theorem Hub.dcReading_of_fails (live : h.lanes[l].fault.latched = false)
    (fails : (h.lanes[l].addReading (code.toNat - 2048)).dcFails = true) :
    let z := (h.lanes[l].addReading (code.toNat - 2048)).latchedForDc
    h.dcReading l code = h.settlesLane .fault l z (laneFaultNotice l z) := by
  unfold Hub.dcReading
  dsimp only
  rw [if_neg (by rw [live]; nofun), if_pos fails]
  rfl

theorem Hub.dcReading_keepsOtherLanes : h.keepsOtherLanes l (h.dcReading l code) := by
  by_cases latched : h.lanes[l].fault.latched = true
  · rw [Hub.dcReading_of_latched latched]
    exact fun _ _ => rfl
  have live := Bool.eq_false_iff.mpr latched
  by_cases fails : (h.lanes[l].addReading (code.toNat - 2048)).dcFails = true
  · rw [Hub.dcReading_of_fails live fails]
    exact Hub.settlesLane_keepsOtherLanes _ _ _
  · rw [Hub.dcReading_of_passes live (Bool.eq_false_iff.mpr fails)]
    exact Hub.keepsOtherLanes_of_set rfl

/-- R111: a lane whose conditions do not hold leaves CLOSED and CLOSING. -/
theorem Lane.follows_leaves (x : Lane) :
    (x.follows false).relay = (if x.relay = .closing then .opening else x.relay) ∧
      (x.relay = .closed → (x.follows false).ramp = if x.ramp.isSome then x.ramp else some 0) := by
  match relay : x.relay with
  | .open =>
    rw [Lane.follows_opened relay]
    exact ⟨relay, nofun⟩
  | .closing =>
    rw [Lane.follows_of_closing relay]
    exact ⟨rfl, nofun⟩
  | .closed =>
    rw [Lane.follows_of_closed relay, Lane.beginRamp_eq]
    exact ⟨relay, fun _ => rfl⟩
  | .opening =>
    rw [Lane.follows_of_stays (by rw [relay]; nofun) (by rw [relay]; nofun) (by rw [relay]; nofun)]
    exact ⟨relay, nofun⟩

/-- R111, R128: a lane whose conditions do not hold tells that it leaves CLOSING. -/
theorem relayNotice_leaves (l : LaneId) (x : Lane) :
    relayNotice l x (x.follows false) = if x.relay = .closing then [laneStateNotice l (x.follows false)] else [] := by
  rw [relayNotice, (Lane.follows_leaves x).1]
  by_cases closing : x.relay = .closing
  · rw [if_pos closing, if_pos closing, closing]
    rfl
  · rw [if_neg closing, if_neg closing, if_pos rfl]

/-- R115, R86, R110: everything that a reading which fails the DC test brings about. -/
theorem Hub.dcReading_latches (live : h.lanes[l].fault.latched = false)
    (fails : (h.lanes[l].addReading (code.toNat - 2048)).dcFails = true) :
    let x := h.lanes[l]
    let z := (x.addReading (code.toNat - 2048)).latchedForDc
    let g := h.dcReading l code
    g.lanes[l] = z.follows false ∧
      ∃ mid, g.outbox = h.outbox ++ laneFaultNotice l g.lanes[l] ::
          (mid ++ if z.relay = .closing then [laneStateNotice l g.lanes[l]] else []) ∧
        h.derivesForFault g mid := by
  intro x z g
  have hold : ((h.setLane l z).closing l).all = false :=
    Hub.closing_of_fault (by rw [Hub.setLane_same]; nofun)
  have free : ((h.setLane l z).closing l).all = true → z.faultInput = false := fun e => absurd (hold.symm.trans e) nofun
  have e : g = h.settlesLane .fault l z (laneFaultNotice l z) := Hub.dcReading_of_fails live fails
  have own := Hub.settlesLane_own (cause := .fault) (n := laneFaultNotice l z) free
  obtain ⟨mid, outbox, derives⟩ := Hub.settlesLane_forFault (n := laneFaultNotice l z) free
  rw [hold] at own outbox
  rw [e]
  refine ⟨own, mid, ?_, derives⟩
  rw [own, outbox, relayNotice_leaves]
  refine congrArg (fun n => h.outbox ++ n :: _) ?_
  rw [Lane.follows_eq]
  rfl

end

/-! ### The supply (R125) -/

/-- R125: the supply record written. -/
def Hub.withSupply (v : Supply) (h : Hub) : Hub := { h with protection := { h.protection with supply := v } }

/-- R125: a supply that falls or returns, told. -/
def Hub.tellsSupply (v : Supply) (code : BitVec 12) (h : Hub) : Hub := post (supplyNotice v code) (h.withSupply v)

/-- R125: a conversion of the supply's channel, by the state of the supply and its code. -/
theorem Hub.supplyReading_cases (code : BitVec 12) (h : Hub) :
    let v := h.protection.supply
    (v.low = false → 2600 ≤ code.toNat → h.supplyReading code = h) ∧
    (v.low = false → code.toNat < 2600 →
      h.supplyReading code = (h.tellsSupply ⟨true, 0⟩ code).eachLane Hub.openAtOnce) ∧
    (v.low = true → code.toNat < 2700 → h.supplyReading code = h.withSupply ⟨true, 0⟩) ∧
    (v.low = true → 2700 ≤ code.toNat → v.goodRun < 499 →
      h.supplyReading code = h.withSupply ⟨true, v.goodRun + 1⟩) ∧
    (v.low = true → 2700 ≤ code.toNat → 499 ≤ v.goodRun →
      h.supplyReading code = (h.tellsSupply ⟨false, 500⟩ code).examineAll) := by
  unfold Hub.supplyReading
  dsimp only
  refine ⟨fun good high => ?_, fun good fell => ?_, fun low fell => ?_, fun low high few => ?_, fun low high many => ?_⟩
  · rw [if_neg (by rw [good]; nofun), if_neg (Nat.not_lt.mpr high)]
  · rw [if_neg (by rw [good]; nofun), if_pos fell]
    rfl
  · rw [if_pos low, if_pos fell, low]
    rfl
  · rw [if_pos low, if_neg (Nat.not_lt.mpr high), if_pos (by omega), low]
    rfl
  · rw [if_pos low, if_neg (Nat.not_lt.mpr high), if_neg (by omega)]
    rfl

/-- R118: a conversion's code written and the rotation handed on. -/
def Hub.senses (c : SenseChannel) (code : BitVec 12) (h : Hub) : Hub :=
  { h with protection := { h.protection with sense := h.protection.sense.set c (some code), nextChannel := channelAfter c } }

section
variable {c : SenseChannel} {code : BitVec 12} {h : Hub}

/-- R118: a conversion out of its turn changes nothing (notes/assumptions/17.md). -/
theorem Hub.conversion_of_other (out : h.clock.running = false ∨ h.protection.nextChannel ≠ some c) :
    h.conversion c code = h := by
  refine if_neg ?_
  rintro ⟨running, next⟩
  rcases out with stopped | other
  · exact absurd (stopped.symm.trans running) nofun
  · exact other next

theorem Hub.conversion_of_next (running : h.clock.running = true) (next : h.protection.nextChannel = some c) :
    (∀ l : LaneId, l.val = c.val → h.conversion c code = (h.senses c code).dcReading l code) ∧
    (c.val = 11 ∨ c.val = 12 → h.conversion c code = h.senses c code) ∧
    (c.val = 13 → h.conversion c code = (h.senses c code).supplyReading code) := by
  unfold Hub.conversion
  rw [if_pos ⟨running, next⟩]
  refine ⟨fun l same => ?_, fun temperature => ?_, fun supply => ?_⟩
  · have lane : c.val < 11 := same ▸ l.isLt
    have named : (⟨c.val, lane⟩ : LaneId) = l := Fin.ext same.symm
    rw [dif_pos lane, named]
    rfl
  · rw [dif_neg (by omega), if_neg (by omega)]
    rfl
  · rw [dif_neg (by omega), if_pos supply]
    rfl

end

theorem channelAfter_val (c : SenseChannel) :
    (channelAfter c).map Fin.val = if c.val < 13 then some (c.val + 1) else none := by
  unfold channelAfter
  by_cases more : c.val < 13
  · rw [dif_pos (by omega), if_pos more]
    rfl
  · rw [dif_neg (by omega), if_neg more]
    rfl

/-- R125: of the protection records a conversion of the supply's channel writes that of the supply. -/
theorem Hub.supplyReading_protection (code : BitVec 12) (h : Hub) :
    (h.supplyReading code).protection = { h.protection with supply := (h.supplyReading code).protection.supply } := by
  have opened (k : Hub) : (k.eachLane Hub.openAtOnce).protection = k.protection := by simp
  have examined (k : Hub) : k.examineAll.protection = k.protection := by simp
  unfold Hub.supplyReading
  dsimp only
  repeat' split
  all_goals simp only [opened, examined, post]

/-- R118: of the protection records a conversion in its turn writes the code, the rotation and the supply. -/
theorem Hub.conversion_protection {c : SenseChannel} {code : BitVec 12} {h : Hub} (running : h.clock.running = true)
    (next : h.protection.nextChannel = some c) :
    (h.conversion c code).protection =
      { h.protection with
        sense := h.protection.sense.set c (some code)
        nextChannel := channelAfter c
        supply := (h.conversion c code).protection.supply } := by
  obtain ⟨lane, temperature, supply⟩ := Hub.conversion_of_next (code := code) running next
  by_cases isLane : c.val < 11
  · obtain ⟨-, -, stands, -⟩ := (h.senses c code).dcReading_frame ⟨c.val, isLane⟩ code
    rw [lane ⟨c.val, isLane⟩ rfl, stands]
    rfl
  by_cases isSupply : c.val = 13
  · rw [supply isSupply, Hub.supplyReading_protection]
    rfl
  · rw [temperature (by have := c.isLt; omega)]
    rfl

end Sys2Proof.Machine
end

section
/-! PROOFS. A conversion in its turn (R115, R118, R125, R128): O45. -/

namespace Sys2Proof.Machine

/-! ### A reading of a lane's DC channel (R115) -/

section
variable {l : LaneId} {h : Hub} {code : BitVec 12}

/-- R115: a reading of a lane that is not latched: the window and its sum, and the lane latched where the test fails. -/
theorem Hub.dcReading_judges (live : h.lanes[l].fault.latched = false) (short : h.lanes[l].dcWindow.length ≤ 256) :
    let x := h.lanes[l]
    let r : Int := (code.toNat : Int) - 2048
    let full := x.dcWindow.length = 256
    let window := (if full then x.dcWindow.drop 1 else x.dcWindow) ++ [r]
    let sum := x.dcSum + r - (if full then x.dcWindow.headD 0 else 0)
    let g := h.dcReading l code
    g.lanes[l].dcWindow = window ∧ g.lanes[l].dcSum = sum ∧
      (window.length = 256 → 25600 < sum ∨ sum < -25600 →
        g.lanes[l].fault = .latchedDc ∧ g.lanes[l].retryTimer = 0 ∧
          g.lanes[l].relay = (if x.relay = .closing then .opening else x.relay) ∧
          (x.relay = .closed → g.lanes[l].ramp = (if x.ramp.isSome then x.ramp else some 0)) ∧
          ∃ mid, g.outbox = h.outbox ++ laneFaultNotice l g.lanes[l] ::
              (mid ++ (if x.relay = .closing then [laneStateNotice l g.lanes[l]] else [])) ∧
            h.derivesForFault g mid) ∧
      (window.length < 256 ∨ (-25600 ≤ sum ∧ sum ≤ 25600) →
        g = h.setLane l { x with dcWindow := window, dcSum := sum }) := by
  intro x r full window sum g
  have added : x.addReading r = { x with dcWindow := window, dcSum := sum } := Lane.addReading_eq r short
  have judged : (x.addReading r).dcFails = true ↔ window.length = 256 ∧ (25600 < sum ∨ sum < -25600) := by
    rw [Lane.dcFails_iff, added]
  by_cases fails : (x.addReading r).dcFails = true
  · obtain ⟨own, mid, outbox, derives⟩ := Hub.dcReading_latches live fails
    change g.lanes[l] = (x.addReading r).latchedForDc.follows false at own
    rw [added] at own
    change g.outbox = _ at outbox
    obtain ⟨relay, ramp⟩ := Lane.follows_leaves { x with dcWindow := window, dcSum := sum }.latchedForDc
    obtain ⟨fault, timer, -, readings, total, -⟩ :=
      Lane.follows_keeps { x with dcWindow := window, dcSum := sum }.latchedForDc false
    rw [← own] at relay ramp fault timer readings total
    refine ⟨readings, total, fun _ _ => ⟨fault, timer, relay, ramp, mid, ?_, derives⟩, fun passes => ?_⟩
    · exact outbox.trans (by rw [show (x.addReading r).latchedForDc.relay = x.relay by rw [added]; rfl])
    · obtain ⟨long, beyond⟩ := judged.1 fails
      exact passes.elim (fun few => absurd long few.ne) fun ⟨low, high⟩ => by omega
  · have written : g = h.setLane l { x with dcWindow := window, dcSum := sum } :=
      (Hub.dcReading_of_passes live (Bool.eq_false_iff.mpr fails)).trans (congrArg (h.setLane l · ) added)
    have own : g.lanes[l] = { x with dcWindow := window, dcSum := sum } := by rw [written, Hub.setLane_same]
    exact ⟨by rw [own], by rw [own], fun long beyond => absurd (judged.2 ⟨long, beyond⟩) fails, fun _ => written⟩

end

/-- Settles O45: a conversion of a lane, of a temperature, and of the supply. -/
theorem conversionsAreJudged : Obligations.ConversionsAreJudged := by
  intro s c code ready
  have none : s.hub.outbox = [] := ready.1
  obtain ⟨t, run, tells, sources, hub⟩ := event_onHub (Hub.conversion c code) ready.2
  refine ⟨fun out => ?_, fun running next => ?_⟩
  · rw [Hub.conversion_of_other out] at tells hub
    exact ⟨t, run, none ▸ tells, sources, hub.trans (by rw [← none])⟩
  obtain ⟨lane, temperature, supply⟩ := Hub.conversion_of_next (code := code) running next
  have protection := Hub.conversion_protection (code := code) running next
  have rotation := congrArg Protection.nextChannel protection
  obtain ⟨clock, decoder, radio, station, standby⟩ := s.hub.conversion_frame c code
  let k := s.hub.senses c code
  refine ⟨t, _, run, tells, sources, ?_⟩
  rw [hub]
  refine ⟨?_, ?_, fun l same => ?_, fun sensor => ?_, fun last => ?_, clock, decoder, radio, station, standby,
    s.hub.conversion_settings c code, s.hub.conversion_tables c code⟩
  · exact protection.trans (by rw [rotation])
  · exact (congrArg (Option.map Fin.val) rotation).trans (channelAfter_val c)
  · intro x r full window sum
    rw [lane l same]
    obtain ⟨-, -, stands, -⟩ := k.dcReading_frame l code
    refine ⟨(congrArg Protection.supply stands :), Hub.dcReading_keepsOtherLanes,
      fun latched => ?_, fun live short => ?_⟩
    · rw [Hub.dcReading_of_latched]
      · rfl
      · rcases latched with f | f <;> exact (congrArg FaultState.latched f).trans rfl
    · have live : k.lanes[l].fault.latched = false := by
        rcases live with f | f <;> exact (congrArg FaultState.latched f).trans rfl
      obtain ⟨readings, total, latches, passes⟩ := Hub.dcReading_judges (h := k) (code := code) live short
      refine ⟨readings, total, fun long beyond => ?_, fun within => ?_⟩
      · obtain ⟨fault, timer, relay, ramp, mid, outbox, derives⟩ := latches long beyond
        have derives : s.hub.derivesForFault (k.dcReading l code) mid := derives
        exact ⟨fault, timer, relay, ramp, mid, outbox.trans ((congrArg (· ++ _) none).trans (List.nil_append _)),
          derives.after rfl rfl⟩
      · rw [passes within]
        exact ⟨s.hub.setLane_same l _, rfl, none⟩
  · rw [temperature sensor]
    exact ⟨rfl, rfl, rfl, none⟩
  · intro v
    obtain ⟨good, falls, low, counts, returns⟩ := k.supplyReading_cases code
    have told (u : Supply) : (k.tellsSupply u code).outbox = [supplyNotice u code] :=
      congrArg (· ++ [supplyNotice u code]) none
    rw [supply last]
    refine ⟨fun was high => ?_, fun was fell => ?_, fun was fell => ?_, fun was high few => ?_, fun was high many => ?_⟩
    · rw [good was high]
      exact ⟨rfl, rfl, none⟩
    · obtain ⟨relays, outbox, opens⟩ := Hub.openEvery_opensAll (h := k.tellsSupply ⟨true, 0⟩ code) (.inr rfl)
      obtain ⟨-, -, stands, -⟩ := (k.tellsSupply ⟨true, 0⟩ code).openEvery_frame
      rw [falls was fell]
      generalize Hub.eachLane Hub.openAtOnce (k.tellsSupply ⟨true, 0⟩ code) = g at outbox opens stands
      rw [outbox, stands, told]
      exact ⟨rfl, relays, rfl, opens.of_eq rfl rfl rfl rfl⟩
    · rw [low was fell]
      exact ⟨rfl, rfl, none⟩
    · rw [counts was high few]
      exact ⟨rfl, rfl, none⟩
    · obtain ⟨-, -, stands, -⟩ := (k.tellsSupply ⟨false, 500⟩ code).examineAll_frame
      have examined := Hub.examineAll_follows (h := k.tellsSupply ⟨false, 500⟩ code)
      have moves := Hub.examineAll_movesLanes (h := k.tellsSupply ⟨false, 500⟩ code)
      rw [returns was high many]
      generalize (k.tellsSupply ⟨false, 500⟩ code).examineAll = g at stands examined moves
      rw [stands]
      refine ⟨rfl, fun free => ?_⟩
      obtain ⟨follows, outbox⟩ := examined free
      obtain ⟨-, renderer, zones, -⟩ := moves free
      rw [outbox, told]
      exact ⟨follows, rfl, renderer, zones⟩

end Sys2Proof.Machine
end
